-- ==== Sys2Proof/Word.lean ====
section
/-! DEFINITION. The word types of the K4 and their plainest arithmetic (R11, R12). -/

namespace Sys2Proof

/-- A 64-bit scalar register or doubleword. -/
abbrev Word := BitVec 64

/-- A 32-bit instruction word or FP32 pattern. -/
abbrev W32 := BitVec 32

/-- One byte. -/
abbrev Byte := BitVec 8

/-- A hypervector, 4,096 bits (R206). -/
abbrev Hv := BitVec 4096

/-- A flit, 256 bytes, byte 0 lowest (R330). -/
abbrev Flit := BitVec 2048

/-- Bits `lo + n - 1 : lo` of a number (R11). -/
def bitsOf (w lo n : Nat) : Nat := w / 2 ^ lo % 2 ^ n

end Sys2Proof
end

