-- ==== Sys2Proof/Syntax.lean ====
section
/-! DEFINITION. The instruction type: one constructor for each row of opcode_table.json, words of the
four slots and three code sections first, then the machine's events (95_what_each_step_holds). -/

namespace Sys2Proof

/-- A seven-bit source field (R99): a scalar register, or an entry of the inline constant table. -/
inductive Src
  | reg (r : BitVec 5)
  | const (k : BitVec 6)
  deriving DecidableEq, Repr

/-- Rounding modes (Table 2-6); the reserved codes have no constructor. -/
inductive RMode
  | rne | rz | ru | rd | sr
  deriving DecidableEq, Repr

/-- Scopes (Table 3-2), CORE < DIE < PKG < POD. -/
inductive Scope
  | core | die | pkg | pod
  deriving DecidableEq, Repr

/-- Integer condition codes (Table 5-4, CMP column). VCMP uses the same codes in either class. -/
inductive Cond
  | eq | ne | lt | ge | ltu | geu | tst | ntst
  deriving DecidableEq, Repr

/-- Floating-point condition codes (Table 5-4, FCMP column). -/
inductive FCond
  | eq | ne | lt | ge | le | gt | un | ord
  deriving DecidableEq, Repr

/-- The five transcendental functions (Table 2-9). -/
inductive Trans
  | exp2 | log2 | rcp | rsqrt | tanh
  deriving DecidableEq, Repr

/-- An engine of a core (Table 1-1). -/
inductive Unit8
  | ve | me | hu
  | ch (c : BitVec 3)
  deriving DecidableEq, Repr

/-- A converter with a stochastic generator (R62). -/
inductive Conv
  | cc | ve | me
  deriving DecidableEq, Repr

/-- The causes of the failure record (Table 3-6). -/
inductive FailCause
  | deadLink | refused | timeout | atomicUnknown | poison
  deriving DecidableEq, Repr

/-- Every step of the machine: one constructor per row of opcode_table.json. The fields of a word's
constructor are its operand fields; the fields of an event's constructor name the agent, the object
or the outside value that the event concerns (core and list positions, port, lane, value). -/
inductive Instr
  /-- NOP (R96): The all-zero word of the S, V, X or H slot, or of vsec or xsec, sends nothing and takes no queue space. -/
  | nop
  /-- ME_NOP (R96): The direct ME step 0x8000_0000 takes an ME queue entry, counts in tl and retires without doing anything. -/
  | meNop
  /-- ADD (R124): Writes a plus b, modulo 2^64, to sd. -/
  | add (d : BitVec 5) (a b : Src)
  /-- SUB (R124): Writes a minus b, modulo 2^64, to sd. -/
  | sub (d : BitVec 5) (a b : Src)
  /-- MUL (R124): Writes the low 64 bits of a times b to sd. -/
  | mul (d : BitVec 5) (a b : Src)
  /-- MULH (R124): Writes the high 64 bits of the signed 128-bit product to sd. -/
  | mulh (d : BitVec 5) (a b : Src)
  /-- MULH_U (R124): Writes the high 64 bits of the unsigned 128-bit product to sd. -/
  | mulhU (d : BitVec 5) (a b : Src)
  /-- DIV (R125): Writes the signed quotient, truncated toward zero, with fixed results at the limits and no fault. -/
  | div (d : BitVec 5) (a b : Src)
  /-- DIV_U (R125): Writes the unsigned quotient, with fixed results at the limits and no fault. -/
  | divU (d : BitVec 5) (a b : Src)
  /-- REM (R125): Writes the signed remainder, which takes the sign of a. -/
  | rem (d : BitVec 5) (a b : Src)
  /-- REM_U (R125): Writes the unsigned remainder. -/
  | remU (d : BitVec 5) (a b : Src)
  /-- AND (R124): Writes the bitwise AND of a and b to sd. -/
  | and (d : BitVec 5) (a b : Src)
  /-- OR (R124): Writes the bitwise OR of a and b to sd. -/
  | or (d : BitVec 5) (a b : Src)
  /-- XOR (R124): Writes the bitwise XOR of a and b to sd. -/
  | xor (d : BitVec 5) (a b : Src)
  /-- ANDN (R124): Writes a AND NOT b to sd. -/
  | andn (d : BitVec 5) (a b : Src)
  /-- SHL (R124): Shifts a left by b[5:0]. -/
  | shl (d : BitVec 5) (a b : Src)
  /-- SHR (R124): Shifts a right logically by b[5:0]. -/
  | shr (d : BitVec 5) (a b : Src)
  /-- SRA (R124): Shifts a right arithmetically by b[5:0]. -/
  | sra (d : BitVec 5) (a b : Src)
  /-- ROT (R124): Rotates a left by b[5:0]. -/
  | rot (d : BitVec 5) (a b : Src)
  /-- MIN (R124): Writes the signed minimum of a and b. -/
  | min (d : BitVec 5) (a b : Src)
  /-- MIN_U (R124): Writes the unsigned minimum of a and b. -/
  | minU (d : BitVec 5) (a b : Src)
  /-- MAX (R124): Writes the signed maximum of a and b. -/
  | max (d : BitVec 5) (a b : Src)
  /-- MAX_U (R124): Writes the unsigned maximum of a and b. -/
  | maxU (d : BitVec 5) (a b : Src)
  /-- CLZ (R124): Writes the number of leading zero bits of a. -/
  | clz (d : BitVec 5) (a : Src)
  /-- POPC (R124): Writes the number of one bits of a. -/
  | popc (d : BitVec 5) (a : Src)
  /-- SEL (R124): Writes a if the predicate named in fn[2:0] is true, else b. -/
  | sel (d : BitVec 5) (a b : Src) (p : BitVec 3)
  /-- FADD (R130): Adds two FP32 values with one rounding in the selected mode and sets the CC flags. -/
  | fadd (d : BitVec 5) (a b : Src) (rm : RMode)
  /-- FSUB (R130): Subtracts two FP32 values with one rounding. -/
  | fsub (d : BitVec 5) (a b : Src) (rm : RMode)
  /-- FMUL (R130): Multiplies two FP32 values with one rounding. -/
  | fmul (d : BitVec 5) (a b : Src) (rm : RMode)
  /-- FFMA (R130): Computes a times b plus sd exactly and rounds once into sd. -/
  | ffma (d : BitVec 5) (a b : Src) (rm : RMode)
  /-- FMIN (R130): Writes the FP32 minimum under Table 2-8. -/
  | fmin (d : BitVec 5) (a b : Src)
  /-- FMAX (R130): Writes the FP32 maximum under Table 2-8. -/
  | fmax (d : BitVec 5) (a b : Src)
  /-- FCVT_I64_F32 (R131): Rounds an FP32 value to a signed 64-bit integer, saturating. -/
  | fcvtI64F32 (d : BitVec 5) (a : Src) (rm : RMode)
  /-- FCVT_F32_I64 (R131): Rounds a signed 64-bit integer to FP32. -/
  | fcvtF32I64 (d : BitVec 5) (a : Src) (rm : RMode)
  /-- FCVT_BF16_F32 (R131): Rounds FP32 to BF16 in the low bits of sd. -/
  | fcvtBf16F32 (d : BitVec 5) (a : Src) (rm : RMode)
  /-- FCVT_FP16_F32 (R131): Rounds FP32 to FP16. -/
  | fcvtFp16F32 (d : BitVec 5) (a : Src) (rm : RMode)
  /-- FCVT_E4M3_F32 (R131): Rounds FP32 to FP8 E4M3. -/
  | fcvtE4m3F32 (d : BitVec 5) (a : Src) (rm : RMode)
  /-- FCVT_E5M2_F32 (R131): Rounds FP32 to FP8 E5M2. -/
  | fcvtE5m2F32 (d : BitVec 5) (a : Src) (rm : RMode)
  /-- FCVT_F32_BF16 (R131): Widens BF16 to FP32 exactly. -/
  | fcvtF32Bf16 (d : BitVec 5) (a : Src)
  /-- FCVT_F32_FP16 (R131): Widens FP16 to FP32 exactly. -/
  | fcvtF32Fp16 (d : BitVec 5) (a : Src)
  /-- FCVT_F32_E4M3 (R131): Widens E4M3 to FP32 exactly. -/
  | fcvtF32E4m3 (d : BitVec 5) (a : Src)
  /-- FCVT_F32_E5M2 (R131): Widens E5M2 to FP32 exactly. -/
  | fcvtF32E5m2 (d : BitVec 5) (a : Src)
  /-- CMP (R129): Writes an integer comparison of a and b to a predicate, register form. -/
  | cmp (p : BitVec 3) (a b : Src) (c : Cond)
  /-- FCMP (R132): Writes an FP32 comparison of a and b to a predicate. -/
  | fcmp (p : BitVec 3) (a b : Src) (c : FCond)
  /-- AMO_ADD (R137): Atomically adds b to the word at a at its home and returns the old value. -/
  | amoAdd (d : BitVec 5) (a b : Src) (w : Bool) (sc : Scope)
  /-- AMO_MIN (R137): Atomically takes the signed or unsigned minimum. -/
  | amoMin (d : BitVec 5) (a b : Src) (u w : Bool) (sc : Scope)
  /-- AMO_MAX (R137): Atomically takes the signed or unsigned maximum. -/
  | amoMax (d : BitVec 5) (a b : Src) (u w : Bool) (sc : Scope)
  /-- AMO_AND (R137): Atomically ANDs b into the word. -/
  | amoAnd (d : BitVec 5) (a b : Src) (w : Bool) (sc : Scope)
  /-- AMO_OR (R137): Atomically ORs b into the word. -/
  | amoOr (d : BitVec 5) (a b : Src) (w : Bool) (sc : Scope)
  /-- AMO_XOR (R137): Atomically XORs b into the word. -/
  | amoXor (d : BitVec 5) (a b : Src) (w : Bool) (sc : Scope)
  /-- AMO_SWAP (R137): Atomically swaps b into the word. -/
  | amoSwap (d : BitVec 5) (a b : Src) (w : Bool) (sc : Scope)
  /-- CAS (R137): Writes b to the word if it equals sd, and returns the old value. -/
  | cas (d : BitVec 5) (a b : Src) (w : Bool) (sc : Scope)
  /-- ACQ (R85): Acquire at the named scope: later accesses wait until every earlier read is performed. -/
  | acq (sc : Scope)
  /-- REL (R84): Release: issues only when every earlier access is performed at its effective scope clipped to the named scope. -/
  | rel (sc : Scope)
  /-- FENCE (R91): Release and acquire in one; writes the failure-record status word to sd and clears the record. -/
  | fence (d : BitVec 5) (sc : Scope)
  /-- WAITA (R140): Waits until a scratchpad signal word reaches b, then acts as an acquire at its scope. -/
  | waita (d : BitVec 5) (a b : Src) (sc : Scope)
  /-- WAITQ (R141): Waits until TAIL minus HEAD of a queue descriptor reaches b, then acts as an acquire at PKG. -/
  | waitq (d : BitVec 5) (a b : Src)
  /-- SBARV (R146): Arrives b times at a stage barrier as a release and returns the phase of the arrival. -/
  | sbarv (d : BitVec 5) (a b : Src)
  /-- SBWAIT (R147): Issues when the barrier PHASE differs from b, parking at the home otherwise. -/
  | sbwait (d : BitVec 5) (a b : Src)
  /-- FFILL (R149): Fills a future at its home and replies to every parked requester, or faults FUTURE_STATE. -/
  | ffill (a b : Src)
  /-- FGET (R150): Reads a future, parking at the home until it is filled or the limit expires. -/
  | fget (d : BitVec 5) (a b : Src)
  /-- FQPUSH (R152): Appends a 128-bit format word to the ME format-word queue. -/
  | fqpush (a b : Src)
  /-- SPAWN (R220): Releases at PKG, validates and enqueues a copy of the CR image at a. -/
  | spawn (a : Src)
  /-- JOIN (R221): Applies one join to the join block at a as a release at PKG. -/
  | join (a : Src)
  /-- DONE (R33): Waits for all work of the core, closes windows, releases, joins JOINC, returns arrays and frees the core. -/
  | done
  /-- YIELD (R222): Pre-empts the running CR and requeues it at the tail of its queue. -/
  | yield
  /-- WDECL (R224): Declares a window after its checks and writes its window number to sd. -/
  | wdecl (d : BitVec 5) (a b : Src)
  /-- WCLOSE (R225): Writes back the window's dirty tiles, leaves every tile's directory entry and frees the window. -/
  | wclose (a : Src)
  /-- WFLUSH (R225): Writes back the window's dirty tiles and keeps them held. -/
  | wflush (a : Src)
  /-- WQUERY (R226): Writes a snapshot of a window tile's directory state to sd. -/
  | wquery (d : BitVec 5) (a b : Src)
  /-- CHTAIL (R227): Sets a channel's TAIL, publishing job cards. -/
  | chtail (a b : Src)
  /-- JMP (R133): Jumps to the bundle index in a. -/
  | jmp (a : Src)
  /-- RET (R133): Jumps to the bundle index in s31. -/
  | ret
  /-- BRX (R133): Jumps into a table of bundles at PC + 1 + min(a, b). -/
  | brx (a b : Src)
  /-- TRAP (R230): Raises TRAP_SW with the code a. -/
  | trap (a : Src)
  /-- ERET (R312): Ends a trap continuation, restores the slot and resumes the trapped CR. -/
  | eret
  /-- TLBINV (R231): Invalidates translations of the region in this core's TLBs or, through the CP, in every core of the region. -/
  | tlbinv (a b : Src)
  /-- DHOP (R232): Writes the hop distance between two virtual dies. -/
  | dhop (d : BitVec 5) (a b : Src)
  /-- VDIE (R232): Reads the virtual-die table. -/
  | vdie (d : BitVec 5) (a b : Src)
  /-- TRC (R233): Places a marker packet in the chalk line. -/
  | trc (a b : Src)
  /-- SRD (R228): Reads a system register into sd. -/
  | srd (d : BitVec 5) (n : BitVec 12)
  /-- SWR (R228): Writes a to a system register that has no row of its own, under its access codes and stalls. -/
  | swr (a : Src) (n : BitVec 12)
  /-- WAITC (R139): Holds its bundle until every named counter is at or below the limit. -/
  | waitc (mask : BitVec 4) (lim : BitVec 8)
  /-- SHL_IMM (R127): Shifts a left by an immediate count. -/
  | shlImm (d : BitVec 5) (a : Src) (cnt : BitVec 6)
  /-- SHR_IMM (R127): Shifts a right logically by an immediate count. -/
  | shrImm (d : BitVec 5) (a : Src) (cnt : BitVec 6)
  /-- SRA_IMM (R127): Shifts a right arithmetically by an immediate count. -/
  | sraImm (d : BitVec 5) (a : Src) (cnt : BitVec 6)
  /-- ROT_IMM (R127): Rotates a left by an immediate count. -/
  | rotImm (d : BitVec 5) (a : Src) (cnt : BitVec 6)
  /-- MOVI (R126): Writes the sign-extended imm14 to sd. -/
  | movi (d : BitVec 5) (imm : BitVec 14)
  /-- MOVI_LONG (R101): Writes a 46-bit immediate, taken from the S and H words, to sd. -/
  | moviLong (d : BitVec 5) (imm : BitVec 46)
  /-- ADD_IMM (R126): Adds a sign-extended imm14 to a. -/
  | addImm (d : BitVec 5) (a : Src) (imm : BitVec 14)
  /-- ADD_LONG (R101): Adds a 46-bit long immediate to a. -/
  | addLong (d : BitVec 5) (a : Src) (imm : BitVec 46)
  /-- AND_IMM (R126): ANDs a with a sign-extended imm14. -/
  | andImm (d : BitVec 5) (a : Src) (imm : BitVec 14)
  /-- AND_LONG (R101): ANDs a with a 46-bit long immediate. -/
  | andLong (d : BitVec 5) (a : Src) (imm : BitVec 46)
  /-- OR_IMM (R126): ORs a with a sign-extended imm14. -/
  | orImm (d : BitVec 5) (a : Src) (imm : BitVec 14)
  /-- OR_LONG (R101): ORs a with a 46-bit long immediate. -/
  | orLong (d : BitVec 5) (a : Src) (imm : BitVec 46)
  /-- XOR_IMM (R126): XORs a with a sign-extended imm14. -/
  | xorImm (d : BitVec 5) (a : Src) (imm : BitVec 14)
  /-- XOR_LONG (R101): XORs a with a 46-bit long immediate. -/
  | xorLong (d : BitVec 5) (a : Src) (imm : BitVec 46)
  /-- LEA (R126): Writes a plus the immediate to sd after checking it as a global address. -/
  | lea (d : BitVec 5) (a : Src) (imm : BitVec 14)
  /-- LEA_LONG (R101): LEA with a 46-bit long immediate. -/
  | leaLong (d : BitVec 5) (a : Src) (imm : BitVec 46)
  /-- BFX (R128): Extracts a zero-extended bit field of a. -/
  | bfx (d : BitVec 5) (a : Src) (wid pos : BitVec 6)
  /-- BFI (R128): Inserts the low bits of a into a field of sd. -/
  | bfi (d : BitVec 5) (a : Src) (wid pos : BitVec 6)
  /-- LOOP (R134): Decrements a counter register and branches while it stays non-zero. -/
  | loop (d : BitVec 5) (imm : BitVec 14)
  /-- CMP_IMM (R129): Compares a with a sign-extended imm14 into a predicate. -/
  | cmpImm (c : Cond) (p : BitVec 3) (a : Src) (imm : BitVec 14)
  /-- CMP_LONG (R129): Compares a with a 46-bit long immediate into a predicate. -/
  | cmpLong (c : Cond) (p : BitVec 3) (a : Src) (imm : BitVec 46)
  /-- LD (R135): Loads and sign-extends 1 to 8 bytes from global memory or scratchpad. -/
  | ld (d : BitVec 5) (base : BitVec 5) (off : BitVec 13) (sz : BitVec 2) (sp : Bool)
  /-- LD_U (R135): Loads and zero-extends 1 to 8 bytes. -/
  | ldU (d : BitVec 5) (base : BitVec 5) (off : BitVec 13) (sz : BitVec 2) (sp : Bool)
  /-- ST (R135): Stores the low bytes of a register. -/
  | st (d : BitVec 5) (base : BitVec 5) (off : BitVec 13) (sz : BitVec 2) (sp : Bool)
  /-- PREF (R136): Requests an L2 line or a window tile, with an optional expected read count, and never faults. -/
  | pref (cnt base : BitVec 5) (off : BitVec 13) (sp : Bool)
  /-- BR (R133): Branches relative by off19 when p XOR n is true. -/
  | br (p : BitVec 3) (n : Bool) (off : BitVec 19)
  /-- CALL (R133): Writes PC + 1 to s31 and branches relative when the predicate acts. -/
  | call (p : BitVec 3) (n : Bool) (off : BitVec 19)
  /-- VADD (R159): Adds two shapes element by element. -/
  | vadd (d a b : BitVec 4) (rm : RMode)
  /-- VSUB (R159): Subtracts two shapes element by element. -/
  | vsub (d a b : BitVec 4) (rm : RMode)
  /-- VMUL (R159): Multiplies two shapes element by element. -/
  | vmul (d a b : BitVec 4) (rm : RMode)
  /-- VFMA (R159): Computes x times y plus z per element with one rounding. -/
  | vfma (d a b c : BitVec 4) (rm : RMode)
  /-- VMIN (R159): Takes the element-wise minimum. -/
  | vmin (d a b : BitVec 4) (rm : RMode)
  /-- VMAX (R159): Takes the element-wise maximum. -/
  | vmax (d a b : BitVec 4) (rm : RMode)
  /-- VAND (R159): Bitwise AND of integer shapes. -/
  | vand (d a b : BitVec 4) (rm : BitVec 3)
  /-- VOR (R159): Bitwise OR of integer shapes. -/
  | vor (d a b : BitVec 4) (rm : BitVec 3)
  /-- VXOR (R159): Bitwise XOR of integer shapes. -/
  | vxor (d a b : BitVec 4) (rm : BitVec 3)
  /-- VSHL (R159): Shifts integer elements left. -/
  | vshl (d a b : BitVec 4) (rm : BitVec 3)
  /-- VSHR (R159): Shifts integer elements right. -/
  | vshr (d a b : BitVec 4) (rm : BitVec 3)
  /-- VSEL (R159): Selects x or y per element by a mask shape. -/
  | vsel (d a b c : BitVec 4) (rm : RMode)
  /-- VABS (R159): Takes the absolute value of each element. -/
  | vabs (d a : BitVec 4) (rm : RMode)
  /-- VNEG (R159): Negates each element. -/
  | vneg (d a : BitVec 4) (rm : RMode)
  /-- VCMP (R159): Compares two shapes and writes all ones or zero per element. -/
  | vcmp (d a b : BitVec 4) (rm : BitVec 3) (k : Cond)
  /-- VADD_VS (R159): Adds a broadcast scalar to each element. -/
  | vaddVs (d a : BitVec 4) (q : Src) (rm : RMode)
  /-- VSUB_VS (R159): Subtracts a broadcast scalar from each element. -/
  | vsubVs (d a : BitVec 4) (q : Src) (rm : RMode)
  /-- VMUL_VS (R159): Multiplies each element by a broadcast scalar. -/
  | vmulVs (d a : BitVec 4) (q : Src) (rm : RMode)
  /-- VMIN_VS (R159): Minimum with a broadcast scalar. -/
  | vminVs (d a : BitVec 4) (q : Src) (rm : RMode)
  /-- VMAX_VS (R159): Maximum with a broadcast scalar. -/
  | vmaxVs (d a : BitVec 4) (q : Src) (rm : RMode)
  /-- VAND_VS (R159): AND with a broadcast scalar. -/
  | vandVs (d a : BitVec 4) (q : Src) (rm : BitVec 3)
  /-- VOR_VS (R159): OR with a broadcast scalar. -/
  | vorVs (d a : BitVec 4) (q : Src) (rm : BitVec 3)
  /-- VXOR_VS (R159): XOR with a broadcast scalar. -/
  | vxorVs (d a : BitVec 4) (q : Src) (rm : BitVec 3)
  /-- VSHL_VS (R159): Shifts each element left by a scalar. -/
  | vshlVs (d a : BitVec 4) (q : Src) (rm : BitVec 3)
  /-- VSHR_VS (R159): Shifts each element right by a scalar. -/
  | vshrVs (d a : BitVec 4) (q : Src) (rm : BitVec 3)
  /-- VCMP_VS (R159): Compares each element with a broadcast scalar. -/
  | vcmpVs (d a : BitVec 4) (q : Src) (rm : BitVec 3) (k : Cond)
  /-- VCVT (R161): Converts each element between float and integer types. -/
  | vcvt (d a : BitVec 4) (rm : RMode)
  /-- VQUANT (R162): Quantises a float shape into MX blocks with one scale code per block. -/
  | vquant (d a b : BitVec 4) (sr : Bool)
  /-- VDEQ (R163): Dequantises MX blocks into a float shape. -/
  | vdeq (d a b : BitVec 4) (rm : RMode)
  /-- VEXP2 (R164): Applies 2^x to each element. -/
  | vexp2 (d a : BitVec 4) (rm : RMode)
  /-- VLOG2 (R164): Applies log2 to each element. -/
  | vlog2 (d a : BitVec 4) (rm : RMode)
  /-- VRCP (R164): Applies the reciprocal to each element. -/
  | vrcp (d a : BitVec 4) (rm : RMode)
  /-- VRSQRT (R164): Applies the reciprocal square root to each element. -/
  | vrsqrt (d a : BitVec 4) (rm : RMode)
  /-- VTANH (R164): Applies tanh to each element. -/
  | vtanh (d a : BitVec 4) (rm : RMode)
  /-- VRSUM (R165): Sums a shape in the fixed order of Table 2-11. -/
  | vrsum (d a : BitVec 4) (rm : RMode)
  /-- VRMAX (R165): Takes the maximum of a shape. -/
  | vrmax (d a : BitVec 4) (rm : RMode)
  /-- VAMAX (R165): Takes the maximum absolute value of a shape. -/
  | vamax (d a : BitVec 4) (rm : RMode)
  /-- VSCAN (R165): Writes prefix sums of a shape. -/
  | vscan (d a : BitVec 4) (rm : RMode)
  /-- VGATHER (R166): Gathers elements from scratchpad offsets or global addresses. -/
  | vgather (d a : BitVec 4) (rm : BitVec 3)
  /-- VSCATTER (R166): Scatters elements to scratchpad offsets or global addresses. -/
  | vscatter (a b : BitVec 4) (rm : BitVec 3)
  /-- VCOPY (R167): Copies the bits of each element between equal-width types. -/
  | vcopy (d a : BitVec 4) (rm : BitVec 3)
  /-- SHSET (R167): Writes a 64-bit value to a shape register. -/
  | shset (d : BitVec 4) (q : Src) (rm : BitVec 3)
  /-- VFILL (R167): Writes a scalar to every element of a shape. -/
  | vfill (d : BitVec 4) (q : Src) (rm : RMode)
  /-- VIOTA (R167): Writes q plus j to element j. -/
  | viota (d : BitVec 4) (q : Src) (rm : BitVec 3)
  /-- VCHAIN (R168): Runs the next n vsec steps element by element as one chain. -/
  | vchain (n : BitVec 3)
  /-- VBULK (R164): Runs a transcendental function on the S0 bulk unit. -/
  | vbulk (d a : BitVec 4) (rm : RMode) (f : Trans)
  /-- VRUN (R169): Starts a vsec micro-program at its entry, capturing s0-s31. -/
  | vrun (e : BitVec 12)
  /-- VEND (R169): Ends a vsec micro-program. -/
  | vend
  /-- XCOPY (R189): Copies l bytes from the source to the destination address. -/
  | xcopy (ch : BitVec 3) (a : Src)
  /-- XTILE (R189): Copies r runs of l bytes with run strides. -/
  | xtile (ch : BitVec 3) (a b : Src)
  /-- XMETA (R194): Appends one entry to an array's sparsity queue, waiting while it is full. -/
  | xmeta (ch : BitVec 3) (a b : Src)
  /-- XGATHER (R193): Gathers m elements through 8-byte indices. -/
  | xgather (ch : BitVec 3) (a b : Src)
  /-- XFILL (R189): Fills l destination bytes with a 64-bit pattern. -/
  | xfill (ch : BitVec 3) (a b : Src)
  /-- XRED (R192): Reduces source elements into the destination, each applied atomically at its home. -/
  | xred (ch : BitVec 3) (a b : Src)
  /-- XSIG (R195): Writes b plus L, with the FAIL bit, to a signal word as a release. -/
  | xsig (ch : BitVec 3) (a b : Src) (sc : Scope)
  /-- XBAR (R195): Posts b bytes to a stage barrier as a release and waits for the home's reply. -/
  | xbar (ch : BitVec 3) (a b : Src) (sc : Scope)
  /-- XWRAP (R195): Moves a level's ring origin. -/
  | xwrap (ch : BitVec 3) (a b : Src)
  /-- XRCNT (R195): Sets the channel's expected read count for later fills. -/
  | xrcnt (ch : BitVec 3) (a : Src)
  /-- XJOB (R202): Runs the single job card at a. -/
  | xjob (ch : BitVec 3) (a : Src)
  /-- XFOOT (R197): Declares a footprint for the channel's next macro entry. -/
  | xfoot (ch : BitVec 3) (a b : Src)
  /-- XCHAIN (R200): Starts walking a chain of job cards from its head card, with an optional sequence word. -/
  | xchain (ch : BitVec 3) (a b : Src) (sc : Scope)
  /-- XRUN (R203): Starts an xsec micro-program on a channel, once per innermost nest iteration. -/
  | xrun (ch : BitVec 3) (e : BitVec 12)
  /-- XEND (R203): Ends an xsec body. -/
  | xend
  /-- MMA (R178): Pops a format word and adds A times B into an accumulator tile, block by block. -/
  | mma (d a b : BitVec 4) (m : BitVec 2) (q : BitVec 7)
  /-- MMAS (R178): As MMA with 2:4 sparse A, popping a sparsity entry per block. -/
  | mmas (d a b : BitVec 4) (m : BitVec 2) (q : BitVec 7)
  /-- MZERO (R181): Sets an accumulator tile to +0. -/
  | mzero (d : BitVec 4) (q : BitVec 7)
  /-- MNARROW (R181): Converts an accumulator into a tile under the tensor scales of a popped format word. -/
  | mnarrow (d a : BitVec 4) (q : BitVec 7)
  /-- MTRANS (R181): Transposes a tile. -/
  | mtrans (d a : BitVec 4) (q : BitVec 7)
  /-- MOWN (R173): Asks the CP for an array for slot n and waits for its reply. -/
  | mown (n : BitVec 4) (q : Src)
  /-- MREL (R173): Returns the array held in slot n. -/
  | mrel (n : BitVec 4) (q : Src)
  /-- MSYNC (R182): Waits until every earlier ME step has retired on every owned array. -/
  | msync (q : BitVec 7)
  /-- MRUN (R183): Starts an msec micro-program for each innermost iteration of the ME nest. -/
  | mrun (e : BitVec 12)
  /-- MEND (R183): Ends an msec body. -/
  | mend
  /-- HLD (R208): Loads a hypervector from 512 bytes. -/
  | hld (d : BitVec 4) (base : BitVec 5) (off : BitVec 13) (sp : Bool)
  /-- HST (R208): Stores a hypervector to 512 bytes. -/
  | hst (d : BitVec 4) (base : BitVec 5) (off : BitVec 13) (sp : Bool)
  /-- HXOR (R209): XORs two hypervectors. -/
  | hxor (d a b : BitVec 4)
  /-- HROT (R209): Rotates a hypervector by a scalar amount. -/
  | hrot (d a : BitVec 4) (q : Src)
  /-- HROT_IMM (R209): Rotates a hypervector by imm12. -/
  | hrotImm (d a : BitVec 4) (imm : BitVec 12)
  /-- HACC (R210): Adds a signed weight into every counter of a bundle accumulator with saturation. -/
  | hacc (d : BitVec 2) (a : BitVec 4) (q : Src)
  /-- HTHR (R211): Thresholds a bundle accumulator into a hypervector, breaking ties with TIES. -/
  | hthr (d : BitVec 4) (a : BitVec 2)
  /-- HCLR (R209): Clears a hypervector. -/
  | hclr (d : BitVec 4)
  /-- HPOP (R209): Writes the popcount of the XOR of two hypervectors to a scalar register. -/
  | hpop (d : BitVec 5) (a b : BitVec 4)
  /-- HRND (R212): Expands a seed into a hypervector. -/
  | hrnd (d : BitVec 4) (q : Src)
  /-- HTIE (R209): Sets TIES from a hypervector. -/
  | htie (a : BitVec 4)
  /-- HTIE_SEED (R209): Sets TIES from an expanded seed. -/
  | htieSeed (q : Src)
  /-- HTIE_ZERO (R209): Clears TIES. -/
  | htieZero
  /-- HCLR_W4 (R209): Clears a bundle accumulator and sets 4-bit counters. -/
  | hclrW4 (d : BitVec 2)
  /-- HCLR_W8 (R209): Clears a bundle accumulator and sets 8-bit counters. -/
  | hclrW8 (d : BitVec 2)
  /-- HAMW (R214): Writes a hypervector to an associative-memory entry and sets its valid bit. -/
  | hamw (a : BitVec 4) (q : Src)
  /-- HAMQ (R215): Searches the partition for the nearest valid entry within a limit. -/
  | hamq (d : BitVec 5) (a : BitVec 4) (q : Src)
  /-- HAMK (R216): Writes the K nearest valid entries as records to scratchpad. -/
  | hamk (a : BitVec 4) (q : Src)
  /-- HAMD (R214): Clears the valid bit of an entry. -/
  | hamd (q : Src)
  /-- WMARM (R196): Arms a channel's watermark over a scratchpad range. -/
  | wmarm (a : Src)
  /-- FSTAT (R66): Writing ones clears sticky floating-point flags. -/
  | fstat (a : Src)
  /-- RNGS (R63): Writes a generator state, storing 1 for 0, after the engine stall. -/
  | rngs (u : Conv) (a : Src)
  /-- TIESW (R229): Writes 64 TIES bits once the HU is idle. -/
  | tiesw (k : BitVec 6) (a : Src)
  /-- CH_ORG (R186): Writes a channel's ring origins once the channel is idle. -/
  | chOrg (ch : BitVec 3) (a : Src)
  /-- BUNDLE_ISSUE (R20): The CC decodes the next bundle and issues it whole once every issue condition holds. -/
  | bundleIssue (n : Nat)
  /-- LOAD_COMPLETION (R27): A load's value arrives and is written to its register, and ld falls. -/
  | loadCompletion (n k : Nat)
  /-- WRITE_PERFORMED (R27): A store, atomic or HU write is performed at its effective scope, and st falls. -/
  | writePerformed (n k : Nat)
  /-- MACRO_ENTRY_COMPLETION (R27): An engine or channel macro entry completes, and cp or tl falls. -/
  | macroEntryCompletion (n : Nat) (u : Unit8)
  /-- CR_RELEASE (R29): A waiting CR reaches its effective release and joins the tail of its queue. -/
  | crRelease (k : Nat)
  /-- CR_POP (R294): An idle core pops the poppable CR that stands first, enters the start state and loads the kernel. -/
  | crPop (n : Nat)
  /-- JOIN_APPLY (R34): A join reaches the home of its block and decrements COUNT, enqueuing the successor at zero. -/
  | joinApply (k : Nat)
  /-- DEADLINE_PASSED (R37): FRAME_CLK passes a running frame CR's absolute deadline, holding later CRs of its frame. -/
  | deadlinePassed (n : Nat)
  /-- CR_AGING (R293): Each aging step raises a queued CR's effective priority by one, up to the ceiling. -/
  | crAging (k : Nat)
  /-- PREEMPTION (R295): The CP pre-empts a lower-priority CR that has run long enough, saving its context. -/
  | preemption (n : Nat)
  /-- WAIT_LIMIT (R143): A wait's cycle limit expires without its condition and the core raises WAIT_LIMIT. -/
  | waitLimit (n : Nat)
  /-- WAIT_REREAD (R273): An unsatisfied wait reads its word again after a local write or at least every 16 cycles. -/
  | waitReread (n : Nat)
  /-- FREEZE (R368): A called-for freeze takes effect once every unstoppable operation has completed, and every sequencer stops. -/
  | freeze (n : Nat)
  /-- TRAP_DELIVERY (R311): When a context slot is free, the CP saves the trapped CR and starts the region's trap continuation. -/
  | trapDelivery (n : Nat)
  /-- PAGE_FAULT_SAVE (R318): A page fault unresolved after 12,000 cycles saves the context and holds the CR aside. -/
  | pageFaultSave (n : Nat)
  /-- RESOLVE (R317): The driver's RESOLVE walks again for the tag's waiting accesses and resumes or requeues the CR. -/
  | resolve (tag : Nat)
  /-- REQUEST_TIMEOUT (R321): RSPLIM passes with no reply, the tag's generation advances and the failure is reported or the read retried. -/
  | requestTimeout (n k : Nat)
  /-- LATE_DROP (R321): A reply whose tag or generation does not match is dropped and counted. -/
  | lateDrop (n : Nat) (tag gen : Nat)
  /-- ERR (R337): An error response reaches the requester, which holds the report until the deadline is spent. -/
  | err (n k : Nat) (e : FailCause)
  /-- DELAYED_FAILURE_REPORT (R337): RSPLIM/2 after issue, a request that received ERR is reported under R321. -/
  | delayedFailureReport (n k : Nat)
  /-- DATA_POISON (R319): A read meets an uncorrectable error or poisoned data and the reader's fault domain fails. -/
  | dataPoison (n k : Nat)
  /-- RS (R259): A read-share request reaches a tile's home and is served by Table 12-3. -/
  | rs (k : Nat)
  /-- RX (R259): A read-exclusive request reaches a tile's home. -/
  | rx (k : Nat)
  /-- UP (R259): An upgrade request reaches a tile's home. -/
  | up (k : Nat)
  /-- GR (R251): A global read of a window location is served at the home. -/
  | gr (k : Nat)
  /-- GW (R251): A global write or atomic to a window location is applied at the home after recalls. -/
  | gw (k : Nat)
  /-- EM (R259): An owner's notice of E becoming M reaches the home. -/
  | em (k : Nat)
  /-- DROP (R259): A core's drop of a tile, with any write-back, reaches the home. -/
  | drop (k : Nat)
  /-- FLUSH (R259): A core's flush write-back reaches the home. -/
  | flush (k : Nat)
  /-- FWD (R260): A forward reaches an owning core, which sends data and keeps or downgrades its copy. -/
  | fwd (k : Nat)
  /-- FWD_INV (R260): A forward-invalidate reaches an owner, which sends data and goes to I. -/
  | fwdInv (k : Nat)
  /-- INV (R260): An invalidation reaches a core, which drops its copy and acknowledges. -/
  | inv (k : Nat)
  /-- RECALL (R260): A recall reaches an owner, which sends the tile to the home and goes to I. -/
  | recall (k : Nat)
  /-- DATA (R260): Data arrives at a waiting core and serves the accesses waiting for it. -/
  | data (k : Nat)
  /-- ACK (R259): An acknowledgement reaches a busy home entry and lowers ACKS. -/
  | ack (k : Nat)
  /-- GONE (R260): A core that has dropped a tile answers a forward with GONE and the home serves from write-back data. -/
  | gone (k : Nat)
  /-- BI (R264): A back-invalidation reaches a replicating package and every local copy goes to I. -/
  | bi (tile : Nat)
  /-- BI_D (R264): A back-invalidation that returns dirty data reaches a holder in X. -/
  | biD (tile : Nat)
  /-- REMOTE_READ (R264): A read from another package reaches the home package and records it in mode S. -/
  | remoteRead (dev tile : Nat)
  /-- REMOTE_EXCLUSIVE (R264): An exclusive request from another package back-invalidates other holders and grants X. -/
  | remoteExclusive (dev tile : Nat)
  /-- REPLICA_DROP (R264): A package's notice or write-back dropping its replica reaches the home. -/
  | replicaDrop (dev tile : Nat) (data : List (Nat × Byte))
  /-- BI_TIMEOUT (R265): A holder that does not acknowledge a BI in time is removed and the line or tile poisoned. -/
  | biTimeout (dev tile : Nat)
  /-- LINE_MIGRATION (R254): A line moves to the nearest slice of a core that has made 8 consecutive accesses. -/
  | lineMigration (line : Nat)
  /-- SBAR_HOME_STEP (R145): A barrier home applies the arrivals and byte posts of one cycle and advances PHASE at most once. -/
  | sbarHomeStep (pa : Nat)
  /-- JOB_CARD (R199): A channel reads, checks and runs a published job card: wait, copy, post and sequence write. -/
  | jobCard (n : Nat) (ch : BitVec 3)
  /-- INIT (R326): Mailbox command that names the page-fault queue and enables region commands. -/
  | init
  /-- CREATE (R291): Mailbox command that checks an RCB and creates an ACTIVE region. -/
  | create
  /-- DESTROY (R291): Mailbox command that drains a region and its descendants. -/
  | destroy
  /-- QOPEN (R285): Mailbox command that opens a launch queue and returns its number. -/
  | qopen
  /-- QCLOSE (R326): Mailbox command that closes a launch queue once its published launches complete. -/
  | qclose
  /-- SHOOT (R316): Mailbox command that drops translations and, with WB, writes back and drops every copy. -/
  | shoot
  /-- MEMWR (R326): Mailbox command that writes MBX_DATA to physical memory at POD. -/
  | memwr
  /-- MEMRD (R326): Mailbox command that reads physical memory into MBX_DATA. -/
  | memrd
  /-- ATTEST (R323): Mailbox command that returns a doubly signed attestation report. -/
  | attest
  /-- REC_CHUNK (R324): Recovery command that copies MBX_DATA into the image buffer. -/
  | recChunk
  /-- REC_BOOT (R324): Recovery command that verifies and starts the pushed image. -/
  | recBoot
  /-- ENETQ (R353): Mailbox command that binds or unbinds an Ethernet queue to a region. -/
  | enetq
  /-- MAILBOX_REPLY (R326): A command's awaited condition holds; CODE is written, BUSY clears and vector 0 fires. -/
  | mailboxReply
  /-- QTAIL (R286): The host's tail doorbell sets TAIL of a launch queue, publishing launches. -/
  | qtail (q : Nat) (v : Word)
  /-- FDOMF (R319): Writing ones clears failed-domain bits. -/
  | fdomf (k : Nat) (v : Word)
  /-- MBX_STAT (R326): Writing one clears the OVR bit. -/
  | mbxStat (v : Word)
  /-- CLEAR (R298): The CLEAR bit of PRED_CTL invalidates every predictor entry and resets NEXTW. -/
  | clear
  /-- FAB_ID (R345): Sets the device number, the default port wiring and CORE_ID.DEVICE. -/
  | fabId (v : Word)
  /-- TOKEN_MOVE (R349): Starts handing the arbitration token to the other CP. -/
  | tokenMove
  /-- TOKEN_OFFER (R349): The holder's OFFER reaches the other CP, which answers ACCEPT. -/
  | tokenOffer
  /-- TOKEN_ACCEPT (R349): ACCEPT reaches the holder, which drops the token as it sends COMMIT. -/
  | tokenAccept
  /-- TOKEN_COMMIT (R349): COMMIT reaches the other CP, which then holds the token. -/
  | tokenCommit
  /-- RECONF (R347): Moves a port to DRAINING out of the live route sets before a circuit-switch move. -/
  | reconf (p : Nat)
  /-- RELOCK (R338): Sends a DARK, DOWN or QUARANTINE port, or a FAILED lane, to TRAIN. -/
  | relock (p : Nat)
  /-- EN (R338): Writing PORT_CTL.EN enables a port, or sends it to DOWN when cleared. -/
  | en (p : Nat) (on : Bool)
  /-- PCLR (R363): Sets TPEAK to TEMP. -/
  | pclr (die : Nat)
  /-- CLR (R363): Resets VMIN and DROOPS. -/
  | clr (die : Nat)
  /-- REGISTER_WRITE (R14): A host write to a BAR0 register with no row of its own, under its access codes. -/
  | registerWrite (off : Nat) (v : Word)
  /-- LAUNCH_QUEUE_POINT (R286): A launch reaches its queue point: record read, predictor trained and queried, claim attempted or CR enqueued. -/
  | launchQueuePoint (q : Nat)
  /-- UNDERCOAT_START (R299): On a predictor hit with an eligible idle core, the CP starts an undercoat launch. -/
  | undercoatStart (q : Nat)
  /-- UNDERCOAT_DISCARD (R301): An undercoat launch meets a discard event and its dust pages and registrations are freed. -/
  | undercoatDiscard (n : Nat)
  /-- CHALK_LINE_WRITE (R244): The trace unit writes a complete 64-byte line of packets and then the slice header. -/
  | chalkLineWrite (n : Nat)
  /-- NULL (R330): A NULL flit delivers its ACK and allowances. -/
  | null (p : Nat) (f : Flit)
  /-- SLOTS (R335): A SLOTS flit is accepted if intact and in sequence, or discarded with a NAK. -/
  | slots (p : Nat) (f : Flit)
  /-- LINE (R331): A LINE flit carrying a masked line is accepted or discarded as for SLOTS. -/
  | line (p : Nat) (f : Flit)
  /-- NAK (R335): A NAK reaches the sender, which resends every unacknowledged flit from the named number. -/
  | nak (p : Nat) (f : Flit)
  /-- DRAIN (R338): A DRAIN flit marks the end of a channel's traffic on a draining port. -/
  | drain (p : Nat) (f : Flit)
  /-- IDENT (R338): An IDENT flit is checked against PORT_PEER, giving ACTIVE, DEGRADED or QUARANTINE. -/
  | ident (p : Nat) (f : Flit)
  /-- STRIPE (R339): A STRIPE flit changes the active lane set of a port. -/
  | stripe (p : Nat) (f : Flit)
  /-- RD (R332): A read request message reaches its home. -/
  | rd (k : Nat)
  /-- WR (R332): A write request with slot data reaches its home. -/
  | wr (k : Nat)
  /-- LWR (R332): A masked line write reaches its home. -/
  | lwr (k : Nat)
  /-- CPMSG (R332): A CP control message reaches its destination. -/
  | cpmsg (k : Nat)
  /-- ACK_TIMER (R335): Within 64 cycles of accepting flits a receiver sends an ACK, in a NULL flit if need be. -/
  | ackTimer (p : Nat)
  /-- LINK_RETRAIN (R336): A flit sent 16 times, or 60,000 cycles without ACK progress, sends the port to TRAIN keeping its buffer. -/
  | linkRetrain (p : Nat)
  /-- REPLAY_BUFFER_DISCARD (R336): Without re-identifying within 600,000 cycles, the port discards its buffer, returning DEAD_LINK errors. -/
  | replayBufferDiscard (p : Nat)
  /-- SIGNAL_DETECT (R338): Light or signal on a lane of an enabled DOWN port starts TRAIN. -/
  | signalDetect (p lane : Nat)
  /-- LANE_LOCK (R338): A lane locks during TRAIN and the port moves to IDENT. -/
  | laneLock (p lane : Nat)
  /-- TRAIN_TIMEOUT (R338): No lane locks within 600,000 cycles and the port goes DOWN. -/
  | trainTimeout (p : Nat)
  /-- DARK_TIMEOUT (R338): DARKLIM expires and the port goes DOWN, discarding allowances. -/
  | darkTimeout (p : Nat)
  /-- BER_WINDOW (R339): A BER window closes and moves a lane to LEAVING, JOINING or back to TRAIN. -/
  | berWindow (p lane errs : Nat)
  /-- LOSS_OF_LIGHT (R339): A lane loses light; it goes DARK, the port restripes and replays. -/
  | lossOfLight (p lane : Nat)
  /-- LASER_FAULT (R334): A laser pluggable fails and four wavelengths of each of its eight ports go DARK in one cycle. -/
  | laserFault (k : Nat)
  /-- EQUALISER_CONVERGED (R339): A training lane's equaliser converges and the lane moves to PROVE. -/
  | equaliserConverged (p lane : Nat)
  /-- EQUALISER_TIMEOUT (R339): A lane fails to converge within 2 ms and counts an attempt, or goes FAILED after eight. -/
  | equaliserTimeout (p lane : Nat)
  /-- LIGHT_PRESENT (R339): Light present for 1 ms on a DARK lane starts its training. -/
  | lightPresent (p lane : Nat)
  /-- DACK (R343): A DACK reaches the source and releases messages held after a route change. -/
  | dack (src vc seq : Nat)
  /-- ROUTE_HOLD_TIMEOUT (R343): RSPLIM/2 passes and releases messages held after a route change. -/
  | routeHoldTimeout (dst vc : Nat)
  /-- GLOBAL_PORT_ANNOUNCE (R346): A group peer's announcement of a global port change updates the live candidate sets. -/
  | globalPortAnnounce (pos : Nat) (up : Word)
  /-- HOLD_END (R359): A message held at its source under R347 is routed or refused when its hold ends. -/
  | holdEnd (n k : Nat)
  /-- CP_REACHABILITY_CHECK (R348): Every 1,000 cycles each CP checks that it can reach the other CP. -/
  | cpReachabilityCheck
  /-- PACKAGE_SPLIT (R348): After 6,000 cycles of separation the package splits by the token and every region fails. -/
  | packageSplit
  /-- ETH_TX_POLL (R354): A port reads a transmit queue's TAIL and sends each published frame in ring order. -/
  | ethTxPoll (x q : Nat)
  /-- ETH_RX_FRAME (R355): An arriving frame is steered to a receive queue, written and completed, held or dropped. -/
  | ethRxFrame (x : Nat) (fcsOk : Bool) (frame : List Byte)
  /-- ETH_HELD_FRAME_DELIVERY (R355): A frame held under flow control is written once a descriptor is published. -/
  | ethHeldFrameDelivery (x : Nat)
  /-- ETH_PAUSE (R354): A received pause for a priority holds the transmit queues of that priority. -/
  | ethPause (x prio : Nat) (on : Bool)
  /-- ETH_LINK_CHANGE (R357): An Ethernet port's link goes up or down and a device event is posted. -/
  | ethLinkChange (x : Nat) (up : Bool)
  /-- POWER_ON_RESET (R322): The boot ROM tests the dies, verifies and starts the signed firmware, or enters recovery. -/
  | powerOnReset
  /-- FUNCTION_LEVEL_RESET (R322): A PCIe function-level reset restarts the boot ROM. -/
  | functionLevelReset
  /-- THROTTLE_EVALUATION (R364): Every 6,000 cycles the device raises or lowers its throttle step. -/
  | throttleEvaluation
  /-- DROOP (R365): A droop detector fires and stretches the package's compute clock for 16 cycles. -/
  | droop (die : Nat)
  /-- TCRIT (R366): A die at 110 °C for 600,000 cycles stops every compute clock and the device becomes fatal. -/
  | tcrit (die : Nat)
  /-- DIE_LINK_MODULE_FAILURE (R3): A UCIe module of a die link fails, degrading the link or, when it was the last module, cutting it off and switching routes. -/
  | dieLinkModuleFailure (l : Nat)
  /-- SEARCH_COMPLETION (R278): An associative-memory search completes 40 cycles after its last pass and writes its result register or HAMK records. -/
  | searchCompletion (n : Nat)
  /-- WQUERY_REPLY (R226): The home's reply to a WQUERY arrives and writes the tile-state snapshot to the pending destination register. -/
  | wqueryReply (n k : Nat)
  /-- ETH_TX_COMPLETION (R354): A frame finishes leaving the wire, and the port writes its completion record and advances HEAD as a release at POD. -/
  | ethTxCompletion (x q : Nat)
  /-- DACK_RETURN (R343): Within 1 µs, a device returns a DACK for the highest message of each (source, VC) that it has received. -/
  | dackReturn (src vc seq : Nat)
  /-- MONITOR_SAMPLE (R363): Every 1,024 cycles the die monitors sample TEMP, voltage and ring oscillators, updating TPEAK, VMIN and ROSC. -/
  | monitorSample (die temp volt rosc : Nat) (pwr : Nat)
  /-- POWER_LOSS (R323): Power is lost, leaving the device unpowered, wasting an LMS leaf mid-signature and invalidating a flash slot mid-write. -/
  | powerLoss
  deriving DecidableEq, Repr

end Sys2Proof
end

