-- ==== Sys2Proof/WellFormed.lean ====
section
/-! DEFINITION. Which terms of `Instr` stand for a word that the K4 accepts, or for an event of an object that the
machine has (R97-R102, R112-R120). -/

namespace Sys2Proof

/-- An integer-class source: any register, or entry 0-39 of Table 4-3 (R99). -/
def Src.isInt : Src → Bool
  | .reg _ => true
  | .const k => k.toNat < 40

/-- The numbers of Table 10-7, with the trap registers of Table 18-3 and the trace controls of Table 11-6. -/
def sysRegExists (n : Nat) : Bool :=
  n ≤ 0x008 || n == 0x010 || n == 0x011 || (0x018 ≤ n && n ≤ 0x01D) || (0x020 ≤ n && n ≤ 0x02F)
    || (0x040 ≤ n && n ≤ 0x048)
    || (0x080 ≤ n && n ≤ 0x17F &&
        (n % 0x20 ≤ 5 || (8 ≤ n % 0x20 && n % 0x20 ≤ 0x0D) || (0x10 ≤ n % 0x20 && n % 0x20 ≤ 0x15)))
    || (0x180 ≤ n && n ≤ 0x1BF) || (0x200 ≤ n && n ≤ 0x220) || (0x300 ≤ n && n ≤ 0x303)

/-- The system registers whose SWR has a row of its own: FSTAT, RNGS, WMARM, CHn_ORG, TIESW. -/
def sysRegOwnRow (n : Nat) : Bool :=
  n == 0x002 || (0x005 ≤ n && n ≤ 0x007) || n == 0x048
    || (0x080 ≤ n && n ≤ 0x17F && n % 0x20 == 0x13) || (0x180 ≤ n && n ≤ 0x1BF)

/-- The q field of an XM word with a remote operand names an integer-class source; with m = 0b00 it is
ignored (R98, R112). -/
def remoteQ (m : BitVec 2) (q : BitVec 7) : Bool :=
  m.toNat == 0 || q.toNat < 0x20 || (0x40 ≤ q.toNat && q.toNat < 0x68)

/-- `i` is an instruction: every operand is one that its encoding admits (R99, R102, R112-R120); an event names a
core, die, port or lane that exists (Tables 1-1, 19-1). -/
def Instr.wf : Instr → Bool
  | .add _ a b | .sub _ a b | .mul _ a b | .mulh _ a b | .mulhU _ a b | .div _ a b | .divU _ a b | .rem _ a b
  | .remU _ a b | .and _ a b | .or _ a b | .xor _ a b | .andn _ a b | .shl _ a b | .shr _ a b | .sra _ a b
  | .rot _ a b | .min _ a b | .minU _ a b | .max _ a b | .maxU _ a b => a.isInt && b.isInt
  | .clz _ a | .popc _ a => a.isInt
  | .sel _ a b _ => a.isInt && b.isInt
  | .cmp _ a b _ => a.isInt && b.isInt
  | .fcvtF32I64 _ a _ | .fcvtF32Bf16 _ a | .fcvtF32Fp16 _ a | .fcvtF32E4m3 _ a | .fcvtF32E5m2 _ a => a.isInt
  | .amoAdd _ a b _ _ | .amoAnd _ a b _ _ | .amoOr _ a b _ _ | .amoXor _ a b _ _ | .amoSwap _ a b _ _
  | .cas _ a b _ _ => a.isInt && b.isInt
  | .amoMin _ a b _ _ _ | .amoMax _ a b _ _ _ => a.isInt && b.isInt
  | .waita _ a b _ => a.isInt && b.isInt
  | .waitq _ a b | .sbarv _ a b | .sbwait _ a b | .fget _ a b | .wdecl _ a b | .wquery _ a b | .dhop _ a b
  | .vdie _ a b => a.isInt && b.isInt
  | .ffill a b | .fqpush a b | .chtail a b | .brx a b | .tlbinv a b | .trc a b => a.isInt && b.isInt
  | .spawn a | .join a | .wclose a | .wflush a | .jmp a | .trap a => a.isInt
  | .srd _ n => sysRegExists n.toNat
  | .swr a n => a.isInt && sysRegExists n.toNat && !sysRegOwnRow n.toNat
  | .wmarm a | .fstat a | .rngs _ a | .tiesw _ a | .chOrg _ a => a.isInt
  | .waitc m _ => m.toNat ≠ 0
  | .shlImm _ a _ | .shrImm _ a _ | .sraImm _ a _ | .rotImm _ a _ => a.isInt
  | .addImm _ a _ | .andImm _ a _ | .orImm _ a _ | .xorImm _ a _ | .lea _ a _ => a.isInt
  | .addLong _ a _ | .andLong _ a _ | .orLong _ a _ | .xorLong _ a _ | .leaLong _ a _ => a.isInt
  | .bfx _ a w p | .bfi _ a w p => a.isInt && w.toNat + 1 + p.toNat ≤ 64
  | .cmpImm _ _ a _ => a.isInt
  | .cmpLong _ _ a _ => a.isInt
  | .shset _ q _ => q.isInt
  | .xcopy _ a | .xrcnt _ a | .xjob _ a => a.isInt
  | .xtile _ a b | .xmeta _ a b | .xgather _ a b | .xfill _ a b | .xred _ a b | .xwrap _ a b | .xfoot _ a b =>
    a.isInt && b.isInt
  | .xsig _ a b _ | .xbar _ a b _ | .xchain _ a b _ => a.isInt && b.isInt
  | .mma _ _ _ m q | .mmas _ _ _ m q => remoteQ m q
  | .mown n q | .mrel n q => 1 ≤ n.toNat && n.toNat ≤ 3 && q.isInt
  | .hrot _ _ q | .hacc _ _ q | .hrnd _ q | .hamw _ q | .hamq _ _ q | .hamk _ q => q.isInt
  | .htieSeed q | .hamd q => q.isInt
  | .bundleIssue n | .crPop n | .deadlinePassed n | .preemption n | .waitLimit n | .waitReread n | .freeze n
  | .trapDelivery n | .pageFaultSave n | .chalkLineWrite n | .searchCompletion n => n < 88
  | .loadCompletion n _ | .writePerformed n _ | .macroEntryCompletion n _ | .requestTimeout n _ | .lateDrop n _ _
  | .err n _ _ | .delayedFailureReport n _ | .dataPoison n _ | .holdEnd n _ | .wqueryReply n _ => n < 88
  | .jobCard n _ => n < 88
  | .sbarHomeStep pa => pa < 2 ^ 56
  | .null p _ | .slots p _ | .line p _ | .nak p _ | .drain p _ | .ident p _ | .stripe p _ => p < 95
  | .reconf p | .relock p | .ackTimer p | .linkRetrain p | .replayBufferDiscard p | .trainTimeout p
  | .darkTimeout p => p < 95
  | .en p _ => p < 95
  | .signalDetect p l | .laneLock p l | .lossOfLight p l | .equaliserConverged p l | .equaliserTimeout p l
  | .lightPresent p l => p < 95 && l < 16
  | .berWindow p l _ => p < 95 && l < 16
  | .ethTxPoll x q | .ethTxCompletion x q => x < 2 && q < 64
  | .ethRxFrame x _ _ | .ethHeldFrameDelivery x | .ethLinkChange x _ => x < 2
  | .ethPause x p _ => x < 2 && p < 8
  | .pclr d | .clr d | .droop d | .tcrit d => d < 21
  | .monitorSample d _ _ _ _ => d < 21
  | .dieLinkModuleFailure l => l < 14
  | _ => true

end Sys2Proof
end

