-- ==== Sys2Proof/Decode.lean ====
section
/-! DEFINITION. The decoder of every slot and code section, total on any word (R96-R120), and after it the
encoder, written from the same tables. -/

namespace Sys2Proof

/-- Why a word is no instruction (Table 4-7): the illegal-instruction or the illegal-operand fault. -/
inductive DecErr
  | insn | operand
  deriving DecidableEq, Repr

/-- The slots and code sections, each with a map of its own (R112). -/
inductive Sect
  | s | v | x | h | vsec | xsec | msec
  deriving DecidableEq, Repr

/-- What a word decodes to. -/
abbrev Dec := Except DecErr Instr

namespace Dec

/-- An instruction rule (R112): checked before every operand rule of the word (R97). -/
def need (c : Bool) (d : Dec) : Dec := if c then d else .error .insn

/-- An operand rule (R99, R102). -/
def needOp (c : Bool) (d : Dec) : Dec := if c then d else .error .operand

/-- A source field of an integer instruction (R99): registers and entries 0-39. -/
def isrc (f : Nat) (k : Src → Dec) : Dec :=
  if f < 0x20 then k (.reg (BitVec.ofNat 5 f))
  else if f < 0x40 then .error .operand
  else if f < 0x68 then k (.const (BitVec.ofNat 6 (f - 0x40)))
  else .error .operand

/-- A source field in which every entry of Table 4-3 is legal (R99, R157). -/
def fsrc (f : Nat) (k : Src → Dec) : Dec :=
  if f < 0x20 then k (.reg (BitVec.ofNat 5 f))
  else if f < 0x40 then .error .operand
  else k (.const (BitVec.ofNat 6 (f - 0x40)))

/-- A rounding-mode code that rounds (Table 2-6); 0b101-0b111 are reserved (R59). -/
def rmode (f : Nat) (k : RMode → Dec) : Dec :=
  match f with
  | 0 => k .rne
  | 1 => k .rz
  | 2 => k .ru
  | 3 => k .rd
  | 4 => k .sr
  | _ => .error .insn

/-- A scope code of Table 3-2. -/
def scope (f : Nat) (k : Scope → Dec) : Dec :=
  match f with
  | 0 => k .core
  | 1 => k .die
  | 2 => k .pkg
  | 3 => k .pod
  | _ => .error .insn

/-- A condition code, CMP column of Table 5-4. -/
def cond (f : Nat) (k : Cond → Dec) : Dec :=
  match f with
  | 0 => k .eq
  | 1 => k .ne
  | 2 => k .lt
  | 3 => k .ge
  | 4 => k .ltu
  | 5 => k .geu
  | 6 => k .tst
  | 7 => k .ntst
  | _ => .error .insn

/-- A condition code, FCMP column of Table 5-4. -/
def fcond (f : Nat) (k : FCond → Dec) : Dec :=
  match f with
  | 0 => k .eq
  | 1 => k .ne
  | 2 => k .lt
  | 3 => k .ge
  | 4 => k .le
  | 5 => k .gt
  | 6 => k .un
  | 7 => k .ord
  | _ => .error .insn

/-- A transcendental function: fn 0x08-0x0C of opcodes 0x03 and 0x08 (Table 5-7). -/
def trans (f : Nat) (k : Trans → Dec) : Dec :=
  match f with
  | 0x08 => k .exp2
  | 0x09 => k .log2
  | 0x0A => k .rcp
  | 0x0B => k .rsqrt
  | 0x0C => k .tanh
  | _ => .error .insn

/-- A five-bit field that names a hypervector (Table 4-4). -/
def hv5 (f : Nat) (k : BitVec 4 → Dec) : Dec := needOp (f < 16) (k (BitVec.ofNat 4 f))

/-- A field that names a bundle accumulator: any upper bit set is outside the class (Table 4-4). -/
def ba (f : Nat) (k : BitVec 2 → Dec) : Dec := needOp (f < 4) (k (BitVec.ofNat 2 f))

/-- A five-bit field that names a predicate (Table 4-4). -/
def preg (f : Nat) (k : BitVec 3 → Dec) : Dec := needOp (f < 8) (k (BitVec.ofNat 3 f))

/-- Field d of formats R, I, M, H, HI and HM. -/
def fd (w : Nat) : BitVec 5 := BitVec.ofNat 5 (bitsOf w 21 5)

/-- Format R with integer sources a and b (Table 4-2). -/
def r3 (w : Nat) (k : BitVec 5 → Src → Src → Instr) : Dec :=
  isrc (bitsOf w 14 7) fun a => isrc (bitsOf w 7 7) fun b => .ok (k (fd w) a b)

/-- Format R with sources of either class. -/
def r3f (w : Nat) (k : BitVec 5 → Src → Src → Instr) : Dec :=
  fsrc (bitsOf w 14 7) fun a => fsrc (bitsOf w 7 7) fun b => .ok (k (fd w) a b)

/-- Format R with one integer source; b must be 0x00 (R112). -/
def r2 (w : Nat) (k : BitVec 5 → Src → Instr) : Dec :=
  need (bitsOf w 7 7 == 0) (isrc (bitsOf w 14 7) fun a => .ok (k (fd w) a))

/-- Format R with one source of either class; b must be 0x00. -/
def r2f (w : Nat) (k : BitVec 5 → Src → Instr) : Dec :=
  need (bitsOf w 7 7 == 0) (fsrc (bitsOf w 14 7) fun a => .ok (k (fd w) a))

/-- Format R with two sources and no destination; d must be 0. -/
def rab (w : Nat) (k : Src → Src → Instr) : Dec :=
  need (bitsOf w 21 5 == 0)
    (isrc (bitsOf w 14 7) fun a => isrc (bitsOf w 7 7) fun b => .ok (k a b))

/-- Format R with source a only; d and b must be 0. -/
def ra (w : Nat) (k : Src → Instr) : Dec :=
  need (bitsOf w 21 5 == 0 && bitsOf w 7 7 == 0) (isrc (bitsOf w 14 7) fun a => .ok (k a))

/-- A word with no operand field: bits 25:7 must be 0. -/
def r0 (w : Nat) (i : Instr) : Dec := need (bitsOf w 7 19 == 0) (.ok i)

/-- Format I with d, a and imm14. -/
def i3 (w : Nat) (k : BitVec 5 → Src → BitVec 14 → Instr) : Dec :=
  isrc (bitsOf w 14 7) fun a => .ok (k (fd w) a (BitVec.ofNat 14 (bitsOf w 0 14)))

/-- Format V with d, a, b; c must be 0 (R118). -/
def v3 (w : Nat) (k : BitVec 4 → BitVec 4 → BitVec 4 → Dec) : Dec :=
  need (bitsOf w 10 4 == 0)
    (k (BitVec.ofNat 4 (bitsOf w 22 4)) (BitVec.ofNat 4 (bitsOf w 18 4)) (BitVec.ofNat 4 (bitsOf w 14 4)))

/-- Format V with d and a; b and c must be 0. -/
def v2 (w : Nat) (k : BitVec 4 → BitVec 4 → Dec) : Dec :=
  need (bitsOf w 10 8 == 0) (k (BitVec.ofNat 4 (bitsOf w 22 4)) (BitVec.ofNat 4 (bitsOf w 18 4)))

/-- Format V, rounding form with d, a, b. -/
def v3r (w : Nat) (k : BitVec 4 → BitVec 4 → BitVec 4 → RMode → Instr) : Dec :=
  rmode (bitsOf w 7 3) fun rm => v3 w fun d a b => .ok (k d a b rm)

/-- Format V, non-rounding form with d, a, b: rm is ignored (R98). -/
def v3i (w : Nat) (k : BitVec 4 → BitVec 4 → BitVec 4 → BitVec 3 → Instr) : Dec :=
  v3 w fun d a b => .ok (k d a b (BitVec.ofNat 3 (bitsOf w 7 3)))

/-- Format V, rounding form with d and a. -/
def v2r (w : Nat) (k : BitVec 4 → BitVec 4 → RMode → Instr) : Dec :=
  rmode (bitsOf w 7 3) fun rm => v2 w fun d a => .ok (k d a rm)

/-- Format V, rounding form with d, a, b, c. -/
def v4r (w : Nat) (k : BitVec 4 → BitVec 4 → BitVec 4 → BitVec 4 → RMode → Instr) : Dec :=
  rmode (bitsOf w 7 3) fun rm => .ok (k (BitVec.ofNat 4 (bitsOf w 22 4)) (BitVec.ofNat 4 (bitsOf w 18 4))
    (BitVec.ofNat 4 (bitsOf w 14 4)) (BitVec.ofNat 4 (bitsOf w 10 4)) rm)

/-- Format VS with d, a, q; bit 10 must be 0. -/
def vs3 (w : Nat) (k : BitVec 4 → BitVec 4 → Src → Dec) : Dec :=
  need (bitsOf w 10 1 == 0) (fsrc (bitsOf w 11 7) fun q =>
    k (BitVec.ofNat 4 (bitsOf w 22 4)) (BitVec.ofNat 4 (bitsOf w 18 4)) q)

/-- Format VS, rounding. -/
def vs3r (w : Nat) (k : BitVec 4 → BitVec 4 → Src → RMode → Instr) : Dec :=
  rmode (bitsOf w 7 3) fun rm => vs3 w fun d a q => .ok (k d a q rm)

/-- Format VS, not rounding. -/
def vs3i (w : Nat) (k : BitVec 4 → BitVec 4 → Src → BitVec 3 → Instr) : Dec :=
  vs3 w fun d a q => .ok (k d a q (BitVec.ofNat 3 (bitsOf w 7 3)))

/-- Format XT with a and b; sc must be 0 (R119). -/
def xt2 (w : Nat) (k : BitVec 3 → Src → Src → Instr) : Dec :=
  need (bitsOf w 7 2 == 0) (isrc (bitsOf w 16 7) fun a => isrc (bitsOf w 9 7) fun b =>
    .ok (k (BitVec.ofNat 3 (bitsOf w 23 3)) a b))

/-- Format XT with a only; b and sc must be 0. -/
def xt1 (w : Nat) (k : BitVec 3 → Src → Instr) : Dec :=
  need (bitsOf w 7 9 == 0) (isrc (bitsOf w 16 7) fun a => .ok (k (BitVec.ofNat 3 (bitsOf w 23 3)) a))

/-- Format XT with a, b and a scope. -/
def xts (w : Nat) (k : BitVec 3 → Src → Src → Scope → Instr) : Dec :=
  scope (bitsOf w 7 2) fun sc => isrc (bitsOf w 16 7) fun a => isrc (bitsOf w 9 7) fun b =>
    .ok (k (BitVec.ofNat 3 (bitsOf w 23 3)) a b sc)

end Dec

open Dec

/-- Opcode 0x01 (Table 5-2). -/
def decodeInt (w : Nat) : Dec :=
  match bitsOf w 0 7 with
  | 0x00 => r3 w .add
  | 0x01 => r3 w .sub
  | 0x02 => r3 w .mul
  | 0x03 => r3 w .mulh
  | 0x04 => r3 w .mulhU
  | 0x05 => r3 w .div
  | 0x06 => r3 w .divU
  | 0x07 => r3 w .rem
  | 0x08 => r3 w .remU
  | 0x09 => r3 w .and
  | 0x0A => r3 w .or
  | 0x0B => r3 w .xor
  | 0x0C => r3 w .andn
  | 0x0D => r3 w .shl
  | 0x0E => r3 w .shr
  | 0x0F => r3 w .sra
  | 0x10 => r3 w .rot
  | 0x11 => r3 w .min
  | 0x12 => r3 w .minU
  | 0x13 => r3 w .max
  | 0x14 => r3 w .maxU
  | 0x15 => r2 w .clz
  | 0x16 => r2 w .popc
  | fn => need (bitsOf fn 3 4 == 3)
      (r3 w fun d a b => .sel d a b (BitVec.ofNat 3 (bitsOf w 0 3)))

/-- Opcode 0x02 (Table 5-3): an exact operation needs fn[6:4] = 0b000 (R115). -/
def decodeFp (w : Nat) : Dec :=
  rmode (bitsOf w 4 3) fun rm =>
    match bitsOf w 0 4 with
    | 0x0 => r3f w fun d a b => .fadd d a b rm
    | 0x1 => r3f w fun d a b => .fsub d a b rm
    | 0x2 => r3f w fun d a b => .fmul d a b rm
    | 0x3 => r3f w fun d a b => .ffma d a b rm
    | 0x4 => need (rm == .rne) (r3f w .fmin)
    | 0x5 => need (rm == .rne) (r3f w .fmax)
    | 0x6 => r2f w fun d a => .fcvtI64F32 d a rm
    | 0x7 => r2 w fun d a => .fcvtF32I64 d a rm
    | 0x8 => r2f w fun d a => .fcvtBf16F32 d a rm
    | 0x9 => r2f w fun d a => .fcvtFp16F32 d a rm
    | 0xA => r2f w fun d a => .fcvtE4m3F32 d a rm
    | 0xB => r2f w fun d a => .fcvtE5m2F32 d a rm
    | 0xC => need (rm == .rne) (r2 w .fcvtF32Bf16)
    | 0xD => need (rm == .rne) (r2 w .fcvtF32Fp16)
    | 0xE => need (rm == .rne) (r2 w .fcvtF32E4m3)
    | _ => need (rm == .rne) (r2 w .fcvtF32E5m2)

/-- Opcode 0x03: CMP and FCMP (R116); fn[6:4] must be 0. -/
def decodeCmp (w : Nat) : Dec :=
  need (bitsOf w 4 3 == 0)
    (if bitsOf w 3 1 = 0 then
      cond (bitsOf w 0 3) fun c => preg (bitsOf w 21 5) fun p =>
        isrc (bitsOf w 14 7) fun a => isrc (bitsOf w 7 7) fun b => .ok (.cmp p a b c)
    else
      fcond (bitsOf w 0 3) fun c => preg (bitsOf w 21 5) fun p =>
        fsrc (bitsOf w 14 7) fun a => fsrc (bitsOf w 7 7) fun b => .ok (.fcmp p a b c))

/-- Opcode 0x04 (Table 5-5): fn[6] = 1 only with MIN and MAX (R117). -/
def decodeAmo (w : Nat) : Dec :=
  let u := bitsOf w 6 1 == 1
  let sz := bitsOf w 5 1 == 1
  scope (bitsOf w 0 2) fun sc =>
    match bitsOf w 2 3 with
    | 0 => need (!u) (r3 w fun d a b => .amoAdd d a b sz sc)
    | 1 => r3 w fun d a b => .amoMin d a b u sz sc
    | 2 => r3 w fun d a b => .amoMax d a b u sz sc
    | 3 => need (!u) (r3 w fun d a b => .amoAnd d a b sz sc)
    | 4 => need (!u) (r3 w fun d a b => .amoOr d a b sz sc)
    | 5 => need (!u) (r3 w fun d a b => .amoXor d a b sz sc)
    | 6 => need (!u) (r3 w fun d a b => .amoSwap d a b sz sc)
    | _ => need (!u) (r3 w fun d a b => .cas d a b sz sc)

/-- Opcode 0x05 (Table 5-6). -/
def decodeOrder (w : Nat) : Dec :=
  match bitsOf w 2 5 with
  | 0 => scope (bitsOf w 0 2) fun sc => r0 w (.acq sc)
  | 1 => scope (bitsOf w 0 2) fun sc => r0 w (.rel sc)
  | 2 => scope (bitsOf w 0 2) fun sc => need (bitsOf w 7 14 == 0) (.ok (.fence (fd w) sc))
  | 3 => scope (bitsOf w 0 2) fun sc => r3 w fun d a b => .waita d a b sc
  | 4 =>
    match bitsOf w 0 2 with
    | 0 => r3 w .waitq
    | 1 => r3 w .sbarv
    | 2 => r3 w .sbwait
    | _ => rab w .ffill
  | 5 =>
    match bitsOf w 0 2 with
    | 0 => r3 w .fget
    | 1 => rab w .fqpush
    | _ => .error .insn
  | _ => .error .insn

/-- Opcode 0x06 (Table 5-6). -/
def decodeCont (w : Nat) : Dec :=
  match bitsOf w 0 7 with
  | 0x00 => ra w .spawn
  | 0x01 => ra w .join
  | 0x02 => r0 w .done
  | 0x03 => r0 w .yield
  | 0x04 => r3 w .wdecl
  | 0x05 => ra w .wclose
  | 0x06 => ra w .wflush
  | 0x07 => r3 w .wquery
  | 0x08 => rab w .chtail
  | _ => .error .insn

/-- Opcode 0x07 (Table 5-6). -/
def decodeCtl (w : Nat) : Dec :=
  match bitsOf w 0 7 with
  | 0x00 => ra w .jmp
  | 0x01 => r0 w .ret
  | 0x02 => rab w .brx
  | 0x03 => ra w .trap
  | 0x04 => r0 w .eret
  | 0x05 => rab w .tlbinv
  | 0x06 => r3 w .dhop
  | 0x07 => r3 w .vdie
  | 0x08 => rab w .trc
  | _ => .error .insn

/-- The register number of SRD and SWR: a number that names no register is outside its class (R228). -/
def sysNum (n : Nat) (d : Dec) : Dec := needOp (sysRegExists n) d

/-- SWR of register `n`: the rows of FSTAT, RNGS, WMARM, CHn_ORG and TIESW stand for their own numbers. -/
def swrOf (n : Nat) (a : Src) : Instr :=
  if n = 0x002 then .fstat a
  else if n = 0x005 then .rngs .cc a
  else if n = 0x006 then .rngs .ve a
  else if n = 0x007 then .rngs .me a
  else if n = 0x048 then .wmarm a
  else if 0x080 ≤ n ∧ n ≤ 0x17F ∧ n % 0x20 = 0x13 then .chOrg (BitVec.ofNat 3 (n / 0x20 - 4)) a
  else if 0x180 ≤ n ∧ n ≤ 0x1BF then .tiesw (BitVec.ofNat 6 (n - 0x180)) a
  else .swr a (BitVec.ofNat 12 n)

/-- A bundle whose S word is no long opcode: the S slot (Table 5-1). -/
def decodeS (w : Nat) : Dec :=
  match bitsOf w 26 6 with
  | 0x00 => need (w == 0) (.ok .nop)
  | 0x01 => decodeInt w
  | 0x02 => decodeFp w
  | 0x03 => decodeCmp w
  | 0x04 => decodeAmo w
  | 0x05 => decodeOrder w
  | 0x06 => decodeCont w
  | 0x07 => decodeCtl w
  | 0x08 => need (bitsOf w 12 9 == 0)
      (sysNum (bitsOf w 0 12) (.ok (.srd (fd w) (BitVec.ofNat 12 (bitsOf w 0 12)))))
  | 0x09 => need (bitsOf w 21 5 == 0 && bitsOf w 12 2 == 0)
      (isrc (bitsOf w 14 7) fun a => sysNum (bitsOf w 0 12) (.ok (swrOf (bitsOf w 0 12) a)))
  | 0x0A => need (bitsOf w 12 14 == 0 && bitsOf w 8 4 != 0)
      (.ok (.waitc (BitVec.ofNat 4 (bitsOf w 8 4)) (BitVec.ofNat 8 (bitsOf w 0 8))))
  | 0x0B => need (bitsOf w 8 6 == 0) (isrc (bitsOf w 14 7) fun a =>
      match bitsOf w 6 2 with
      | 0 => .ok (.shlImm (fd w) a (BitVec.ofNat 6 (bitsOf w 0 6)))
      | 1 => .ok (.shrImm (fd w) a (BitVec.ofNat 6 (bitsOf w 0 6)))
      | 2 => .ok (.sraImm (fd w) a (BitVec.ofNat 6 (bitsOf w 0 6)))
      | _ => .ok (.rotImm (fd w) a (BitVec.ofNat 6 (bitsOf w 0 6))))
  | 0x0C => need (bitsOf w 14 7 == 0) (.ok (.movi (fd w) (BitVec.ofNat 14 (bitsOf w 0 14))))
  | 0x0E => i3 w .addImm
  | 0x10 => i3 w .andImm
  | 0x12 => i3 w .orImm
  | 0x14 => i3 w .xorImm
  | 0x16 => i3 w .lea
  | 0x18 => need (bitsOf w 12 2 == 0 && decide (bitsOf w 6 6 + 1 + bitsOf w 0 6 ≤ 64))
      (isrc (bitsOf w 14 7) fun a =>
        .ok (.bfx (fd w) a (BitVec.ofNat 6 (bitsOf w 6 6)) (BitVec.ofNat 6 (bitsOf w 0 6))))
  | 0x19 => need (bitsOf w 12 2 == 0 && decide (bitsOf w 6 6 + 1 + bitsOf w 0 6 ≤ 64))
      (isrc (bitsOf w 14 7) fun a =>
        .ok (.bfi (fd w) a (BitVec.ofNat 6 (bitsOf w 6 6)) (BitVec.ofNat 6 (bitsOf w 0 6))))
  | 0x1A => need (bitsOf w 14 7 == 0) (.ok (.loop (fd w) (BitVec.ofNat 14 (bitsOf w 0 14))))
  | 0x20 => preg (bitsOf w 21 5) fun p => isrc (bitsOf w 14 7) fun a =>
      .ok (.cmpImm .eq p a (BitVec.ofNat 14 (bitsOf w 0 14)))
  | 0x21 => preg (bitsOf w 21 5) fun p => isrc (bitsOf w 14 7) fun a =>
      .ok (.cmpImm .ne p a (BitVec.ofNat 14 (bitsOf w 0 14)))
  | 0x22 => preg (bitsOf w 21 5) fun p => isrc (bitsOf w 14 7) fun a =>
      .ok (.cmpImm .lt p a (BitVec.ofNat 14 (bitsOf w 0 14)))
  | 0x23 => preg (bitsOf w 21 5) fun p => isrc (bitsOf w 14 7) fun a =>
      .ok (.cmpImm .ge p a (BitVec.ofNat 14 (bitsOf w 0 14)))
  | 0x24 => preg (bitsOf w 21 5) fun p => isrc (bitsOf w 14 7) fun a =>
      .ok (.cmpImm .ltu p a (BitVec.ofNat 14 (bitsOf w 0 14)))
  | 0x25 => preg (bitsOf w 21 5) fun p => isrc (bitsOf w 14 7) fun a =>
      .ok (.cmpImm .geu p a (BitVec.ofNat 14 (bitsOf w 0 14)))
  | 0x26 => preg (bitsOf w 21 5) fun p => isrc (bitsOf w 14 7) fun a =>
      .ok (.cmpImm .tst p a (BitVec.ofNat 14 (bitsOf w 0 14)))
  | 0x27 => preg (bitsOf w 21 5) fun p => isrc (bitsOf w 14 7) fun a =>
      .ok (.cmpImm .ntst p a (BitVec.ofNat 14 (bitsOf w 0 14)))
  | 0x30 => .ok (.ld (fd w) (BitVec.ofNat 5 (bitsOf w 16 5)) (BitVec.ofNat 13 (bitsOf w 3 13))
      (BitVec.ofNat 2 (bitsOf w 1 2)) (bitsOf w 0 1 == 1))
  | 0x31 => .ok (.ldU (fd w) (BitVec.ofNat 5 (bitsOf w 16 5)) (BitVec.ofNat 13 (bitsOf w 3 13))
      (BitVec.ofNat 2 (bitsOf w 1 2)) (bitsOf w 0 1 == 1))
  | 0x32 => .ok (.st (fd w) (BitVec.ofNat 5 (bitsOf w 16 5)) (BitVec.ofNat 13 (bitsOf w 3 13))
      (BitVec.ofNat 2 (bitsOf w 1 2)) (bitsOf w 0 1 == 1))
  | 0x33 => need (bitsOf w 1 2 == 0) (.ok (.pref (fd w) (BitVec.ofNat 5 (bitsOf w 16 5))
      (BitVec.ofNat 13 (bitsOf w 3 13)) (bitsOf w 0 1 == 1)))
  | 0x34 => need (bitsOf w 19 3 == 0) (.ok (.br (BitVec.ofNat 3 (bitsOf w 23 3)) (bitsOf w 22 1 == 1)
      (BitVec.ofNat 19 (bitsOf w 0 19))))
  | 0x35 => need (bitsOf w 19 3 == 0) (.ok (.call (BitVec.ofNat 3 (bitsOf w 23 3)) (bitsOf w 22 1 == 1)
      (BitVec.ofNat 19 (bitsOf w 0 19))))
  | _ => .error .insn

/-- The long opcodes of R101: 0x0D, 0x0F, 0x11, 0x13, 0x15, 0x17 and 0x28-0x2F, in the S word only. -/
def isLongOp (op : Nat) : Bool :=
  op == 0x0D || op == 0x0F || op == 0x11 || op == 0x13 || op == 0x15 || op == 0x17 || (0x28 ≤ op && op ≤ 0x2F)

/-- A long form: the H word is the high part of imm46 (R101). -/
def decodeLong (w h : Nat) : Dec :=
  let imm := BitVec.ofNat 46 (h * 2 ^ 14 + bitsOf w 0 14)
  match bitsOf w 26 6 with
  | 0x0D => need (bitsOf w 14 7 == 0) (.ok (.moviLong (fd w) imm))
  | 0x0F => isrc (bitsOf w 14 7) fun a => .ok (.addLong (fd w) a imm)
  | 0x11 => isrc (bitsOf w 14 7) fun a => .ok (.andLong (fd w) a imm)
  | 0x13 => isrc (bitsOf w 14 7) fun a => .ok (.orLong (fd w) a imm)
  | 0x15 => isrc (bitsOf w 14 7) fun a => .ok (.xorLong (fd w) a imm)
  | 0x17 => isrc (bitsOf w 14 7) fun a => .ok (.leaLong (fd w) a imm)
  | 0x28 => preg (bitsOf w 21 5) fun p => isrc (bitsOf w 14 7) fun a => .ok (.cmpLong .eq p a imm)
  | 0x29 => preg (bitsOf w 21 5) fun p => isrc (bitsOf w 14 7) fun a => .ok (.cmpLong .ne p a imm)
  | 0x2A => preg (bitsOf w 21 5) fun p => isrc (bitsOf w 14 7) fun a => .ok (.cmpLong .lt p a imm)
  | 0x2B => preg (bitsOf w 21 5) fun p => isrc (bitsOf w 14 7) fun a => .ok (.cmpLong .ge p a imm)
  | 0x2C => preg (bitsOf w 21 5) fun p => isrc (bitsOf w 14 7) fun a => .ok (.cmpLong .ltu p a imm)
  | 0x2D => preg (bitsOf w 21 5) fun p => isrc (bitsOf w 14 7) fun a => .ok (.cmpLong .geu p a imm)
  | 0x2E => preg (bitsOf w 21 5) fun p => isrc (bitsOf w 14 7) fun a => .ok (.cmpLong .tst p a imm)
  | 0x2F => preg (bitsOf w 21 5) fun p => isrc (bitsOf w 14 7) fun a => .ok (.cmpLong .ntst p a imm)
  | _ => .error .insn

/-- Opcode 0x01 of the V map (Table 5-8). -/
def decodeVelt (w : Nat) : Dec :=
  match bitsOf w 0 7 with
  | 0x00 => v3r w .vadd
  | 0x01 => v3r w .vsub
  | 0x02 => v3r w .vmul
  | 0x03 => v4r w .vfma
  | 0x04 => v3r w .vmin
  | 0x05 => v3r w .vmax
  | 0x06 => v3i w .vand
  | 0x07 => v3i w .vor
  | 0x08 => v3i w .vxor
  | 0x09 => v3i w .vshl
  | 0x0A => v3i w .vshr
  | 0x0B => v4r w .vsel
  | 0x0C => v2r w .vabs
  | 0x0D => v2r w .vneg
  | fn => need (bitsOf fn 3 4 == 2) (cond (bitsOf w 0 3) fun c => v3i w fun d a b rm => .vcmp d a b rm c)

/-- Opcode 0x02 of the V map (Table 5-8): a scalar in place of shape b. -/
def decodeVs (w : Nat) : Dec :=
  match bitsOf w 0 7 with
  | 0x00 => vs3r w .vaddVs
  | 0x01 => vs3r w .vsubVs
  | 0x02 => vs3r w .vmulVs
  | 0x04 => vs3r w .vminVs
  | 0x05 => vs3r w .vmaxVs
  | 0x06 => vs3i w .vandVs
  | 0x07 => vs3i w .vorVs
  | 0x08 => vs3i w .vxorVs
  | 0x09 => vs3i w .vshlVs
  | 0x0A => vs3i w .vshrVs
  | fn => need (bitsOf fn 3 4 == 2) (cond (bitsOf w 0 3) fun c => vs3i w fun d a q rm => .vcmpVs d a q rm c)

/-- Opcodes 0x03-0x08 of the V map but for VCHAIN (Table 5-7). -/
def decodeVrest (w : Nat) : Dec :=
  match bitsOf w 26 6 with
  | 0x03 =>
    match bitsOf w 0 7 with
    | 0x00 => v2r w .vcvt
    | 0x01 => need (bitsOf w 7 3 == 0 || bitsOf w 7 3 == 4) (v3 w fun d a b =>
        .ok (.vquant d a b (bitsOf w 7 3 == 4)))
    | 0x02 => v3r w .vdeq
    | 0x08 => v2r w .vexp2
    | 0x09 => v2r w .vlog2
    | 0x0A => v2r w .vrcp
    | 0x0B => v2r w .vrsqrt
    | 0x0C => v2r w .vtanh
    | _ => .error .insn
  | 0x04 =>
    match bitsOf w 0 7 with
    | 0x00 => v2r w .vrsum
    | 0x01 => v2r w .vrmax
    | 0x02 => v2r w .vamax
    | 0x03 => v2r w .vscan
    | _ => .error .insn
  | 0x05 =>
    match bitsOf w 0 7 with
    | 0x00 => v2 w fun d a => .ok (.vgather d a (BitVec.ofNat 3 (bitsOf w 7 3)))
    | 0x01 => need (bitsOf w 22 4 == 0 && bitsOf w 10 4 == 0) (.ok (.vscatter (BitVec.ofNat 4 (bitsOf w 18 4))
        (BitVec.ofNat 4 (bitsOf w 14 4)) (BitVec.ofNat 3 (bitsOf w 7 3))))
    | 0x02 => v2 w fun d a => .ok (.vcopy d a (BitVec.ofNat 3 (bitsOf w 7 3)))
    | _ => .error .insn
  | 0x06 =>
    need (bitsOf w 18 4 == 0 && bitsOf w 10 1 == 0)
      (match bitsOf w 0 7 with
      | 0x00 => isrc (bitsOf w 11 7) fun q =>
          .ok (.shset (BitVec.ofNat 4 (bitsOf w 22 4)) q (BitVec.ofNat 3 (bitsOf w 7 3)))
      | 0x01 => rmode (bitsOf w 7 3) fun rm => fsrc (bitsOf w 11 7) fun q =>
          .ok (.vfill (BitVec.ofNat 4 (bitsOf w 22 4)) q rm)
      | 0x02 => fsrc (bitsOf w 11 7) fun q =>
          .ok (.viota (BitVec.ofNat 4 (bitsOf w 22 4)) q (BitVec.ofNat 3 (bitsOf w 7 3)))
      | _ => .error .insn)
  | 0x08 => trans (bitsOf w 0 7) fun f => v2r w fun d a rm => .vbulk d a rm f
  | _ => .error .insn

/-- The V slot, and vsec when `sec` (Table 5-7): VRUN in the slot only, VCHAIN and VEND in vsec only. -/
def decodeV (sec : Bool) (w : Nat) : Dec :=
  match bitsOf w 26 6 with
  | 0x00 => need (w == 0) (.ok .nop)
  | 0x01 => decodeVelt w
  | 0x02 => decodeVs w
  | 0x07 => need (sec && bitsOf w 3 23 == 0) (.ok (.vchain (BitVec.ofNat 3 (bitsOf w 0 3))))
  | 0x3E => need (!sec && bitsOf w 12 14 == 0) (.ok (.vrun (BitVec.ofNat 12 (bitsOf w 0 12))))
  | 0x3F => need (sec && bitsOf w 0 26 == 0) (.ok .vend)
  | _ => decodeVrest w

/-- The channel half of the X map (Table 5-9); in xsec ch must be 0 (R103). -/
def decodeXT (sec : Bool) (w : Nat) : Dec :=
  need (!sec || bitsOf w 23 3 == 0)
    (match bitsOf w 26 6 with
    | 0x00 => need (w == 0) (.ok .nop)
    | 0x01 =>
      match bitsOf w 0 7 with
      | 0x00 => xt1 w .xcopy
      | 0x01 => xt2 w .xtile
      | 0x02 => xt2 w .xmeta
      | 0x03 => xt2 w .xgather
      | 0x04 => xt2 w .xfill
      | 0x05 => xt2 w .xred
      | _ => .error .insn
    | 0x02 =>
      match bitsOf w 0 7 with
      | 0x00 => xts w .xsig
      | 0x01 => xts w .xbar
      | 0x02 => xt2 w .xwrap
      | 0x03 => xt1 w .xrcnt
      | _ => .error .insn
    | 0x03 =>
      match bitsOf w 0 7 with
      | 0x00 => xt1 w .xjob
      | 0x01 => xt2 w .xfoot
      | 0x02 => xts w .xchain
      | _ => .error .insn
    | 0x1E => need (!sec && bitsOf w 12 11 == 0)
        (.ok (.xrun (BitVec.ofNat 3 (bitsOf w 23 3)) (BitVec.ofNat 12 (bitsOf w 0 12))))
    | 0x1F => need (sec && bitsOf w 0 26 == 0) (.ok .xend)
    | _ => .error .insn)

/-- The remote operand of MMA and MMAS: an operand when m is not 0b00, ignored otherwise (R98). -/
def decodeMma (w : Nat) (k : BitVec 4 → BitVec 4 → BitVec 4 → BitVec 2 → BitVec 7 → Instr) : Dec :=
  needOp (remoteQ (BitVec.ofNat 2 (bitsOf w 12 2)) (BitVec.ofNat 7 (bitsOf w 5 7)))
    (.ok (k (BitVec.ofNat 4 (bitsOf w 22 4)) (BitVec.ofNat 4 (bitsOf w 18 4)) (BitVec.ofNat 4 (bitsOf w 14 4))
      (BitVec.ofNat 2 (bitsOf w 12 2)) (BitVec.ofNat 7 (bitsOf w 5 7))))

/-- MOWN and MREL: m = 0b01, slot 1-3 in d (R173). -/
def decodeOwn (w : Nat) (k : BitVec 4 → Src → Instr) : Dec :=
  need (bitsOf w 12 10 == 1)
    (needOp (1 ≤ bitsOf w 22 4 && bitsOf w 22 4 ≤ 3)
      (isrc (bitsOf w 5 7) fun q => .ok (k (BitVec.ofNat 4 (bitsOf w 22 4)) q)))

/-- The ME half of the X map (Table 5-9): MRUN in the slot only, MEND in msec only. -/
def decodeXM (sec : Bool) (w : Nat) : Dec :=
  match bitsOf w 26 6 with
  | 0x20 => need (w == 0x80000000) (.ok .meNop)
  | 0x21 =>
    match bitsOf w 0 5 with
    | 0x00 => decodeMma w .mma
    | 0x01 => decodeMma w .mmas
    | _ => .error .insn
  | 0x22 =>
    match bitsOf w 0 5 with
    | 0x00 => need (bitsOf w 12 10 == 0)
        (.ok (.mzero (BitVec.ofNat 4 (bitsOf w 22 4)) (BitVec.ofNat 7 (bitsOf w 5 7))))
    | 0x01 => need (bitsOf w 12 6 == 0) (.ok (.mnarrow (BitVec.ofNat 4 (bitsOf w 22 4))
        (BitVec.ofNat 4 (bitsOf w 18 4)) (BitVec.ofNat 7 (bitsOf w 5 7))))
    | 0x02 => need (bitsOf w 12 6 == 0) (.ok (.mtrans (BitVec.ofNat 4 (bitsOf w 22 4))
        (BitVec.ofNat 4 (bitsOf w 18 4)) (BitVec.ofNat 7 (bitsOf w 5 7))))
    | _ => .error .insn
  | 0x23 =>
    match bitsOf w 0 5 with
    | 0x00 => decodeOwn w .mown
    | 0x01 => decodeOwn w .mrel
    | 0x02 => need (bitsOf w 12 14 == 0) (.ok (.msync (BitVec.ofNat 7 (bitsOf w 5 7))))
    | _ => .error .insn
  | 0x3E => need (!sec && bitsOf w 12 14 == 0) (.ok (.mrun (BitVec.ofNat 12 (bitsOf w 0 12))))
  | 0x3F => need (sec && bitsOf w 0 26 == 0) (.ok .mend)
  | _ => .error .insn

/-- The X slot: bit 31 selects the half (R119). -/
def decodeX (w : Nat) : Dec := if bitsOf w 31 1 = 1 then decodeXM false w else decodeXT false w

/-- Opcode 0x03 of the H map (Table 5-10). Fields: d 25:21, a 20:17, b 16:13, q 12:6. -/
def decodeHvec (w : Nat) : Dec :=
  let a := BitVec.ofNat 4 (bitsOf w 17 4)
  let b := BitVec.ofNat 4 (bitsOf w 13 4)
  match bitsOf w 0 6 with
  | 0x00 => need (bitsOf w 6 7 == 0) (hv5 (bitsOf w 21 5) fun d => .ok (.hxor d a b))
  | 0x01 => need (bitsOf w 13 4 == 0)
      (hv5 (bitsOf w 21 5) fun d => isrc (bitsOf w 6 7) fun q => .ok (.hrot d a q))
  | 0x02 => need (bitsOf w 13 4 == 0)
      (ba (bitsOf w 21 5) fun d => isrc (bitsOf w 6 7) fun q => .ok (.hacc d a q))
  | 0x03 => need (bitsOf w 6 11 == 0)
      (hv5 (bitsOf w 21 5) fun d => ba (bitsOf w 17 4) fun s => .ok (.hthr d s))
  | 0x04 => need (bitsOf w 6 15 == 0) (hv5 (bitsOf w 21 5) fun d => .ok (.hclr d))
  | 0x05 => need (bitsOf w 6 7 == 0) (.ok (.hpop (fd w) a b))
  | 0x06 => need (bitsOf w 13 8 == 0)
      (hv5 (bitsOf w 21 5) fun d => isrc (bitsOf w 6 7) fun q => .ok (.hrnd d q))
  | 0x07 => need (bitsOf w 21 5 == 0 && bitsOf w 6 11 == 0) (.ok (.htie a))
  | 0x08 => need (bitsOf w 13 13 == 0) (isrc (bitsOf w 6 7) fun q => .ok (.htieSeed q))
  | 0x09 => need (bitsOf w 6 20 == 0) (.ok .htieZero)
  | 0x0A => need (bitsOf w 6 15 == 0) (ba (bitsOf w 21 5) fun d => .ok (.hclrW4 d))
  | 0x0B => need (bitsOf w 6 15 == 0) (ba (bitsOf w 21 5) fun d => .ok (.hclrW8 d))
  | _ => .error .insn

/-- Opcode 0x05 of the H map (Table 5-10). -/
def decodeHam (w : Nat) : Dec :=
  let a := BitVec.ofNat 4 (bitsOf w 17 4)
  match bitsOf w 0 6 with
  | 0x00 => need (bitsOf w 21 5 == 0 && bitsOf w 13 4 == 0) (isrc (bitsOf w 6 7) fun q => .ok (.hamw a q))
  | 0x01 => need (bitsOf w 13 4 == 0) (isrc (bitsOf w 6 7) fun q => .ok (.hamq (fd w) a q))
  | 0x02 => need (bitsOf w 21 5 == 0 && bitsOf w 13 4 == 0) (isrc (bitsOf w 6 7) fun q => .ok (.hamk a q))
  | 0x03 => need (bitsOf w 13 13 == 0) (isrc (bitsOf w 6 7) fun q => .ok (.hamd q))
  | _ => .error .insn

/-- The H slot (Table 5-10). -/
def decodeH (w : Nat) : Dec :=
  match bitsOf w 26 6 with
  | 0x00 => need (w == 0) (.ok .nop)
  | 0x01 => need (bitsOf w 1 2 == 0) (hv5 (bitsOf w 21 5) fun d =>
      .ok (.hld d (BitVec.ofNat 5 (bitsOf w 16 5)) (BitVec.ofNat 13 (bitsOf w 3 13)) (bitsOf w 0 1 == 1)))
  | 0x02 => need (bitsOf w 1 2 == 0) (hv5 (bitsOf w 21 5) fun d =>
      .ok (.hst d (BitVec.ofNat 5 (bitsOf w 16 5)) (BitVec.ofNat 13 (bitsOf w 3 13)) (bitsOf w 0 1 == 1)))
  | 0x03 => decodeHvec w
  | 0x04 => need (bitsOf w 0 5 == 0) (hv5 (bitsOf w 21 5) fun d =>
      .ok (.hrotImm d (BitVec.ofNat 4 (bitsOf w 17 4)) (BitVec.ofNat 12 (bitsOf w 5 12))))
  | 0x05 => decodeHam w
  | _ => .error .insn

/-- The decoder of each slot and section (R103, R112). A word of the wrong half is illegal in xsec and msec. -/
def decodeIn (c : Sect) (w : Nat) : Dec :=
  match c with
  | .s => decodeS w
  | .v => decodeV false w
  | .x => decodeX w
  | .h => decodeH w
  | .vsec => decodeV true w
  | .xsec => decodeXT true w
  | .msec => decodeXM true w

/-! ## The encoder -/

/-- A seven-bit source field (R99). -/
def Src.code : Src → Nat
  | .reg r => r.toNat
  | .const k => 0x40 + k.toNat

/-- Table 2-6. -/
def RMode.code : RMode → Nat
  | .rne => 0
  | .rz => 1
  | .ru => 2
  | .rd => 3
  | .sr => 4

/-- Table 3-2. -/
def Scope.code : Scope → Nat
  | .core => 0
  | .die => 1
  | .pkg => 2
  | .pod => 3

/-- Table 5-4, CMP column. -/
def Cond.code : Cond → Nat
  | .eq => 0
  | .ne => 1
  | .lt => 2
  | .ge => 3
  | .ltu => 4
  | .geu => 5
  | .tst => 6
  | .ntst => 7

/-- Table 5-4, FCMP column. -/
def FCond.code : FCond → Nat
  | .eq => 0
  | .ne => 1
  | .lt => 2
  | .ge => 3
  | .le => 4
  | .gt => 5
  | .un => 6
  | .ord => 7

/-- fn of opcodes 0x03 and 0x08 (Table 5-7). -/
def Trans.code : Trans → Nat
  | .exp2 => 0x08
  | .log2 => 0x09
  | .rcp => 0x0A
  | .rsqrt => 0x0B
  | .tanh => 0x0C

namespace Enc

/-- Format R (Table 4-2). -/
def r (op d a b fn : Nat) : Nat := op * 2 ^ 26 + d * 2 ^ 21 + a * 2 ^ 14 + b * 2 ^ 7 + fn

/-- Format I. -/
def i (op d a imm : Nat) : Nat := op * 2 ^ 26 + d * 2 ^ 21 + a * 2 ^ 14 + imm

/-- Formats M and HM. -/
def m (op d base off sz : Nat) (sp : Bool) : Nat :=
  op * 2 ^ 26 + d * 2 ^ 21 + base * 2 ^ 16 + off * 2 ^ 3 + sz * 2 + sp.toNat

/-- Format B. -/
def b (op p : Nat) (n : Bool) (off : Nat) : Nat := op * 2 ^ 26 + p * 2 ^ 23 + n.toNat * 2 ^ 22 + off

/-- Format V. -/
def v (op d a b c rm fn : Nat) : Nat :=
  op * 2 ^ 26 + d * 2 ^ 22 + a * 2 ^ 18 + b * 2 ^ 14 + c * 2 ^ 10 + rm * 2 ^ 7 + fn

/-- Format VS. -/
def vs (op d a q rm fn : Nat) : Nat := op * 2 ^ 26 + d * 2 ^ 22 + a * 2 ^ 18 + q * 2 ^ 11 + rm * 2 ^ 7 + fn

/-- Format E. -/
def e (op ch entry : Nat) : Nat := op * 2 ^ 26 + ch * 2 ^ 23 + entry

/-- Format XT. -/
def xt (op ch a b sc fn : Nat) : Nat := op * 2 ^ 26 + ch * 2 ^ 23 + a * 2 ^ 16 + b * 2 ^ 9 + sc * 2 ^ 7 + fn

/-- Format XM. -/
def xm (op d a b m q fn : Nat) : Nat :=
  op * 2 ^ 26 + d * 2 ^ 22 + a * 2 ^ 18 + b * 2 ^ 14 + m * 2 ^ 12 + q * 2 ^ 5 + fn

/-- Format H. -/
def h (op d a b q fn : Nat) : Nat := op * 2 ^ 26 + d * 2 ^ 21 + a * 2 ^ 17 + b * 2 ^ 13 + q * 2 ^ 6 + fn

/-- Format HI. -/
def hi (op d a imm : Nat) : Nat := op * 2 ^ 26 + d * 2 ^ 21 + a * 2 ^ 17 + imm * 2 ^ 5

end Enc

/-- The word of an instruction; 0 for an event, which has none. A long form's S word: the H word is `encodeHi`. -/
def encode : Instr → Nat
  | .nop => 0
  | .add d a b => Enc.r 1 d.toNat a.code b.code 0
  | .sub d a b => Enc.r 1 d.toNat a.code b.code 1
  | .mul d a b => Enc.r 1 d.toNat a.code b.code 2
  | .mulh d a b => Enc.r 1 d.toNat a.code b.code 3
  | .mulhU d a b => Enc.r 1 d.toNat a.code b.code 4
  | .div d a b => Enc.r 1 d.toNat a.code b.code 5
  | .divU d a b => Enc.r 1 d.toNat a.code b.code 6
  | .rem d a b => Enc.r 1 d.toNat a.code b.code 7
  | .remU d a b => Enc.r 1 d.toNat a.code b.code 8
  | .and d a b => Enc.r 1 d.toNat a.code b.code 9
  | .or d a b => Enc.r 1 d.toNat a.code b.code 10
  | .xor d a b => Enc.r 1 d.toNat a.code b.code 11
  | .andn d a b => Enc.r 1 d.toNat a.code b.code 12
  | .shl d a b => Enc.r 1 d.toNat a.code b.code 13
  | .shr d a b => Enc.r 1 d.toNat a.code b.code 14
  | .sra d a b => Enc.r 1 d.toNat a.code b.code 15
  | .rot d a b => Enc.r 1 d.toNat a.code b.code 16
  | .min d a b => Enc.r 1 d.toNat a.code b.code 17
  | .minU d a b => Enc.r 1 d.toNat a.code b.code 18
  | .max d a b => Enc.r 1 d.toNat a.code b.code 19
  | .maxU d a b => Enc.r 1 d.toNat a.code b.code 20
  | .clz d a => Enc.r 1 d.toNat a.code 0 0x15
  | .popc d a => Enc.r 1 d.toNat a.code 0 0x16
  | .sel d a b p => Enc.r 1 d.toNat a.code b.code (0x18 + p.toNat)
  | .fadd d a b rm => Enc.r 2 d.toNat a.code b.code (rm.code * 16 + 0)
  | .fsub d a b rm => Enc.r 2 d.toNat a.code b.code (rm.code * 16 + 1)
  | .fmul d a b rm => Enc.r 2 d.toNat a.code b.code (rm.code * 16 + 2)
  | .ffma d a b rm => Enc.r 2 d.toNat a.code b.code (rm.code * 16 + 3)
  | .fmin d a b => Enc.r 2 d.toNat a.code b.code 4
  | .fmax d a b => Enc.r 2 d.toNat a.code b.code 5
  | .fcvtI64F32 d a rm => Enc.r 2 d.toNat a.code 0 (rm.code * 16 + 6)
  | .fcvtF32I64 d a rm => Enc.r 2 d.toNat a.code 0 (rm.code * 16 + 7)
  | .fcvtBf16F32 d a rm => Enc.r 2 d.toNat a.code 0 (rm.code * 16 + 8)
  | .fcvtFp16F32 d a rm => Enc.r 2 d.toNat a.code 0 (rm.code * 16 + 9)
  | .fcvtE4m3F32 d a rm => Enc.r 2 d.toNat a.code 0 (rm.code * 16 + 10)
  | .fcvtE5m2F32 d a rm => Enc.r 2 d.toNat a.code 0 (rm.code * 16 + 11)
  | .fcvtF32Bf16 d a => Enc.r 2 d.toNat a.code 0 12
  | .fcvtF32Fp16 d a => Enc.r 2 d.toNat a.code 0 13
  | .fcvtF32E4m3 d a => Enc.r 2 d.toNat a.code 0 14
  | .fcvtF32E5m2 d a => Enc.r 2 d.toNat a.code 0 15
  | .cmp p a b c => Enc.r 3 p.toNat a.code b.code c.code
  | .fcmp p a b c => Enc.r 3 p.toNat a.code b.code (8 + c.code)
  | .amoAdd d a b w sc => Enc.r 4 d.toNat a.code b.code (w.toNat * 32 + 0 + sc.code)
  | .amoMin d a b u w sc => Enc.r 4 d.toNat a.code b.code (u.toNat * 64 + w.toNat * 32 + 4 + sc.code)
  | .amoMax d a b u w sc => Enc.r 4 d.toNat a.code b.code (u.toNat * 64 + w.toNat * 32 + 8 + sc.code)
  | .amoAnd d a b w sc => Enc.r 4 d.toNat a.code b.code (w.toNat * 32 + 12 + sc.code)
  | .amoOr d a b w sc => Enc.r 4 d.toNat a.code b.code (w.toNat * 32 + 16 + sc.code)
  | .amoXor d a b w sc => Enc.r 4 d.toNat a.code b.code (w.toNat * 32 + 20 + sc.code)
  | .amoSwap d a b w sc => Enc.r 4 d.toNat a.code b.code (w.toNat * 32 + 24 + sc.code)
  | .cas d a b w sc => Enc.r 4 d.toNat a.code b.code (w.toNat * 32 + 28 + sc.code)
  | .acq sc => Enc.r 5 0 0 0 sc.code
  | .rel sc => Enc.r 5 0 0 0 (4 + sc.code)
  | .fence d sc => Enc.r 5 d.toNat 0 0 (8 + sc.code)
  | .waita d a b sc => Enc.r 5 d.toNat a.code b.code (0x0C + sc.code)
  | .waitq d a b => Enc.r 5 d.toNat a.code b.code 0x10
  | .sbarv d a b => Enc.r 5 d.toNat a.code b.code 0x11
  | .sbwait d a b => Enc.r 5 d.toNat a.code b.code 0x12
  | .fget d a b => Enc.r 5 d.toNat a.code b.code 0x14
  | .ffill a b => Enc.r 5 0 a.code b.code 0x13
  | .fqpush a b => Enc.r 5 0 a.code b.code 0x15
  | .spawn a => Enc.r 6 0 a.code 0 0
  | .join a => Enc.r 6 0 a.code 0 1
  | .done => Enc.r 6 0 0 0 2
  | .yield => Enc.r 6 0 0 0 3
  | .wdecl d a b => Enc.r 6 d.toNat a.code b.code 4
  | .wclose a => Enc.r 6 0 a.code 0 5
  | .wflush a => Enc.r 6 0 a.code 0 6
  | .wquery d a b => Enc.r 6 d.toNat a.code b.code 7
  | .chtail a b => Enc.r 6 0 a.code b.code 8
  | .jmp a => Enc.r 7 0 a.code 0 0
  | .ret => Enc.r 7 0 0 0 1
  | .brx a b => Enc.r 7 0 a.code b.code 2
  | .trap a => Enc.r 7 0 a.code 0 3
  | .eret => Enc.r 7 0 0 0 4
  | .tlbinv a b => Enc.r 7 0 a.code b.code 5
  | .dhop d a b => Enc.r 7 d.toNat a.code b.code 6
  | .vdie d a b => Enc.r 7 d.toNat a.code b.code 7
  | .trc a b => Enc.r 7 0 a.code b.code 8
  | .srd d n => Enc.i 8 d.toNat 0 n.toNat
  | .swr a n => Enc.i 9 0 a.code n.toNat
  | .fstat a => Enc.i 9 0 a.code 0x002
  | .rngs .cc a => Enc.i 9 0 a.code 0x005
  | .rngs .ve a => Enc.i 9 0 a.code 0x006
  | .rngs .me a => Enc.i 9 0 a.code 0x007
  | .wmarm a => Enc.i 9 0 a.code 0x048
  | .chOrg ch a => Enc.i 9 0 a.code (0x93 + 0x20 * ch.toNat)
  | .tiesw k a => Enc.i 9 0 a.code (0x180 + k.toNat)
  | .waitc m l => Enc.i 10 0 0 (m.toNat * 256 + l.toNat)
  | .shlImm d a c => Enc.i 11 d.toNat a.code (0 + c.toNat)
  | .shrImm d a c => Enc.i 11 d.toNat a.code (64 + c.toNat)
  | .sraImm d a c => Enc.i 11 d.toNat a.code (128 + c.toNat)
  | .rotImm d a c => Enc.i 11 d.toNat a.code (192 + c.toNat)
  | .movi d imm => Enc.i 0x0C d.toNat 0 imm.toNat
  | .moviLong d imm => Enc.i 0x0D d.toNat 0 (bitsOf imm.toNat 0 14)
  | .addImm d a imm => Enc.i 0x0E d.toNat a.code imm.toNat
  | .addLong d a imm => Enc.i 0x0F d.toNat a.code (bitsOf imm.toNat 0 14)
  | .andImm d a imm => Enc.i 0x10 d.toNat a.code imm.toNat
  | .andLong d a imm => Enc.i 0x11 d.toNat a.code (bitsOf imm.toNat 0 14)
  | .orImm d a imm => Enc.i 0x12 d.toNat a.code imm.toNat
  | .orLong d a imm => Enc.i 0x13 d.toNat a.code (bitsOf imm.toNat 0 14)
  | .xorImm d a imm => Enc.i 0x14 d.toNat a.code imm.toNat
  | .xorLong d a imm => Enc.i 0x15 d.toNat a.code (bitsOf imm.toNat 0 14)
  | .lea d a imm => Enc.i 0x16 d.toNat a.code imm.toNat
  | .leaLong d a imm => Enc.i 0x17 d.toNat a.code (bitsOf imm.toNat 0 14)
  | .bfx d a w p => Enc.i 0x18 d.toNat a.code (w.toNat * 64 + p.toNat)
  | .bfi d a w p => Enc.i 0x19 d.toNat a.code (w.toNat * 64 + p.toNat)
  | .loop d imm => Enc.i 0x1A d.toNat 0 imm.toNat
  | .cmpImm c p a imm => Enc.i (0x20 + c.code) p.toNat a.code imm.toNat
  | .cmpLong c p a imm => Enc.i (0x28 + c.code) p.toNat a.code (bitsOf imm.toNat 0 14)
  | .ld d base off sz sp => Enc.m 0x30 d.toNat base.toNat off.toNat sz.toNat sp
  | .ldU d base off sz sp => Enc.m 0x31 d.toNat base.toNat off.toNat sz.toNat sp
  | .st d base off sz sp => Enc.m 0x32 d.toNat base.toNat off.toNat sz.toNat sp
  | .pref d base off sp => Enc.m 0x33 d.toNat base.toNat off.toNat 0 sp
  | .br p n off => Enc.b 0x34 p.toNat n off.toNat
  | .call p n off => Enc.b 0x35 p.toNat n off.toNat
  | .vadd d a b rm => Enc.v 1 d.toNat a.toNat b.toNat 0 rm.code 0
  | .vsub d a b rm => Enc.v 1 d.toNat a.toNat b.toNat 0 rm.code 1
  | .vmul d a b rm => Enc.v 1 d.toNat a.toNat b.toNat 0 rm.code 2
  | .vmin d a b rm => Enc.v 1 d.toNat a.toNat b.toNat 0 rm.code 4
  | .vmax d a b rm => Enc.v 1 d.toNat a.toNat b.toNat 0 rm.code 5
  | .vfma d a b c rm => Enc.v 1 d.toNat a.toNat b.toNat c.toNat rm.code 3
  | .vsel d a b c rm => Enc.v 1 d.toNat a.toNat b.toNat c.toNat rm.code 0x0B
  | .vand d a b rm => Enc.v 1 d.toNat a.toNat b.toNat 0 rm.toNat 6
  | .vor d a b rm => Enc.v 1 d.toNat a.toNat b.toNat 0 rm.toNat 7
  | .vxor d a b rm => Enc.v 1 d.toNat a.toNat b.toNat 0 rm.toNat 8
  | .vshl d a b rm => Enc.v 1 d.toNat a.toNat b.toNat 0 rm.toNat 9
  | .vshr d a b rm => Enc.v 1 d.toNat a.toNat b.toNat 0 rm.toNat 10
  | .vabs d a rm => Enc.v 1 d.toNat a.toNat 0 0 rm.code 0x0C
  | .vneg d a rm => Enc.v 1 d.toNat a.toNat 0 0 rm.code 0x0D
  | .vcmp d a b rm k => Enc.v 1 d.toNat a.toNat b.toNat 0 rm.toNat (0x10 + k.code)
  | .vaddVs d a q rm => Enc.vs 2 d.toNat a.toNat q.code rm.code 0
  | .vsubVs d a q rm => Enc.vs 2 d.toNat a.toNat q.code rm.code 1
  | .vmulVs d a q rm => Enc.vs 2 d.toNat a.toNat q.code rm.code 2
  | .vminVs d a q rm => Enc.vs 2 d.toNat a.toNat q.code rm.code 4
  | .vmaxVs d a q rm => Enc.vs 2 d.toNat a.toNat q.code rm.code 5
  | .vandVs d a q rm => Enc.vs 2 d.toNat a.toNat q.code rm.toNat 6
  | .vorVs d a q rm => Enc.vs 2 d.toNat a.toNat q.code rm.toNat 7
  | .vxorVs d a q rm => Enc.vs 2 d.toNat a.toNat q.code rm.toNat 8
  | .vshlVs d a q rm => Enc.vs 2 d.toNat a.toNat q.code rm.toNat 9
  | .vshrVs d a q rm => Enc.vs 2 d.toNat a.toNat q.code rm.toNat 10
  | .vcmpVs d a q rm k => Enc.vs 2 d.toNat a.toNat q.code rm.toNat (0x10 + k.code)
  | .vcvt d a rm => Enc.v 3 d.toNat a.toNat 0 0 rm.code 0
  | .vquant d a b sr => Enc.v 3 d.toNat a.toNat b.toNat 0 (sr.toNat * 4) 1
  | .vdeq d a b rm => Enc.v 3 d.toNat a.toNat b.toNat 0 rm.code 2
  | .vexp2 d a rm => Enc.v 3 d.toNat a.toNat 0 0 rm.code 8
  | .vlog2 d a rm => Enc.v 3 d.toNat a.toNat 0 0 rm.code 9
  | .vrcp d a rm => Enc.v 3 d.toNat a.toNat 0 0 rm.code 10
  | .vrsqrt d a rm => Enc.v 3 d.toNat a.toNat 0 0 rm.code 11
  | .vtanh d a rm => Enc.v 3 d.toNat a.toNat 0 0 rm.code 12
  | .vrsum d a rm => Enc.v 4 d.toNat a.toNat 0 0 rm.code 0
  | .vrmax d a rm => Enc.v 4 d.toNat a.toNat 0 0 rm.code 1
  | .vamax d a rm => Enc.v 4 d.toNat a.toNat 0 0 rm.code 2
  | .vscan d a rm => Enc.v 4 d.toNat a.toNat 0 0 rm.code 3
  | .vgather d a rm => Enc.v 5 d.toNat a.toNat 0 0 rm.toNat 0
  | .vscatter a b rm => Enc.v 5 0 a.toNat b.toNat 0 rm.toNat 1
  | .vcopy d a rm => Enc.v 5 d.toNat a.toNat 0 0 rm.toNat 2
  | .shset d q rm => Enc.vs 6 d.toNat 0 q.code rm.toNat 0
  | .vfill d q rm => Enc.vs 6 d.toNat 0 q.code rm.code 1
  | .viota d q rm => Enc.vs 6 d.toNat 0 q.code rm.toNat 2
  | .vchain n => Enc.v 7 0 0 0 0 0 n.toNat
  | .vbulk d a rm f => Enc.v 8 d.toNat a.toNat 0 0 rm.code f.code
  | .vrun e => Enc.e 0x3E 0 e.toNat
  | .vend => Enc.e 0x3F 0 0
  | .xcopy ch a => Enc.xt 1 ch.toNat a.code 0 0 0
  | .xtile ch a b => Enc.xt 1 ch.toNat a.code b.code 0 1
  | .xmeta ch a b => Enc.xt 1 ch.toNat a.code b.code 0 2
  | .xgather ch a b => Enc.xt 1 ch.toNat a.code b.code 0 3
  | .xfill ch a b => Enc.xt 1 ch.toNat a.code b.code 0 4
  | .xred ch a b => Enc.xt 1 ch.toNat a.code b.code 0 5
  | .xsig ch a b sc => Enc.xt 2 ch.toNat a.code b.code sc.code 0
  | .xbar ch a b sc => Enc.xt 2 ch.toNat a.code b.code sc.code 1
  | .xwrap ch a b => Enc.xt 2 ch.toNat a.code b.code 0 2
  | .xrcnt ch a => Enc.xt 2 ch.toNat a.code 0 0 3
  | .xjob ch a => Enc.xt 3 ch.toNat a.code 0 0 0
  | .xfoot ch a b => Enc.xt 3 ch.toNat a.code b.code 0 1
  | .xchain ch a b sc => Enc.xt 3 ch.toNat a.code b.code sc.code 2
  | .xrun ch e => Enc.e 0x1E ch.toNat e.toNat
  | .xend => Enc.e 0x1F 0 0
  | .meNop => 0x80000000
  | .mma d a b m q => Enc.xm 0x21 d.toNat a.toNat b.toNat m.toNat q.toNat 0
  | .mmas d a b m q => Enc.xm 0x21 d.toNat a.toNat b.toNat m.toNat q.toNat 1
  | .mzero d q => Enc.xm 0x22 d.toNat 0 0 0 q.toNat 0
  | .mnarrow d a q => Enc.xm 0x22 d.toNat a.toNat 0 0 q.toNat 1
  | .mtrans d a q => Enc.xm 0x22 d.toNat a.toNat 0 0 q.toNat 2
  | .mown n q => Enc.xm 0x23 n.toNat 0 0 1 q.code 0
  | .mrel n q => Enc.xm 0x23 n.toNat 0 0 1 q.code 1
  | .msync q => Enc.xm 0x23 0 0 0 0 q.toNat 2
  | .mrun e => Enc.e 0x3E 0 e.toNat
  | .mend => Enc.e 0x3F 0 0
  | .hld d base off sp => Enc.m 1 d.toNat base.toNat off.toNat 0 sp
  | .hst d base off sp => Enc.m 2 d.toNat base.toNat off.toNat 0 sp
  | .hxor d a b => Enc.h 3 d.toNat a.toNat b.toNat 0 0
  | .hrot d a q => Enc.h 3 d.toNat a.toNat 0 q.code 1
  | .hacc d a q => Enc.h 3 d.toNat a.toNat 0 q.code 2
  | .hthr d a => Enc.h 3 d.toNat a.toNat 0 0 3
  | .hclr d => Enc.h 3 d.toNat 0 0 0 4
  | .hpop d a b => Enc.h 3 d.toNat a.toNat b.toNat 0 5
  | .hrnd d q => Enc.h 3 d.toNat 0 0 q.code 6
  | .htie a => Enc.h 3 0 a.toNat 0 0 7
  | .htieSeed q => Enc.h 3 0 0 0 q.code 8
  | .htieZero => Enc.h 3 0 0 0 0 9
  | .hclrW4 d => Enc.h 3 d.toNat 0 0 0 0x0A
  | .hclrW8 d => Enc.h 3 d.toNat 0 0 0 0x0B
  | .hrotImm d a imm => Enc.hi 4 d.toNat a.toNat imm.toNat
  | .hamw a q => Enc.h 5 0 a.toNat 0 q.code 0
  | .hamq d a q => Enc.h 5 d.toNat a.toNat 0 q.code 1
  | .hamk a q => Enc.h 5 0 a.toNat 0 q.code 2
  | .hamd q => Enc.h 5 0 0 0 q.code 3
  | _ => 0

/-- The H word of a long form (R101). -/
def encodeHi : Instr → Nat
  | .moviLong _ imm => bitsOf imm.toNat 14 32
  | .addLong _ _ imm | .andLong _ _ imm | .orLong _ _ imm | .xorLong _ _ imm | .leaLong _ _ imm =>
    bitsOf imm.toNat 14 32
  | .cmpLong _ _ _ imm => bitsOf imm.toNat 14 32
  | _ => 0

/-- Where an instruction's word stands (Table 4-1); an instruction legal in a slot and in its section is listed
under the slot; none for an event, which has no word. -/
def homeSect : Instr → Option Sect
  | .nop | .add .. | .sub .. | .mul .. | .mulh .. | .mulhU .. | .div .. | .divU .. | .rem .. | .remU ..
    | .and .. | .or .. | .xor .. | .andn .. | .shl .. | .shr .. | .sra .. | .rot .. | .min .. | .minU ..
    | .max .. | .maxU .. | .clz .. | .popc .. | .sel .. | .fadd .. | .fsub .. | .fmul .. | .ffma .. |
    .fmin .. | .fmax .. | .fcvtI64F32 .. | .fcvtF32I64 .. | .fcvtBf16F32 .. | .fcvtFp16F32 .. |
    .fcvtE4m3F32 .. | .fcvtE5m2F32 .. | .fcvtF32Bf16 .. | .fcvtF32Fp16 .. | .fcvtF32E4m3 .. |
    .fcvtF32E5m2 .. | .cmp .. | .fcmp .. | .amoAdd .. | .amoMin .. | .amoMax .. | .amoAnd .. | .amoOr ..
    | .amoXor .. | .amoSwap .. | .cas .. | .acq .. | .rel .. | .fence .. | .waita .. | .waitq .. |
    .sbarv .. | .sbwait .. | .fget .. | .ffill .. | .fqpush .. | .spawn .. | .join .. | .done | .yield |
    .wdecl .. | .wclose .. | .wflush .. | .wquery .. | .chtail .. | .jmp .. | .ret | .brx .. | .trap ..
    | .eret | .tlbinv .. | .dhop .. | .vdie .. | .trc .. | .srd .. | .swr .. | .fstat .. | .rngs .. |
    .wmarm .. | .chOrg .. | .tiesw .. | .waitc .. | .shlImm .. | .shrImm .. | .sraImm .. | .rotImm .. |
    .movi .. | .moviLong .. | .addImm .. | .addLong .. | .andImm .. | .andLong .. | .orImm .. | .orLong
    .. | .xorImm .. | .xorLong .. | .lea .. | .leaLong .. | .bfx .. | .bfi .. | .loop .. | .cmpImm .. |
    .cmpLong .. | .ld .. | .ldU .. | .st .. | .pref .. | .br .. | .call ..
    => some .s
  | .vadd .. | .vsub .. | .vmul .. | .vmin .. | .vmax .. | .vfma .. | .vsel .. | .vand .. | .vor .. |
    .vxor .. | .vshl .. | .vshr .. | .vabs .. | .vneg .. | .vcmp .. | .vaddVs .. | .vsubVs .. | .vmulVs
    .. | .vminVs .. | .vmaxVs .. | .vandVs .. | .vorVs .. | .vxorVs .. | .vshlVs .. | .vshrVs .. |
    .vcmpVs .. | .vcvt .. | .vquant .. | .vdeq .. | .vexp2 .. | .vlog2 .. | .vrcp .. | .vrsqrt .. |
    .vtanh .. | .vrsum .. | .vrmax .. | .vamax .. | .vscan .. | .vgather .. | .vscatter .. | .vcopy .. |
    .shset .. | .vfill .. | .viota .. | .vbulk .. | .vrun ..
    => some .v
  | .vchain .. | .vend
    => some .vsec
  | .xcopy .. | .xtile .. | .xmeta .. | .xgather .. | .xfill .. | .xred .. | .xsig .. | .xbar .. |
    .xwrap .. | .xrcnt .. | .xjob .. | .xfoot .. | .xchain .. | .xrun .. | .meNop | .mma .. | .mmas .. |
    .mzero .. | .mnarrow .. | .mtrans .. | .mown .. | .mrel .. | .msync .. | .mrun ..
    => some .x
  | .xend
    => some .xsec
  | .mend
    => some .msec
  | .hld .. | .hst .. | .hxor .. | .hrot .. | .hacc .. | .hthr .. | .hclr .. | .hpop .. | .hrnd .. |
    .htie .. | .htieSeed .. | .htieZero | .hclrW4 .. | .hclrW8 .. | .hrotImm .. | .hamw .. | .hamq .. |
    .hamk .. | .hamd ..
    => some .h
  | _ => none

/-- Whether the word needs its S slot and the H slot together (R101). -/
def isLong : Instr → Bool
  | .moviLong .. | .addLong .. | .andLong .. | .orLong .. | .xorLong .. | .leaLong .. | .cmpLong .. => true
  | _ => false

/-- The first map that reads a word, and what it reads. -/
def firstOk : List (Sect × Dec) → Option (Sect × Instr)
  | [] => none
  | (c, .ok i) :: _ => some (c, i)
  | (_, .error _) :: r => firstOk r

/-- The maps by which the bits `w` of a table row can be read: the first word is bits 31:0, and a long form's H word is
bits 63:32. The maps share their words (R112), and a row does not say its map; the maps that leave the fewest bits free
come first (notes/assumptions/60.md). -/
def tableMaps (w : Nat) : List (Sect × Dec) :=
  let lo := bitsOf w 0 32
  let hi := bitsOf w 32 32
  let s : Sect × Dec := (.s, if isLongOp (bitsOf lo 26 6) then decodeLong lo hi else decodeS lo)
  if lo = 0 ∨ hi ≠ 0 then [s]
  else
    [(.v, decodeV false lo), (.x, decodeX lo), (.h, decodeH lo), s, (.vsec, decodeV true lo), (.xsec, decodeXT true lo),
      (.msec, decodeXM true lo)]

/-- The instruction read from the bits `w` of a table row. -/
def decodeTableWord (_nbits w : Nat) : Option Instr := (firstOk (tableMaps w)).map fun x => x.2

end Sys2Proof
end

