-- ==== Sys2Proof/Config.lean ====
section
/-! DEFINITION. What an implementation fixes, and the free values: opaque constants, so that nothing
can evaluate them and a claim holds whatever they are (R15; notes/assumptions/2.md, 3.md, 4.md). -/

namespace Sys2Proof.Config

/-- Byte `a` of an undefined content numbered `k` (R15). -/
opaque freeByte : Nat → Nat → BitVec 8

/-- A free 64-bit value numbered `k` (R15). -/
opaque freeWord : Nat → BitVec 64

/-- A free hypervector numbered `k` (R15, R40). -/
opaque freeHv : Nat → BitVec 4096

/-- VEXP2, VLOG2, VRCP, VRSQRT and VTANH on the finite inputs for which R65 gives only a bound. -/
opaque transFree : Trans → BitVec 32 → BitVec 32

/-- Of the four harvested core sites of a C-die, how many enabled sites stand below site `i` (R2, R4). -/
opaque harvested : Nat → Nat → Nat

/-- The physical core site of a logical core on its C-die (R4, Table 1-6): the enabled sites in ascending order, 44 of
the 48. -/
def coreSite (n : Nat) : BitVec 6 :=
  BitVec.ofNat 6 (n % 44 + ((List.range 4).filter fun i => decide (harvested (n / 44) i % 45 ≤ n % 44)).length)

/-- The set of an L2 slice that a line goes to: 1,024 sets (R253 gives no index function). -/
opaque l2Set : Nat → BitVec 10

/-- PART and STEP of DEVID: the stepping is per device (Table 18-7). -/
opaque stepping : BitVec 8

/-- The SVN fused at manufacture (R322, Table 18-7). -/
opaque fusedSvn : BitVec 8

/-- ROSC0 of a die, fused at manufacture (R363). -/
opaque rosc0 : Nat → BitVec 16

/-- SHA-384 of a byte string, named by R322 and not defined there. -/
opaque sha384 : List (BitVec 8) → BitVec 384

/-- The SHA-384 digest of a public key that is held in fuses (R322): 0 ECDSA, 1 LMS. -/
opaque fusedKeyDigest : Nat → BitVec 384

/-- The serial number of the device (R323). -/
opaque serial : BitVec 64

/-- The digest of the boot ROM (R322, step 7). -/
opaque romDigest : BitVec 384

/-- ECDSA P-384 verification of a digest under a public key (R322). -/
opaque ecdsaVerify : List (BitVec 8) → BitVec 384 → List (BitVec 8) → Bool

/-- LMS verification of a digest under a public key (R322). -/
opaque lmsVerify : List (BitVec 8) → BitVec 384 → List (BitVec 8) → Bool

/-- The device's ECDSA signature of a report (R323). -/
opaque ecdsaSign : List (BitVec 8) → List (BitVec 8)

/-- The device's LMS signature of a report with a leaf index (R323). -/
opaque lmsSign : Nat → List (BitVec 8) → List (BitVec 8)

/-- The report version of ATTEST (R323). -/
opaque reportVersion : Nat

/-- The report of ATTEST over report version, nonce, serial number, MEAS0, MEAS1, SVN and FRAME_CLK: R323 names its
fields and gives no layout. -/
opaque report : Nat → List (BitVec 8) → BitVec 64 → BitVec 384 → BitVec 384 → BitVec 8 → Nat → List (BitVec 8)

/-- The address of the DEVSTAT image that MEMRD reads in recovery: R324 names it and does not say where it stands. -/
opaque devstatPa : BitVec 54
def devstatImage : Nat := devstatPa.toNat

/-- INFO of a DACK for a VC and a message number: R331 leaves it to the message. -/
opaque dackInfo : Nat → Nat → BitVec 48

/-- What an AMO, a CAS or an XRED message asks for, by its code and its INFO, which R331 leaves to the message: the
operation in [2:0], unsigned in [3], the element type of an XRED in [8:4]. -/
opaque msgOp : Nat → Nat → BitVec 9

/-- What a SYNC message names by its INFO (R332): 0 SBARV, 1 SBWAIT, 2 FFILL, 3 FGET. -/
opaque syncOp : Nat → BitVec 2

/-- The ERR of a reply to a SYNC message whose request its home refuses with a fault, by the fault's code: R331 gives none. -/
opaque syncErr : Nat → BitVec 3

/-- By how much a droop stretches a compute-clock cycle, in eighths of a FRAME_CLK cycle: R365 gives no amount. -/
opaque stretchEighths : Nat

/-- The bytes held in the package flash at power-on (R322). -/
opaque flashImage : List (BitVec 8)

end Sys2Proof.Config
end

