-- ==== Sys2Proof/Machine/Fp.lean ====
section
/-! DEFINITION. Number formats and arithmetic (02_numbers_and_arithmetic, R46-R67): exact dyadic values, one
rounding, the shared special-value rules. A value that is rounded is exact until the one rounding. -/

namespace Sys2Proof.Machine

/-- How the all-ones exponent of a format reads (Table 2-1). -/
inductive FKind
  | ieee | e4m3 | plain
  deriving DecidableEq, Repr

/-- A row of Table 2-1. -/
structure FFmt where
  ew : Nat
  mw : Nat
  bias : Nat
  kind : FKind
  deriving DecidableEq, Repr

def fp32 : FFmt := ⟨8, 23, 127, .ieee⟩
def bf16 : FFmt := ⟨8, 7, 127, .ieee⟩
def fp16 : FFmt := ⟨5, 10, 15, .ieee⟩
def e4m3 : FFmt := ⟨4, 3, 7, .e4m3⟩
def e5m2 : FFmt := ⟨5, 2, 15, .ieee⟩
def e2m3 : FFmt := ⟨2, 3, 1, .plain⟩
def e3m2 : FFmt := ⟨3, 2, 3, .plain⟩
def e2m1 : FFmt := ⟨2, 1, 1, .plain⟩

/-- A decoded value: NaN, infinity, or plus or minus `m * 2 ^ e` (R46, R47). -/
inductive FVal
  | nan (sig : Bool)
  | inf (neg : Bool)
  | fin (neg : Bool) (m : Nat) (e : Int)
  deriving DecidableEq, Repr

/-- The exception flags that one operation raises (R60). -/
structure FFlags where
  nv : Bool := false
  dz : Bool := false
  ov : Bool := false
  uf : Bool := false
  nx : Bool := false
  deriving DecidableEq, Repr

/-- Flags are sticky: those of two operations together. -/
def FFlags.join (a b : FFlags) : FFlags :=
  ⟨a.nv || b.nv, a.dz || b.dz, a.ov || b.ov, a.uf || b.uf, a.nx || b.nx⟩

/-- Bits of one element. -/
def FFmt.bits (f : FFmt) : Nat := 1 + f.ew + f.mw

/-- The bits of the largest finite magnitude (Table 2-1). -/
def FFmt.maxFin (f : FFmt) : Nat :=
  match f.kind with
  | .ieee => (2 ^ f.ew - 1) * 2 ^ f.mw - 1
  | .e4m3 => 0x7E
  | .plain => 2 ^ (f.ew + f.mw) - 1

/-- The default NaN (Table 2-2); a format without NaN never produces one. -/
def FFmt.dnan (f : FFmt) : Nat :=
  match f.kind with
  | .ieee => (2 ^ f.ew - 1) * 2 ^ f.mw + 2 ^ (f.mw - 1)
  | .e4m3 => 0x7F
  | .plain => 0

/-- A sign bit in place. -/
def FFmt.sgn (f : FFmt) (neg : Bool) : Nat := neg.toNat * 2 ^ (f.ew + f.mw)

/-- Infinity of a sign; E4M3 has none and gives its NaN (R59). -/
def FFmt.infBits (f : FFmt) (neg : Bool) : Nat :=
  match f.kind with
  | .ieee => f.sgn neg + (2 ^ f.ew - 1) * 2 ^ f.mw
  | _ => f.dnan

/-- The value of a bit pattern (R46, R47). -/
def FFmt.decode (f : FFmt) (w : Nat) : FVal :=
  let neg := bitsOf w (f.ew + f.mw) 1 == 1
  let e := bitsOf w f.mw f.ew
  let m := bitsOf w 0 f.mw
  let num : FVal :=
    if e = 0 then .fin neg m (1 - (f.bias : Int) - f.mw)
    else .fin neg (2 ^ f.mw + m) ((e : Int) - f.bias - f.mw)
  match f.kind with
  | .plain => num
  | .e4m3 => if e = 15 ∧ m = 7 then .nan false else num
  | .ieee =>
    if e = 2 ^ f.ew - 1 then (if m = 0 then .inf neg else .nan (m < 2 ^ (f.mw - 1))) else num

/-- The increment decision on a magnitude `m` of which the low `n` bits are discarded (Table 2-6, R61). -/
def roundUp (rm : RMode) (w : Nat) (neg : Bool) (m n : Nat) : Bool :=
  let rem := m % 2 ^ n
  match rm with
  | .rne => decide (rem * 2 > 2 ^ n) || (decide (rem * 2 = 2 ^ n) && m / 2 ^ n % 2 == 1)
  | .rz => false
  | .ru => !neg && rem != 0
  | .rd => neg && rem != 0
  | .sr =>
    let k := Nat.min n 16
    decide (rem / 2 ^ (n - k) + bitsOf w (32 - k) k ≥ 2 ^ k)

/-- `m * 2 ^ e` as a count of `2 ^ q`: rounded magnitude and whether bits were lost. -/
def roundTo (rm : RMode) (w : Nat) (neg : Bool) (m : Nat) (e q : Int) : Nat × Bool :=
  if q ≤ e then (m * 2 ^ (e - q).toNat, false)
  else
    let n := (q - e).toNat
    (m / 2 ^ n + (roundUp rm w neg m n).toNat, m % 2 ^ n != 0)

/-- Finite overflow (Table 2-6); `sat` is the saturation of R52. -/
def FFmt.overflow (f : FFmt) (rm : RMode) (sat neg : Bool) : Nat :=
  let big := f.sgn neg + f.maxFin
  if sat || f.kind != .ieee then big
  else
    match rm with
    | .rne | .sr => f.infBits neg
    | .rz => big
    | .ru => if neg then big else f.infBits neg
    | .rd => if neg then f.infBits neg else big

/-- One rounding of a finite value into a format (R59-R61). -/
def FFmt.roundFin (f : FFmt) (rm : RMode) (w : Nat) (sat neg : Bool) (m : Nat) (e : Int) : Nat × FFlags :=
  if m = 0 then (f.sgn neg, {})
  else
    let qmin := 1 - (f.bias : Int) - f.mw
    let q := Max.max qmin ((m.log2 : Int) + e - f.mw)
    let r := roundTo rm w neg m e q
    let mag := (q - qmin).toNat * 2 ^ f.mw + r.1
    if mag > f.maxFin then (f.overflow rm sat neg, { ov := true, nx := true })
    else (f.sgn neg + mag, { uf := r.2 && mag != 0 && decide (mag < 2 ^ f.mw), nx := r.2 })

/-- One rounding of any value: conversion into a format (R59). `sat` is the saturation of R52. -/
def FFmt.round (f : FFmt) (rm : RMode) (w : Nat) (v : FVal) (sat : Bool := false) : Nat × FFlags :=
  match v with
  | .nan s => (f.dnan, { nv := s })
  | .inf neg => (f.infBits neg, { nv := f.kind == .e4m3 })
  | .fin neg m e => f.roundFin rm w sat neg m e

/-- rne32 of R56. -/
def rne32 (v : FVal) : Nat × FFlags := fp32.round .rne 0 v

def FVal.isNan : FVal → Bool
  | .nan _ => true
  | _ => false

def FVal.isSig : FVal → Bool
  | .nan s => s
  | _ => false

def FVal.isZero : FVal → Bool
  | .fin _ m _ => m == 0
  | _ => false

def FVal.isInf : FVal → Bool
  | .inf _ => true
  | _ => false

def FVal.sign : FVal → Bool
  | .nan _ => false
  | .inf n => n
  | .fin n _ _ => n

def FVal.neg : FVal → FVal
  | .nan s => .nan s
  | .inf n => .inf (!n)
  | .fin n m e => .fin (!n) m e

def FVal.abs : FVal → FVal
  | .nan s => .nan s
  | .inf _ => .inf false
  | .fin _ m e => .fin false m e

/-- The value as an integer count of `2 ^ q`, for q at most its exponent. -/
def FVal.at (neg : Bool) (m : Nat) (e q : Int) : Int :=
  let a : Int := m * 2 ^ (e - q).toNat
  if neg then -a else a

/-- Exact addition (R48): the sign of an exact zero depends on the mode. NV for signalling operands and for
infinities of opposite sign. -/
def FVal.add (rm : RMode) (x y : FVal) : FVal × FFlags :=
  match x, y with
  | .nan s, .nan t => (.nan false, { nv := s || t })
  | .nan s, _ => (.nan false, { nv := s })
  | _, .nan s => (.nan false, { nv := s })
  | .inf a, .inf b => if a = b then (.inf a, {}) else (.nan false, { nv := true })
  | .inf a, _ => (.inf a, {})
  | _, .inf b => (.inf b, {})
  | .fin a m e, .fin b n f =>
    let q := Min.min e f
    let s := FVal.at a m e q + FVal.at b n f q
    if s = 0 then
      (.fin (if m = 0 ∧ n = 0 ∧ a = b then a else rm == .rd) 0 q, {})
    else (.fin (decide (s < 0)) s.natAbs q, {})

/-- Exact multiplication. NV for signalling operands and for zero times infinity. -/
def FVal.mul (x y : FVal) : FVal × FFlags :=
  match x, y with
  | .nan s, .nan t => (.nan false, { nv := s || t })
  | .nan s, _ => (.nan false, { nv := s })
  | _, .nan s => (.nan false, { nv := s })
  | .inf a, .inf b => (.inf (a != b), {})
  | .inf a, .fin b n _ => if n = 0 then (.nan false, { nv := true }) else (.inf (a != b), {})
  | .fin a m _, .inf b => if m = 0 then (.nan false, { nv := true }) else (.inf (a != b), {})
  | .fin a m e, .fin b n f => (.fin (a != b) (m * n) (e + f), {})

/-- An exact result and its flags, rounded once into a format. -/
def FFmt.finish (f : FFmt) (rm : RMode) (w : Nat) (r : FVal × FFlags) : Nat × FFlags :=
  let o := f.round rm w r.1
  (o.1, r.2.join o.2)

/-- x + y in a format's result (R49). -/
def fAdd (f : FFmt) (rm : RMode) (w : Nat) (x y : FVal) : Nat × FFlags := f.finish rm w (FVal.add rm x y)

/-- x - y. -/
def fSub (f : FFmt) (rm : RMode) (w : Nat) (x y : FVal) : Nat × FFlags := f.finish rm w (FVal.add rm x y.neg)

/-- x * y. -/
def fMul (f : FFmt) (rm : RMode) (w : Nat) (x y : FVal) : Nat × FFlags := f.finish rm w (FVal.mul x y)

/-- x * y + z with one rounding (R49). -/
def fFma (f : FFmt) (rm : RMode) (w : Nat) (x y z : FVal) : Nat × FFlags :=
  let p := FVal.mul x y
  let s := FVal.add rm p.1 z
  f.finish rm w (s.1, p.2.join s.2)

/-- FP32 addition in RNE on patterns, the step of every reduction (R67). -/
def add32 (x y : Nat) : Nat × FFlags := fAdd fp32 .rne 0 (fp32.decode x) (fp32.decode y)

/-- FP32 multiplication in RNE on patterns (R58). -/
def mul32 (x y : Nat) : Nat × FFlags := fMul fp32 .rne 0 (fp32.decode x) (fp32.decode y)

/-- The total order of R64 on non-NaN values: -0 below +0. Both sides as counts of one power of two. -/
def FVal.le (x y : FVal) : Bool :=
  match x, y with
  | .inf a, .inf b => a || !b
  | .inf a, _ => a
  | _, .inf b => !b
  | .fin a m e, .fin b n f =>
    let q := Min.min e f
    let l := FVal.at a m e q
    let r := FVal.at b n f q
    decide (l < r) || (decide (l = r) && (a || !b))
  | _, _ => false

/-- MIN and MAX of Table 2-8. -/
def fMinMax (wantMax : Bool) (x y : FVal) : FVal × FFlags :=
  if x.isSig || y.isSig then (.nan false, { nv := true })
  else
    match x, y with
    | .nan _, _ => if y.isNan then (.nan false, {}) else (y, {})
    | _, .nan _ => (x, {})
    | _, _ => if wantMax then (if x.le y then (y, {}) else (x, {})) else (if x.le y then (x, {}) else (y, {}))

/-- IEEE comparison (R64): -0 equals +0. Numbers only. -/
def FVal.eq (x y : FVal) : Bool := (x.isZero && y.isZero) || (x.le y && y.le x)

/-- A comparison of the FCMP column of Table 5-4; NV only for a signalling NaN (R64, R132). -/
def fCompare (c : FCond) (x y : FVal) : Bool × FFlags :=
  let un := x.isNan || y.isNan
  let eq := !un && x.eq y
  let lt := !un && !eq && x.le y
  let r :=
    match c with
    | .eq => eq
    | .ne => !eq
    | .lt => lt
    | .ge => !un && !lt
    | .le => lt || eq
    | .gt => !un && !lt && !eq
    | .un => un
    | .ord => !un
  (r, { nv := x.isSig || y.isSig })

/-- Rounding to an integer (R61 with quantum 1): the signed result and whether bits were lost. -/
def roundInt (rm : RMode) (w : Nat) (neg : Bool) (m : Nat) (e : Int) : Int × Bool :=
  let r := roundTo rm w neg m e 0
  (if neg then -(r.1 : Int) else r.1, r.2)

/-- Conversion to an integer of a range: saturating, NaN to `onNan`, NV where it saturates or meets a NaN; NX where
bits are lost within the range (R131, R161). -/
def toIntSat (rm : RMode) (w : Nat) (lo hi onNan : Int) (v : FVal) : Int × FFlags :=
  match v with
  | .nan _ => (onNan, { nv := true })
  | .inf neg => (if neg then lo else hi, { nv := true })
  | .fin neg m e =>
    let r := roundInt rm w neg m e
    if r.1 < lo then (lo, { nv := true })
    else if r.1 > hi then (hi, { nv := true })
    else (r.1, { nx := r.2 })

/-- An integer as an exact value. -/
def intVal (i : Int) : FVal := .fin (decide (i < 0)) i.natAbs 0

/-- One step of the xorshift32 generator (R62). -/
def xorshift (x : BitVec 32) : BitVec 32 :=
  let x := x ^^^ (x <<< 13)
  let x := x ^^^ (x >>> 17)
  x ^^^ (x <<< 5)

/-- The word of lane `i` of a group (R62). -/
def laneWord (w : BitVec 32) (i : Nat) : Nat := (w.rotateLeft ((5 * i) % 32)).toNat

/-! ## Block scales (R50-R52) -/

/-- The element kinds of MX blocks (R50). -/
inductive MxElem
  | flt (f : FFmt)
  | int (k : Nat)
  deriving DecidableEq, Repr

/-- Table 2-3. -/
def MxElem.emax : MxElem → Int
  | .flt f => if f = e4m3 then 8 else if f = e5m2 then 15 else if f = e3m2 then 4 else 2
  | .int _ => 0

/-- A `k`-bit two's-complement code as an integer. -/
def sextNat (k w : Nat) : Int := if bitsOf w (k - 1) 1 = 1 then (bitsOf w 0 k : Int) - 2 ^ k else bitsOf w 0 k

/-- The value of an element code before the block scale (R50). -/
def MxElem.decode (el : MxElem) (w : Nat) : FVal :=
  match el with
  | .flt f => f.decode w
  | .int k => let q := sextNat k w; .fin (decide (q < 0)) q.natAbs (-((k : Int) - 2))

/-- The scaled value: times `2 ^ s`. -/
def FVal.scale (v : FVal) (s : Int) : FVal :=
  match v with
  | .fin n m e => .fin n m (e + s)
  | _ => v

/-- to_element of R52. -/
def MxElem.encode (el : MxElem) (rm : RMode) (w : Nat) (v : FVal) : Nat × FFlags :=
  match el with
  | .flt f => f.round rm w v true
  | .int k =>
    match v with
    | .fin neg m e =>
      let r := roundInt rm w neg m (e + ((k : Int) - 2))
      let lim : Int := 2 ^ (k - 1) - 1
      let q := if r.1 > lim then lim else if r.1 < -lim then -lim else r.1
      ((q % 2 ^ k).toNat, { ov := decide (q ≠ r.1), nx := decide (q ≠ r.1) || r.2 })
    | _ => (0, {})

/-- floor(log2) of the largest magnitude of a block of numbers; none when all are zero. -/
def amaxLog : List FVal → Option Int
  | [] => none
  | .fin _ m e :: r =>
    if m = 0 then amaxLog r
    else
      match amaxLog r with
      | none => some ((m.log2 : Int) + e)
      | some k => some (Max.max k ((m.log2 : Int) + e))
  | _ :: r => amaxLog r

/-- What quantising one block gives: the scale code, the element codes, the flags and SCALE_UF. -/
structure Quant where
  code : Nat
  elems : List Nat
  flags : FFlags
  scaleUf : Bool
  deriving DecidableEq, Repr

/-- One block of VQUANT (R51): each element beside its lane word. -/
def quantBlock (el : MxElem) (rm : RMode) (xs : List (FVal × Nat)) : Quant :=
  if xs.any fun x => x.1.isNan || x.1.isInf then
    ⟨255, xs.map fun _ => 0, { nv := xs.any fun x => x.1.isSig || x.1.isInf }, false⟩
  else
    match amaxLog (xs.map (·.1)) with
    | none => ⟨0, xs.map fun _ => 0, {}, false⟩
    | some l =>
      let raw := l - el.emax
      let s := Max.max raw (-127)
      let rs := xs.map fun x => el.encode rm x.2 (x.1.scale (-s))
      ⟨(s + 127).toNat, rs.map (·.1), rs.foldl (fun f r => f.join r.2) {}, decide (raw < -127)⟩

/-! ## Exact block sums (R56) -/

/-- A sum of exact finite values at a common power of two. -/
def sumExact : List (Bool × Nat × Int) → Int × Int
  | [] => (0, 0)
  | (n, m, e) :: r =>
    let s := sumExact r
    let q := Min.min e s.2
    (FVal.at n m e q + s.1 * 2 ^ (s.2 - q).toNat, q)

/-- One block of an MMA (R56): the pairs of element values, the two scale codes (127 for unscaled formats), the
block's contribution and its flags. -/
def blockTerm (ab : List (FVal × FVal)) (ca cb : Nat) : Nat × FFlags :=
  if ca = 255 ∨ cb = 255 ∨ ab.any (fun p => p.1.isNan || p.2.isNan) then
    (fp32.dnan, { nv := ab.any fun p => p.1.isSig || p.2.isSig })
  else if ab.any fun p => (p.1.isInf && p.2.isZero) || (p.1.isZero && p.2.isInf) then
    (fp32.dnan, { nv := true })
  else
    let infs := ab.filterMap fun p =>
      if p.1.isInf || p.2.isInf then some (p.1.sign != p.2.sign) else none
    if infs.contains true && infs.contains false then (fp32.dnan, { nv := true })
    else
      match infs with
      | n :: _ => (fp32.infBits n, {})
      | [] =>
        let s := sumExact (ab.filterMap fun p =>
          match (FVal.mul p.1 p.2).1 with
          | .fin n m e => some (n, m, e)
          | _ => none)
        if s.1 = 0 then (0, {})
        else rne32 (.fin (decide (s.1 < 0)) s.1.natAbs (s.2 + ((ca : Int) - 127) + ((cb : Int) - 127)))

/-! ## Transcendental functions (R65): exact and special inputs, and the published bound elsewhere -/

/-- Fixed-point one: 128 fraction bits. -/
def fxOne : Nat := 2 ^ 128

/-- floor(ln 2 * 2^128). -/
def fxLn2 : Nat := 235865763225513294137944142764154484399

/-- floor(log2 e * 2^128). -/
def fxLog2e : Nat := 490923683258796565746369346286093237521

/-- e^y for a fixed-point y below 1: the series term by term. -/
def fxExpSeries (y : Nat) : Nat → Nat → Nat → Nat
  | 0, _, _ => 0
  | n + 1, k, t => t + fxExpSeries y n (k + 1) (t * y / fxOne / k)

/-- 2^x for x = i + f, f fixed-point: a mantissa and a power of two, to about 120 bits. -/
def fxExp2 (x : Int) : Nat × Int :=
  (fxExpSeries ((x % fxOne).toNat * fxLn2 / fxOne) 40 1 fxOne, x / fxOne - 128)

/-- Integer square root by bits from `2 ^ (n - 1)` down. -/
def isqrtBits (x : Nat) : Nat → Nat → Nat
  | 0, r => r
  | n + 1, r => let c := r + 2 ^ n; isqrtBits x n (if c * c ≤ x then c else r)

/-- The fraction bits of log2 z, z in [1, 2) fixed-point, by squaring. -/
def fxLogBits (z : Nat) : Nat → Nat → Nat
  | 0, acc => acc
  | n + 1, acc =>
    let z2 := z * z / fxOne
    if z2 ≥ 2 * fxOne then fxLogBits (z2 / 2) n (acc * 2 + 1) else fxLogBits z2 n (acc * 2)

/-- `m * 2 ^ e` in fixed point, clamped to magnitude 256 (every use saturates before it). -/
def fxOf (m : Nat) (e : Int) : Nat :=
  if (m.log2 : Int) + e ≥ 8 then 256 * fxOne
  else if e + 128 ≥ 0 then m * 2 ^ (e + 128).toNat else m / 2 ^ (-(e + 128)).toNat

/-- The true value of a function at a finite non-special input, to at least 2^-48 relative: sign, mantissa, power. -/
def transApprox (t : Trans) (neg : Bool) (m : Nat) (e : Int) : Bool × Nat × Int :=
  match t with
  | .exp2 =>
    let x : Int := fxOf m e
    let r := fxExp2 (if neg then -x else x)
    (false, r.1, r.2)
  | .log2 =>
    let l := m.log2
    let z := m * 2 ^ (128 - l)
    let v : Int := ((l : Int) + e) * 2 ^ 80 + fxLogBits z 80 0
    (decide (v < 0), v.natAbs, -80)
  | .rcp => (neg, 2 ^ 200 / m, -200 - e)
  | .rsqrt =>
    let m2 := if e % 2 = 0 then m else m * 2
    let e2 := if e % 2 = 0 then e else e - 1
    (false, isqrtBits (2 ^ 400 / m2) 200 0, -200 - e2 / 2)
  | .tanh =>
    if (m.log2 : Int) + e < -8 then
      let x2 := (let x := fxOf m e; x * x / fxOne)
      let x4 := x2 * x2 / fxOne
      (neg, (fxOne - x2 / 3 + 2 * x4 / 15 - 17 * (x4 * x2 / fxOne) / 315) * m, e - 128)
    else
      let x := Nat.min (fxOf m e) (40 * fxOne)
      let r := fxExp2 ((2 * x * fxLog2e / fxOne : Nat) : Int)
      let d := r.1 * 2 ^ (r.2 + 128).toNat + fxOne
      (neg, fxOne - 2 * fxOne * fxOne / d, -128)

/-- The published bound in FP32 ulps (Table 2-9). -/
def transUlps : Trans → Nat
  | .exp2 | .log2 | .tanh => 2
  | .rcp | .rsqrt => 1

/-- The approximation of a true value is within 2^-k ulp of it; for the algebraic functions closer than any FP32 value
can lie to the bound. -/
def transBits : Trans → Nat
  | .rcp | .rsqrt => 80
  | _ => 32

/-- On which side of an FP32 value that it all but reaches the magnitude of a true value lies: below it for VTANH (of |x|,
and of 1) and for VEXP2 of a negative number (of 1). -/
def transBelow (t : Trans) (neg : Bool) : Bool := t == .tanh || (t == .exp2 && neg)

/-- The FP32 ulp at a magnitude of `x` units of `2 ^ c`, in those units; just below it, if `low`. -/
def ulpAt (x : Nat) (c : Int) (low : Bool) : Nat :=
  let l := if low && x == 2 ^ x.log2 then x.log2 - 1 else x.log2
  2 ^ (Max.max (-149) ((l : Int) + c - 23) - c).toNat

/-- Pattern `r` lies within the bound of the true value (Table 2-9). A true value that all but reaches an FP32 value `g` lies
strictly on one side of it, so that one end of the bound around `g` is inside and the other is not; elsewhere `r` lies
within the bound by more than the approximation's own error. -/
def withinBound (t : Trans) (neg : Bool) (a : Bool × Nat × Int) (r : Nat) : Bool :=
  match fp32.decode r with
  | .fin n m e =>
    let k := transBits t
    let c := Min.min (-150 - (k : Int)) (Min.min e (a.2.2 - k))
    let x := (FVal.at false a.2.1 a.2.2 c).natAbs
    let y := FVal.at (n != a.1) m e c
    let u := ulpAt x c false
    let g := (x + u / 2) / u * u
    if ((x : Int) - g).natAbs * 2 ^ k < u then
      let low := transBelow t neg && g != 0
      let w : Int := transUlps t * ulpAt g c low
      if low then decide (-w ≤ y - g ∧ y - g < w) else decide (-w < y - g ∧ y - g ≤ w)
    else decide ((y - x).natAbs * 2 ^ k + u ≤ transUlps t * 2 ^ k * u)
  | _ => false

/-- A power of two: its exponent. -/
def log2Exact (m : Nat) (e : Int) : Option Int := if m = 2 ^ m.log2 then some ((m.log2 : Int) + e) else none

/-- Exact inputs of R65: where the true value is an FP32 number. -/
def transExact (t : Trans) (neg : Bool) (m : Nat) (e : Int) : Option FVal :=
  match t with
  | .exp2 =>
    if m = 0 then some (.fin false 1 0)
    else if e ≥ 0 ∨ m % 2 ^ (-e).toNat = 0 then
      let k : Int := if e ≥ 0 then m * 2 ^ (Min.min e 10).toNat else m / 2 ^ (-e).toNat
      let k := if neg then -k else k
      if -149 ≤ k ∧ k ≤ 127 then some (.fin false 1 k) else none
    else none
  | .log2 => if neg ∨ m = 0 then none else (log2Exact m e).map intVal
  | .rcp =>
    match log2Exact m e with
    | some k => if -127 ≤ k ∧ k ≤ 127 then some (.fin neg 1 (-k)) else none
    | none => none
  | .rsqrt =>
    match log2Exact m e with
    | some k => if !neg ∧ k % 2 = 0 ∧ -148 ≤ k ∧ k ≤ 126 then some (.fin false 1 (-(k / 2))) else none
    | none => none
  | .tanh => if m = 0 then some (.fin neg 0 0) else none

/-- F of R65 on an FP32 value with the flags judged at FP32. Inside the bound the value is free. -/
def transF (t : Trans) (v : FVal) : FVal × FFlags :=
  match v with
  | .nan s => (.nan false, { nv := s })
  | .inf neg =>
    match t with
    | .exp2 => (if neg then .fin false 0 0 else .inf false, {})
    | .log2 => if neg then (.nan false, { nv := true }) else (.inf false, {})
    | .rcp => (.fin neg 0 0, {})
    | .rsqrt => if neg then (.nan false, { nv := true }) else (.fin false 0 0, {})
    | .tanh => (.fin neg 1 0, {})
  | .fin neg m e =>
    match transExact t neg m e with
    | some r => (r, {})
    | none =>
      if m = 0 then
        match t with
        | .log2 => (.inf true, { dz := true })
        | _ => (.inf neg, { dz := true })
      else if neg && (t == .log2 || t == .rsqrt) then (.nan false, { nv := true })
      else if t == .exp2 && !neg && decide ((m.log2 : Int) + e ≥ 7) then (.inf false, { ov := true, nx := true })
      else if t == .rcp && decide (m * (2 ^ 24 - 1) * 2 ^ (e + 253).toNat < 2 ^ 149) then
        (.inf neg, { ov := true, nx := true })
      else
        let a := transApprox t neg m e
        let x := (fp32.roundFin .rne 0 false neg m e).1
        let free := (Config.transFree t (BitVec.ofNat 32 x)).toNat
        let r := if withinBound t neg a free then free else (fp32.roundFin .rne 0 false a.1 a.2.1 a.2.2).1
        let mag := r % 2 ^ 31
        (fp32.decode r, { uf := mag != 0 && decide (mag < 2 ^ 23), nx := true })

end Sys2Proof.Machine
end

