-- ==== Sys2Proof/Machine/Mem.lean ====
section
/-! DEFINITION. Byte memories in one canonical form: cells at strictly rising addresses, and, where an unlisted
address reads as zero, no cell that holds zero. Wider accesses are little-endian (R11) and built here only. -/

namespace Sys2Proof.Machine

/-- What an address that no cell lists reads as. `zero`: 0 (notes/assumptions/1.md). `free k`: a content that the
manual calls undefined (R15, R32): free bytes numbered `k`. -/
inductive Fill
  | zero
  | free (k : Nat)
  deriving DecidableEq, Repr

/-- The byte of an unlisted address. -/
def Fill.byte : Fill → Nat → Byte
  | .zero, _ => 0
  | .free k, a => Config.freeByte k a

/-- A byte-addressed store. -/
structure Memory where
  /-- The bytes that differ from the fill, addresses strictly rising. -/
  cells : List Host.Cell
  /-- What every other address reads as. -/
  fill : Fill
  deriving DecidableEq, Repr

/-- The byte that a list of cells holds at an address. -/
def cellAt : List Host.Cell → Nat → Option Byte
  | [], _ => none
  | (x, b) :: r, a => if x = a then some b else cellAt r a

/-- Addresses strictly rising above a bound. -/
def risingFrom : Nat → List Host.Cell → Bool
  | _, [] => true
  | k, (a, _) :: r => decide (k ≤ a) && risingFrom (a + 1) r

/-- The cells of a range of addresses. -/
def inRange (l : List Host.Cell) (a n : Nat) : List Host.Cell := l.filter fun c => decide (a ≤ c.1 ∧ c.1 < a + n)

/-- The cells of a run of bytes; in a zero-filled store (`z`) a zero byte needs none. -/
def runCells (z : Bool) : Nat → List Byte → List Host.Cell
  | _, [] => []
  | a, b :: r => if z && b == 0 then runCells z (a + 1) r else (a, b) :: runCells z (a + 1) r

/-- Cells with the bytes from `a` on replaced; every byte is listed. -/
def putCells (l : List Host.Cell) (a : Nat) (bs : List Byte) : List Host.Cell :=
  l.filter (fun c => c.1 < a) ++ runCells false a bs ++ l.filter (fun c => a + bs.length ≤ c.1)

/-- Bytes from `a` on of a rising list without addresses below `a`. -/
def runBytes (fill : Fill) : List Host.Cell → Nat → Nat → List Byte
  | _, _, 0 => []
  | [], a, n + 1 => fill.byte a :: runBytes fill [] (a + 1) n
  | (x, b) :: r, a, n + 1 =>
    if x = a then b :: runBytes fill r (a + 1) n else fill.byte a :: runBytes fill ((x, b) :: r) (a + 1) n

/-- Bytes from `a` on, replaced where a rising list without addresses below `a` has a cell. -/
def overBytes : List Byte → List Host.Cell → Nat → List Byte
  | [], _, _ => []
  | b :: r, [], _ => b :: r
  | b :: r, (x, y) :: q, a =>
    if x = a then y :: overBytes r q (a + 1) else b :: overBytes r ((x, y) :: q) (a + 1)

/-- The runs of neighbouring addresses of a rising list: address and length. -/
def runsOf : List Host.Cell → List (Nat × Nat)
  | [] => []
  | (a, _) :: r =>
    match runsOf r with
    | (x, n) :: q => if x = a + 1 then (a, n + 1) :: q else (a, 1) :: (x, n) :: q
    | [] => [(a, 1)]

/-- Lengths of the pieces of a range that cross no boundary of `g` bytes: fuel, address, length. -/
def pieces (g : Nat) : Nat → Nat → Nat → List (Nat × Nat)
  | 0, _, _ => []
  | f + 1, a, n =>
    if n = 0 then []
    else
      let m := Nat.min n (g - a % g)
      (a, m) :: pieces g f (a + m) (n - m)

namespace Memory

/-- Memory with nothing listed that reads as zero. -/
def empty : Memory := ⟨[], .zero⟩

/-- The byte at an address. -/
def rd (m : Memory) (a : Nat) : Byte :=
  match cellAt m.cells a with
  | some b => b
  | none => m.fill.byte a

/-- Write bytes from `a` on. -/
def wrBytes (m : Memory) (a : Nat) (bs : List Byte) : Memory :=
  { m with cells := m.cells.filter (fun c => c.1 < a) ++ runCells (m.fill == .zero) a bs
      ++ m.cells.filter (fun c => a + bs.length ≤ c.1) }

/-- Write one byte. -/
def wr (m : Memory) (a : Nat) (b : Byte) : Memory := m.wrBytes a [b]

/-- The `n` bytes from `a` on, lowest address first; in one walk where the cells rise. -/
def rdBytes (m : Memory) (a n : Nat) : List Byte :=
  let c := inRange m.cells a n
  if risingFrom a c then runBytes m.fill c a n else (List.range n).map fun k => m.rd (a + k)

end Memory

/-- Little-endian value of bytes (R11). -/
def leNat : List Byte → Nat
  | [] => 0
  | b :: r => b.toNat + 256 * leNat r

/-- The `n` little-endian bytes of a value (R11). -/
def leBytes : Nat → Nat → List Byte
  | 0, _ => []
  | n + 1, v => BitVec.ofNat 8 v :: leBytes n (v / 256)

/-- Little-endian read of `n` bytes. -/
def Memory.rdN (m : Memory) (a n : Nat) : Nat := leNat (m.rdBytes a n)

/-- Little-endian write of `n` bytes. -/
def Memory.wrN (m : Memory) (a n v : Nat) : Memory := m.wrBytes a (leBytes n v)

/-- The canonical form. -/
def Memory.wf (m : Memory) : Bool :=
  risingFrom 0 m.cells && (m.fill != .zero || m.cells.all fun c => c.2 != 0)

/-! ## Tables keyed by a number, with a default for a key that is not listed -/

/-- The entry of a key. -/
def tabGet {α : Type} (dflt : α) : List (Nat × α) → Nat → α
  | [], _ => dflt
  | (k, v) :: r, n => if k = n then v else tabGet dflt r n

/-- Set the entry of a key, keeping the keys rising. -/
def tabSet {α : Type} : List (Nat × α) → Nat → α → List (Nat × α)
  | [], n, v => [(n, v)]
  | (k, x) :: r, n, v =>
    if k = n then (n, v) :: r else if n < k then (n, v) :: (k, x) :: r else (k, x) :: tabSet r n v

/-- Replace element `k` of a list. -/
def listSet {α : Type} : List α → Nat → α → List α
  | [], _, _ => []
  | _ :: r, 0, v => v :: r
  | x :: r, k + 1, v => x :: listSet r k v

/-- Remove element `k` of a list. -/
def listDel {α : Type} : List α → Nat → List α
  | [], _ => []
  | _ :: r, 0 => r
  | x :: r, k + 1 => x :: listDel r k

/-- Change the elements that satisfy a test. -/
def listUpd {α : Type} (p : α → Bool) (f : α → α) : List α → List α
  | [] => []
  | x :: r => (if p x then f x else x) :: listUpd p f r

/-- Change the first element that satisfies a test. -/
def listUpd1 {α : Type} (p : α → Bool) (f : α → α) : List α → List α
  | [] => []
  | x :: r => if p x then f x :: r else x :: listUpd1 p f r

/-- Index of the first element that satisfies a test. -/
def listFind {α : Type} (p : α → Bool) : List α → Nat → Option Nat
  | [], _ => none
  | x :: r, k => if p x then some k else listFind p r (k + 1)

end Sys2Proof.Machine
end

