-- ==== Sys2Proof/Machine/Types.lean ====
section
/-! DEFINITION. The data types that State is made of: causes and records of faults, accesses in flight, window and
directory state, continuation records, regions and queues. -/

namespace Sys2Proof.Machine

/-- The fault causes of Table 18-1 (R308). -/
inductive Cause
  | illegalInsn | illegalOperand | align | addrRange | spadRange
  | xlate | permission | pageFault
  | crFormat | regionDenied | joinUnderflow | crqFull
  | vdieInvalid | waitLimit | sbarOverrun | futureState | syncFail
  | veShape | veCount | veType | veOverlap | veChain | veBulkFail
  | meOwn | fmtqUnderflow | fmtInvalid | meShape | meSparse | meRemote | ownDenied
  | chCfg | chTile | chainFmt | hamRange | hamFail
  | winCfg | winFull | winConflict | sysCfg | trapSw | rdTimeout | dataPoison
  deriving DecidableEq, Repr

/-- The record of one fault: what the frame's FFRAME0 and FFRAME2-5 will say (Table 18-2). -/
structure FaultRec where
  cause : Cause
  /-- OBS: 0 VE, 1 ME, 2 HU, 3 CC, 8-15 channels. -/
  obs : Nat
  sub : Nat := 0
  slot : Nat := 0
  wr : Bool := false
  addr : Word := 0
  info0 : Word := 0
  info1 : Word := 0
  info2 : Word := 0
  /-- The bundle at which the CC resumes. -/
  rpc : Nat := 0
  /-- PAGE_FAULT: the physical address of the leaf entry, for its record (R317). -/
  leaf : Nat := 0
  /-- The element that an index check found (R171). -/
  elem : Option Nat := none
  deriving DecidableEq, Repr

/-- Why a freeze has been called for (R368). -/
inductive FreezeWhy
  /-- A fault (R309). -/
  | fault (r : FaultRec)
  /-- The CP pre-empts the CR (R295). -/
  | preempt
  /-- A YIELD takes effect (R222). -/
  | yield
  deriving DecidableEq, Repr

/-- What a core is doing (Table 17-7). -/
inductive CoreStatus
  /-- No CR. -/
  | idle
  /-- Running a CR. -/
  | running
  /-- A freeze has been called for and waits for operations that cannot stop part-way (R368). -/
  | freezing
  /-- Frozen: every sequencer stopped (R242). -/
  | frozen
  deriving DecidableEq, Repr

/-- How far the load of a kernel is from done (R32, R104, R288). -/
inductive LoadSt
  /-- Nothing is left to load. -/
  | done
  /-- The image, for a CR that resumes. -/
  | image
  /-- The image and the preload, for a CR that starts. -/
  | full
  deriving DecidableEq, Repr

/-- The causes that hold a bundle (Table 11-7, STALL). -/
inductive StallCause
  | none | queueFull | pending | waitc | wait | order | sysReg | interval
  deriving DecidableEq, Repr

/-- One access or request of the CC that has left the core and is not complete. -/
inductive AccKind
  /-- LD, LD.U: destination, sign extension. -/
  | load (d : Nat) (sext : Bool)
  /-- ST: the bytes as a value. -/
  | store (v : Nat)
  /-- AMO: destination, operation 0-6 of Table 5-5, unsigned, operand. -/
  | amo (d op : Nat) (u : Bool) (b : Nat)
  /-- CAS: destination, expected value, new value. -/
  | cas (d : Nat) (e b : Nat)
  /-- PREF: expected read count. -/
  | pref (cnt : Nat)
  /-- WQUERY: destination, window entry, tile. -/
  | wquery (d win tile : Nat)
  /-- A request of R151 or R223 that a bundle waits for. -/
  | sync
  deriving DecidableEq, Repr

/-- An outstanding access or request of the CC (R27, R321). -/
structure Access where
  kind : AccKind
  /-- Whether the address is a scratchpad offset. -/
  sp : Bool := false
  /-- Virtual address or scratchpad offset. -/
  addr : Nat := 0
  /-- Bytes. -/
  size : Nat := 0
  /-- Instruction scope (R76). -/
  scope : Scope := .pod
  /-- Request tag and its generation (R321). -/
  tag : Nat := 0
  gen : Nat := 0
  /-- FRAME_CLK at issue, or when the request has left a hold, and RSPLIM at that time, which rules it (R321, R325, R359). -/
  at_ : Nat := 0
  lim : Nat := 0
  /-- It has not left its core: its route is held (R359), or an earlier access to its bytes comes first (R82). -/
  atSrc : Bool := false
  /-- A timed-out read has been issued again once (R321). -/
  retried : Bool := false
  /-- An error response has arrived and its report is held (R337). -/
  err : Option FailCause := none
  /-- Held by a translation fault, to be made once on resume (R122). -/
  held : Bool := false
  /-- The H word of the same bundle names the destination too: its result stands (R241). -/
  hWins : Bool := false
  /-- Its GR or GW is on its way to the home, or the reply back (R251). -/
  sent : Bool := false
  /-- It waits for the data of its tile (R250, Table 12-4). -/
  wants : Bool := false
  /-- Its home has applied it (R93, R251). -/
  applied : Bool := false
  deriving DecidableEq, Repr

/-- A reply to a request that a bundle waits for (R146, R149, R150, R223). -/
inductive Reply
  | value (w : Word)
  | fault (c : Cause) (info0 : Word)
  /-- Taken out of the parked set by the expiry of the wait's limit (R147, R150). -/
  | expired (w : Word)
  deriving DecidableEq, Repr

/-- One tile of a declaration: its VA, its page's PA, the effective reach, and W of the page (R224). -/
structure WTile where
  va : Nat
  pa : Nat
  reach : Scope
  w : Bool
  deriving DecidableEq, Repr

/-- A bundle's request to a home: sent, and the reply once it has arrived. -/
structure SyncReq where
  /-- Physical address of the block at the home. -/
  pa : Nat
  reply : Option Reply := none
  /-- Parked at the home (R147, R150). -/
  parked : Bool := false
  /-- FRAME_CLK when the request was sent, and RSPLIM at that time (R325). -/
  at_ : Nat := 0
  lim : Nat := 0
  /-- An error response has arrived and its report is held (R337). -/
  err : Bool := false
  /-- SBWAIT or FGET: a wait, attempted again from the start after a resume (R123). -/
  wait : Bool := false
  /-- TLBINV: the accesses that have used the entries and are to be performed first: core, tag, generation (R231). -/
  after : List (Nat × Nat × Nat) := []
  /-- SPAWN: the CR image as read (R220). -/
  img : List Byte := []
  /-- WDECL: the tiles as translated (R224). -/
  wt : List WTile := []
  deriving DecidableEq, Repr

/-- The writes of a step or copy that has read its sources and waits for its destinations: space (true: scratchpad),
address and bytes; RNGS_VE and the flags that the step leaves (R81, R85). -/
structure OutW where
  ws : List (Bool × Nat × List Byte)
  rng : BitVec 32 := 0
  flags : BitVec 64 := 0
  /-- The bytes are the undefined ones of a step that has failed, and VE_BULK_FAIL follows them (R164). -/
  bad : Bool := false
  deriving DecidableEq, Repr

/-- A request of an engine's step that has had no reply (R321, R337, R359). -/
structure Ask where
  /-- Space (true: scratchpad), address, length and direction of the access. -/
  sp : Bool
  addr : Nat
  len : Nat
  wr : Bool
  /-- FRAME_CLK of its issue, and RSPLIM as it stood then (R325). -/
  at_ : Nat
  lim : Nat
  /-- A read that has been issued again, and one that has failed for the second time. -/
  second : Bool := false
  dead : Bool := false
  /-- The error reply that it has had. -/
  err : Option FailCause := none
  /-- The bytes that it is served with: those of a window tile that came after an invalidation (R282). -/
  data : Option (List Byte) := none
  deriving DecidableEq, Repr

/-- A macro-queue entry: the word and the registers captured at issue (R21, R169). -/
structure Entry where
  word : Nat
  regs : Vector Word 32
  /-- Index of the bundle that issued it (Table 18-2, ENT). -/
  ent : Nat
  deriving DecidableEq, Repr

/-- An engine's macro queue and its progress (R17, R22, R170, R184, R204). -/
structure Engine where
  /-- Entries that wait; the one being executed is not among them (R23). -/
  queue : List Entry
  /-- The entry being executed. -/
  cur : Option Entry
  /-- micro-PC. -/
  upc : Nat
  /-- Indices of the running nest, level 0 first. -/
  idx : Vector Nat 6
  /-- SCHED_CLK at which the step in progress takes effect; none before a step has started. -/
  due : Option Nat
  /-- Element, block, row or segment already done of the step in progress. -/
  elem : Nat
  /-- FSTAT flags of the entry, posted when it completes (R66). -/
  flags : BitVec 64
  /-- SCHED_CLK from which the next word can start (R238). -/
  ready : Nat
  /-- The whole entry is done and only its counter and flags remain (R27). -/
  finished : Bool
  /-- The writes that the step in progress still has to make. -/
  outs : Option OutW := none
  /-- The partial sums of a reduction, or the running sum of a scan, that has stopped part-way (R170). -/
  parts : List Nat := []
  /-- A freeze stops the step in progress before this element: the model's own bookkeeping. -/
  limit : Option Nat := none
  /-- The step in progress has performed its reads (R85). -/
  read : Bool := false
  /-- The request that the step in progress waits for. -/
  ask : Option Ask := none
  /-- The next read of the step in progress meets an error that cannot be corrected (R319). -/
  hit : Bool := false
  /-- Writes of the step in progress that have been reported as failed: space, address, cause (R92). -/
  fails : List (Bool × Nat × FailCause) := []
  deriving DecidableEq, Repr

/-- An engine at pop (Table 1-5). -/
def Engine.empty : Engine :=
  { queue := [], cur := none, upc := 0, idx := Vector.replicate 6 0, due := none, elem := 0, flags := 0,
    ready := 0, finished := false }

/-- The configuration of one transfer channel that has a shadow and an active copy (R186). -/
structure ChCfg where
  loops : Vector Word 6
  strs : Vector Word 6
  src : Word
  dst : Word
  rstr : Word
  deriving DecidableEq, Repr

def ChCfg.zero : ChCfg := ⟨Vector.replicate 6 0, Vector.replicate 6 0, 0, 0, 0⟩

/-- Where a job card stands (R199, R204). -/
inductive CardStep
  | read | wait | edges | copy | post | seq | done
  deriving DecidableEq, Repr

/-- The walk of a channel over job cards (R199, R200). -/
structure ChainSt where
  /-- Current card. -/
  card : Nat
  step : CardStep
  /-- 0 for an XJOB. -/
  seqWord : Word
  scope : Scope
  chain : Bool
  /-- SCHED_CLK at which the card's wait began. -/
  waitAt : Nat
  /-- The last value that the card's wait read. -/
  last : Word
  /-- The 16 doublewords of the card as read. -/
  img : List Nat
  deriving DecidableEq, Repr

/-- A declared footprint (R195, R197). -/
structure Foot where
  sp : Bool
  base : Nat
  len : Nat
  rd : Bool
  wr : Bool
  deriving DecidableEq, Repr

/-- An entry of the footprint tracker (R197): its channel and footprints, in registration order. -/
structure Tracked where
  ch : Nat
  foots : List Foot
  /-- An XJOB has started and its card is not yet read: its footprints are not known (R202). -/
  unread : Bool := false
  /-- SCHED_CLK of the registration. -/
  at_ : Nat := 0
  deriving DecidableEq, Repr

/-- A transfer channel (R186, R204). -/
structure Channel where
  eng : Engine
  shadow : ChCfg
  active : ChCfg
  /-- CHn_ORG. -/
  org : Word
  /-- CHn_STAT.RCNT. -/
  rcnt : BitVec 5
  /-- CHn_STAT.FAIL. -/
  fail : Bool
  /-- An XCHAIN issued and not yet completed (R200, R227). -/
  chainOut : Bool
  /-- CHn_TAIL. -/
  tail : BitVec 56
  /-- wmn (Table 9-9) with the START of its arming (R196). -/
  mark : Nat
  wend : Nat
  /-- Ranges at or above MARK already written by the channel's copies. -/
  filled : List (Nat × Nat)
  /-- Completed-card count (R200). -/
  doneCnt : Word
  chain : Option ChainSt
  /-- XFOOTs that wait for the next entry (R197). -/
  foots : List Foot
  /-- The body in progress has emitted its copy (R190). -/
  copied : Bool
  /-- The entry in progress has registered its footprints (R197). -/
  tracked : Bool
  /-- The first failed write of the copy in progress, recorded once when it ends (R189). -/
  copyFail : Option (FailCause × Nat)
  /-- The copy in progress was emitted no later than the cycle in which the watermark was armed (R272). -/
  early : Bool
  /-- A copy has been emitted and has not ended. -/
  emitted : Bool := false
  /-- The watermark was armed in this cycle. -/
  armed : Bool := false
  /-- MARK, END and TAIL as they stood at the start of the cycle (R274). -/
  markSeen : Nat := 0
  wendSeen : Nat := 0
  tailSeen : BitVec 56 := 0
  deriving DecidableEq, Repr

/-- What a new cycle sees of a channel (R272, R274). -/
def Channel.newCycle (h : Channel) : Channel :=
  { h with armed := false, markSeen := h.mark, wendSeen := h.wend, tailSeen := h.tail }

/-- A channel at pop: every register 0 (R186, Table 1-5). -/
def Channel.zero : Channel :=
  { eng := .empty, shadow := .zero, active := .zero, org := 0, rcnt := 0, fail := false, chainOut := false,
    tail := 0, mark := 0, wend := 0, filled := [], doneCnt := 0, chain := none, foots := [], copied := false,
    tracked := false, copyFail := none, early := false }

/-- The ME configuration (R174). -/
structure MeCfg where
  loops : Vector Word 6
  asel : BitVec 4
  tdesc : Vector Word 16
  deriving DecidableEq, Repr

/-- The ME configuration at pop (R174). -/
def MeCfg.pop : MeCfg := ⟨Vector.replicate 6 0, 1, Vector.replicate 16 0⟩

/-- A declared window (Table 10-5, R249). -/
structure Window where
  spad : Nat
  size : Nat
  /-- Tile size in bytes. -/
  tile : Nat
  global : Nat
  reach : Scope
  deriving DecidableEq, Repr

/-- State of a core's copy of a tile (Tables 12-2, 12-4). -/
inductive TileSt
  | i | s | e | o | m
  /-- RS sent, data awaited. -/
  | isd
  /-- RX sent, data awaited. -/
  | imd
  /-- UP sent, copy held in S or O. -/
  | sma
  deriving DecidableEq, Repr

/-- The kinds of directory message (R258-R260, R264). -/
inductive MsgKind
  | rs | rx | up | gr | gw | em | drop | flush | fwd | fwdInv | inv | recall | data | ack | gone
  /-- A back-invalidation at this package's replica, in its turn at the entry (R264). -/
  | bi
  deriving DecidableEq, Repr

/-- A directory message: core numbers are 0-87, and 88 stands for the home. -/
structure Msg where
  kind : MsgKind
  src : Nat
  dst : Nat
  /-- Home domain: 0, 1 the C-dies' own homes (reach DIE), 2 the package's. -/
  dom : Nat
  /-- Physical address of the tile's first byte. -/
  pa : Nat
  /-- The core whose request this message serves. -/
  req : Nat := 88
  bytes : List Byte := []
  /-- Offsets in the tile that the sender's copy has written and memory has not. -/
  mask : List Nat := []
  /-- DATA: the state granted; FWD: what the reply must say. -/
  grant : TileSt := .i
  /-- GR, GW and their replies: the access served at the home, by its tag and generation (R321). -/
  tag : Nat := 0
  gen : Nat := 0
  /-- The error of a poisoned tile travels with the data (R268). -/
  poison : Bool := false
  deriving DecidableEq, Repr

/-- One core's copy of a window tile (R249, R257, R260). -/
structure TileCopy where
  dom : Nat
  pa : Nat
  /-- Scratchpad offset of the tile in the core. -/
  off : Nat
  size : Nat
  st : TileSt
  /-- Bytes written in this copy and not in memory. -/
  mask : List Nat
  /-- An INV arrived in IS_D: the copy is left in I after the waiting accesses (Table 12-4). -/
  inval : Bool
  /-- Messages held until the data arrives (Table 12-4). -/
  held : List Msg
  /-- IM_D, SM_A: the owner's data has come (1), or the home's grant has (2); M needs both (R258, Table 12-3). -/
  part : Nat := 0
  /-- The core has ended with a request out: it leaves the tile once that is settled (R370). -/
  leave : Bool := false
  /-- An uncorrectable error has struck this copy and has not been found yet (R268). -/
  bad : Bool := false
  deriving DecidableEq, Repr

/-- A tile directory entry (Table 12-2). -/
structure DirEnt where
  dom : Nat
  pa : Nat
  tile : Nat
  reach : Scope
  st : TileSt
  /-- 0 idle, 1 B_FWD, 2 B_INV, 3 B_REC. -/
  busy : Nat
  owner : Option Nat
  sharers : List Nat
  acks : Nat
  /-- The declaring cores (NDECL counts them). -/
  decl : List Nat
  /-- Remote packages, up to four: device and whether in mode X. -/
  rem : List (Nat × Bool)
  /-- More than four: the snoop filter holds them as groups (R263). -/
  coarse : Bool
  /-- The mode of this package's replica of a tile whose memory another package holds (R262): none, S (false) or X. -/
  rep : Option Bool := none
  /-- The request being served while BUSY is not 0. -/
  cur : Option Msg
  /-- Requests that wait (R258). -/
  queue : List Msg
  /-- The requester is to get the home's grant beside the owner's data (Table 12-3, B_INV). -/
  two : Bool := false
  /-- The owner has handed the tile to the requester of the RX or UP that is being served. -/
  passed : Bool := false
  poisoned : Bool
  /-- The declarers whose page has W = 0 (R224). -/
  ro : List Nat
  deriving DecidableEq, Repr

/-- A line of an L2 slice: 128 bytes of one copy (R78, R253, R254, R256). -/
structure LineSt where
  /-- The copy: 0, 1 a C-die's, 2 the package's, 3 the pod's. -/
  dom : Nat
  /-- PA >> 7. -/
  line : Nat
  /-- Slice that holds it. -/
  slice : Nat
  /-- The core that accessed it last (88: none), how often in a row, and when. -/
  lastCore : Nat
  run : Nat
  usedAt : Nat
  /-- FRAME_CLK at which it was filled or last moved. -/
  movedAt : Nat
  /-- Remaining read count of a counted line. -/
  rc : Option Nat
  data : List Byte
  /-- Bytes that this copy has written and memory has not taken. -/
  dirty : BitVec 128
  /-- A line of another device's memory is a replica (R262): its mode is X, which a write asks the home package for, and
  otherwise S. -/
  excl : Bool
  deriving DecidableEq, Repr

/-- A write of an observer of a core that has been performed at a scope below its location's reach (R79, R80). -/
structure BufW where
  /-- The observer: 0 VE, 1 ME, 3 CC, 8-15 channels. -/
  obs : Nat
  /-- The copy, the physical address and the bytes. -/
  dom : Nat
  pa : Nat
  bytes : List Byte
  /-- The scope at which it has been performed. -/
  lvl : Scope
  /-- The request tag of a store of the CC, which completes when the write is performed at its reach (R83). -/
  tag : Option Nat
  deriving DecidableEq, Repr

/-- A write of a command processor that has not been performed yet (R86, R251, R264). -/
structure CpWrite where
  /-- The CP that makes it, by its C-die, and the copy that it writes. -/
  die : Nat
  dom : Nat
  pa : Nat
  bytes : List Byte
  /-- By physical address: memory itself and every copy above it (R325). -/
  phys : Bool
  /-- Its request tag and generation (R321). -/
  tag : Nat
  gen : Nat
  /-- FRAME_CLK when it came to the head of the CP's writes; none: not yet, or its route is held (R359). -/
  at_ : Option Nat := none
  deriving DecidableEq, Repr

/-- The remote holders of a line, or of a tile with more than four (R263): devices with their mode (true: X), or the
groups of 32 devices. -/
structure SnoopEnt where
  /-- Physical address of the line or tile. -/
  pa : Nat
  holders : List (Nat × Bool)
  groups : List Nat
  deriving DecidableEq, Repr

/-- A back-invalidation of the home package that has not been acknowledged (R264, R265). -/
structure BiReq where
  /-- Physical address of the line or tile, and the device. -/
  pa : Nat
  dev : Nat
  /-- BI-D: dirty data is to come back. -/
  dirty : Bool
  /-- FRAME_CLK at which it was sent; none: not sent yet. -/
  at_ : Option Nat
  deriving DecidableEq, Repr

/-- A TLB entry: a present leaf (R316). -/
structure TlbEnt where
  region : Nat
  /-- VA of the page. -/
  va : Nat
  /-- log2 of the page size, 16 or 25. -/
  lg : Nat
  pa : Nat
  w : Bool
  reach : Scope
  /-- A stream TLB's stream has come to the page downwards (R316). -/
  down : Bool := false
  deriving DecidableEq, Repr

/-- A CR image: the four words of Table 1-4. -/
structure CrImg where
  w0 : Word
  w1 : Word
  w2 : Word
  w3 : Word
  deriving DecidableEq, Repr

/-- The states of a CR (Table 17-7). FROZEN is the core's own state. -/
inductive CrSt
  /-- Not yet at its effective release. -/
  | waiting
  | queued
  | running (core : Nat)
  /-- Saved from a core in a context slot. -/
  | saved (core slot : Nat)
  /-- Held aside for a page-fault tag. -/
  | aside (core slot tag : Nat)
  /-- Trapped: saved in a slot while its trap continuation runs on a core. -/
  | trapped (core slot : Nat)
  deriving DecidableEq, Repr

/-- A continuation record known to the CP (R28-R31, R287, R293). -/
structure Cr where
  img : CrImg
  /-- Its address as enqueued (s3). -/
  va : Word
  region : Nat
  /-- Effective priority now. -/
  prio : Nat
  /-- Launch tag (R287); 0: none. -/
  tag : Nat
  st : CrSt
  /-- FRAME_CLK at enqueue (R30). -/
  enq : Nat
  /-- FRAME_CLK at which aging last counted (R293). -/
  aged : Nat
  /-- Absolute deadline, fixed at the first pop (R30); 0: none. -/
  deadline : Nat
  /-- The deadline has passed while running (R37). -/
  late : Bool
  /-- The kernel descriptor's 256 bytes, as read at the enqueue (R288). -/
  desc : List Byte
  /-- Its slot in the ring of its region and priority (R292). -/
  slot : Nat := 0
  /-- The effective release at which it has joined its queue's order; fixed at its first pop (R30). -/
  rel : Nat := 0
  deriving DecidableEq, Repr

/-- Region states (Table 17-6). DEAD regions are no longer listed. -/
inductive RegSt
  | active | draining | failed
  deriving DecidableEq, Repr

/-- A region: the words of its RCB as read at CREATE (Table 17-4) and what the CP keeps of it. -/
structure Region where
  num : Nat
  /-- Physical address of the RCB. -/
  pa : Nat
  /-- Doublewords 0x00-0xB8 of the RCB. -/
  w : Vector Word 24
  st : RegSt
  /-- Round-robin credit per priority (R294). -/
  credit : List (Nat × Int)
  /-- STATS (Table 17-10). -/
  stats : Vector Word 8
  deriving DecidableEq, Repr

/-- A launch queue (Table 17-1). -/
structure LaunchQ where
  num : Nat
  pa : Nat
  region : Nat
  ring : Nat
  log2n : Nat
  nopred : Bool
  evdone : Bool
  head : Nat
  tail : Nat
  doneseq : Nat
  /-- Launch tag of the launch in progress; 0: none. -/
  tag : Nat
  /-- enc of the last four launches, most recent first (R298). -/
  hist : List Hv
  /-- The launch at its queue point, held until its CR queue has a slot (R292): its image and slot. -/
  pend : Option (CrImg × Word)
  /-- A predictor hit whose undercoat launch has not been considered yet (R299). -/
  hit : Option (CrImg × Vector Word 4)
  deriving DecidableEq, Repr

/-- An entry of the launch predictor (R298). -/
structure PredEnt where
  idx : Nat
  key : Hv
  queue : Nat
  img : CrImg
  args : Vector Word 4
  deriving DecidableEq, Repr

/-- States of an undercoat launch (Table 17-11); DISCARDED and COMMITTED ones are no longer listed. -/
inductive UcSt
  | running | complete | adopted
  deriving DecidableEq, Repr

/-- An undercoat launch (R299-R304). -/
structure Undercoat where
  queue : Nat
  /-- Launch index predicted. -/
  k : Nat
  core : Nat
  region : Nat
  img : CrImg
  args : Vector Word 4
  /-- VA of the launch's ring slot. -/
  va : Word
  /-- IGN of the descriptor (Table 17-2). -/
  ign : Nat
  /-- The real record, once the launch has been adopted (R303). -/
  real : CrImg
  st : UcSt
  stale : Bool
  /-- Registered byte ranges as virtual addresses: start, length. -/
  reads : List (Nat × Nat)
  writes : List (Nat × Nat)
  /-- Registered physical ranges of both. -/
  regd : List (Nat × Nat)
  /-- Dust pages: VA of the page, its PA, the written bytes. -/
  dust : List (Nat × Nat × Memory × Memory)
  deriving DecidableEq, Repr

/-- An outstanding page-fault record (R317). -/
structure PageFault where
  tag : Nat
  region : Nat
  /-- VA of the 64 KiB page. -/
  va : Nat
  core : Nat
  wr : Bool
  obs : Nat
  leaf : Nat
  posted : Bool
  deriving DecidableEq, Repr

/-- A join on its way to the home of its block (R34). -/
structure JoinReq where
  /-- VA and PA of the block, and the domain of the copy that holds it. -/
  va : Nat
  pa : Nat
  dom : Nat
  /-- The core whose bundle waits; 88: the CP, at a commit (R304); 89: one that has ended since. -/
  core : Nat
  region : Nat
  tag : Nat
  /-- Made by DONE (R33) or at a commit: reported as JOIN_FAULT. -/
  byDone : Bool
  /-- VA of the joining CR. -/
  cr : Word
  /-- The page-fault record that it waits for, at a commit (R33, R317). -/
  pf : Option Nat := none
  deriving DecidableEq, Repr

/-- What a request asks of the home of a stage barrier or a future (R145-R150). -/
inductive HomeOp
  /-- SBARV: arrivals. -/
  | arrive (n : Nat)
  /-- XBAR of channel `c`: bytes. -/
  | bytes (c n : Nat)
  /-- SBWAIT on a phase. -/
  | wait (phase : Word)
  /-- FFILL with a value. -/
  | fill (v : Word)
  /-- FGET. -/
  | get
  deriving DecidableEq, Repr

/-- SBWAIT or FGET: a wait that a freeze abandons (R123). -/
def HomeOp.isWait : HomeOp → Bool
  | .wait _ | .get => true
  | _ => false

/-- A request that has reached the home of a stage barrier or a future and is not yet applied (R144, R145). -/
structure BarPost where
  pa : Nat
  /-- Domain of the copy that holds the block. -/
  dom : Nat
  /-- Address as named. -/
  va : Nat
  /-- The core that sent it; 88: one that has ended since; from 1,000 on a request of another device (R332). -/
  core : Nat
  op : HomeOp
  deriving DecidableEq, Repr

/-- A parked FGET or SBWAIT (R147, R150). -/
structure Park where
  pa : Nat
  /-- Domain of the copy that holds the block. -/
  dom : Nat
  /-- The core, or from 1,000 on a request of another device (R332). -/
  core : Nat
  fut : Bool
  deriving DecidableEq, Repr

/-- What a request asks of the associative memory of S0 (R278). -/
inductive HamOp
  /-- HAMQ or HAMK in a region's partition of `p` entries: distance limit, query and number of records. -/
  | search (region p limit : Nat) (key : BitVec 4096) (records : Nat)
  /-- HAMW or HAMD of an entry. -/
  | write (region e : Nat) (v : Option (BitVec 4096))
  deriving DecidableEq, Repr

/-- A request of a core that has arrived at S0 (R214-R217, R278). -/
structure Search where
  core : Nat
  /-- HAMQ: destination register. -/
  dest : Option Nat
  /-- HAMK: OFF. -/
  off : Nat
  op : HamOp
  /-- The records that its passes found, one for a HAMQ. -/
  found : List Word := []
  /-- Compute-clock cycle in which it completes; none in its cycle of arrival. -/
  doneAt : Option Nat := none
  deriving DecidableEq, Repr

/-- An array of an M-die (R172): tiles, accumulators, sparsity queue, holder. -/
structure ArraySt where
  /-- t0-t15, 16 KiB each. -/
  tiles : Memory
  /-- ac0-ac15, 2 KiB each. -/
  accs : Memory
  sparse : List (List Byte)
  /-- CR number and slot that hold it, when not its partner's slot 0. -/
  holder : Option (Nat × Nat)
  /-- Region of its last holder; none before the first. -/
  lastRegion : Option Nat
  deriving DecidableEq, Repr

/-- The trace unit of a core (R243-R247). -/
structure Trace where
  active : Bool
  /-- VA of this core's slice, and its size. -/
  base : Nat
  size : Nat
  /-- Header fields (Table 11-5). -/
  wptr : Nat
  lost : Nat
  wraps : Nat
  /-- Packets in the store, oldest first, not yet written. -/
  store : List Word
  /-- SCHED_CLK of the last timed packet or SYNC. -/
  last : Nat
  /-- Packets since the last SYNC. -/
  since : Nat
  /-- Packets lost since the last written packet. -/
  gap : Nat
  /-- Packets of the store that stood there when the cycle began: the model's own bookkeeping. -/
  old : Nat := 0
  /-- CREND of the retiring CR has been emitted. -/
  ended : Bool := false
  deriving DecidableEq, Repr

def Trace.off : Trace :=
  { active := false, base := 0, size := 0, wptr := 64, lost := 0, wraps := 0, store := [], last := 0, since := 0, gap := 0 }

end Sys2Proof.Machine
end

