-- ==== Sys2Proof/Machine/CoreState.lean ====
section
/-! DEFINITION. The state of one core and of the command processors. Each field names its rule, its file and its
reset value; INVENTORY.md lists the same. -/

namespace Sys2Proof.Machine

/-- One core (R17): the control core, its engines, its storage and what the CP has put into it. -/
structure Core where
  /-- What the core is doing, 2 bits (R29-R33, 17 Table 17-7). Reset: idle. -/
  status : CoreStatus
  /-- The frozen core resumes with the next cycle of the compute clock (11 R242). Reset: false. -/
  wake : Bool
  /-- The called-for freeze and why (11 R368). Reset: none. -/
  call : Option FreezeWhy
  /-- Faults raised while a freeze was being taken, met after the resume (18 R309). Reset: none. -/
  heldFaults : List FaultRec
  /-- CC PC, 13-bit bundle index; 8192 after bundle 8191 (01 R18). Reset: 0 (DESIGN CHOICE, 5). -/
  pc : Nat
  /-- s0-s31, 64 bits each (04 R102, 01 Table 1-5). Reset: 0 (DESIGN CHOICE, 5). -/
  regs : Vector Word 32
  /-- p0-p7 (04 R102, 01 Table 1-5). Reset: p0 true, others false (DESIGN CHOICE, 5). -/
  preds : BitVec 8
  /-- Pending marks of s0-s31 (01 R21, 06 R123). Reset: 0. -/
  pend : BitVec 32
  /-- Outstanding-operation counter ld, 8 bits (01 R27). Reset: 0 (DESIGN CHOICE, 5). -/
  ld : Nat
  /-- Outstanding-operation counter st, 8 bits (01 R27). Reset: 0 (DESIGN CHOICE, 5). -/
  st : Nat
  /-- Outstanding-operation counter cp, 8 bits (01 R27). Reset: 0 (DESIGN CHOICE, 5). -/
  cp : Nat
  /-- Outstanding-operation counter tl, 8 bits (01 R27). Reset: 0 (DESIGN CHOICE, 5). -/
  tl : Nat
  /-- SCHED_CLK, 64 bits (10 Table 10-8, 11 R242). Reset: 0. -/
  sched : Nat
  /-- Earliest SCHED_CLK at which the next bundle can issue (11 R234, Table 11-1). Reset: 0. -/
  nextIssue : Nat
  /-- The cause that holds the next bundle (11 Table 11-7, STALL). Reset: none. -/
  stall : StallCause
  /-- The next bundle has been found held in this cycle: the model's own bookkeeping. Reset: false. -/
  tried : Bool
  /-- The S word of the bundle being issued has taken effect: the model's own bookkeeping. Reset: false. -/
  issued : Bool
  /-- SCHED_CLK at which the wait in progress was first attempted (06 R140, R123). Reset: none. -/
  waitAt : Option Nat
  /-- The two index values of the wait in progress (06 Table 6-5). Reset: 0, 0. -/
  waitVals : Word × Word
  /-- HEAD as WAITQ has read it, before its read of TAIL (06 R141). Reset: none. -/
  qHead : Option Word
  /-- FSTAT, 64 bits (02 Table 2-10). Reset: 0. -/
  fstat : BitVec 64
  /-- The flags posted in this cycle: the model's own bookkeeping (02 R66). Reset: 0. -/
  posted : BitVec 64
  /-- RNGS_CC, RNGS_VE and RNGS_ME, 32 bits each (02 Table 2-7). Reset: 1 each. -/
  rngCc : BitVec 32
  rngVe : BitVec 32
  rngMe : BitVec 32
  /-- The failure record, 64 bits (03 R92, Table 3-6). Reset: 0. -/
  failRec : BitVec 64
  /-- Instruction memory, 192 KiB (01 R18, Table 1-2). Reset: zero (DESIGN CHOICE, 1). -/
  imem : Memory
  /-- Scratchpad, 2 MiB (03 R71). Reset: zero (DESIGN CHOICE, 1); undefined at a pop (01 Table 1-5). -/
  spad : Memory
  /-- sh0-sh15, 64 bits each (07 Table 7-1). Reset: 0. -/
  sh : Vector Word 16
  /-- hv0-hv15, 4,096 bits each (10 R206). Reset: 0 (DESIGN CHOICE, 5). -/
  hv : Vector Hv 16
  /-- ba0-ba3: 4,096 counters each, one byte per counter (10 R206). Reset: 0 (DESIGN CHOICE, 5). -/
  ba : Vector (BitVec 32768) 4
  /-- BACFG.W8, 4 bits (10 Table 10-9). Reset: 0xF. -/
  baW8 : BitVec 4
  /-- TIES, 4,096 bits (10 R209, Table 10-10). Reset: 0. -/
  ties : Hv
  /-- The vector engine's queue and progress (01 R17, 07 R170). Reset: empty, idle. -/
  ve : Engine
  /-- The matrix engine's queue and progress (01 R17, 08 R184). Reset: empty, idle. -/
  me : Engine
  /-- The hypervector unit's queue and progress (01 R17, 10 R218). Reset: empty, idle. -/
  hu : Engine
  /-- The eight transfer channels and their registers (09 Tables 9-1 to 9-10). Reset: 0. -/
  ch : Vector Channel 8
  /-- ME_LOOP, ME_ASEL, TDESC, shadow copies (08 R174). Reset: loops 0, ASEL 1, TDESC 0. -/
  meShadow : MeCfg
  /-- ME_LOOP, ME_ASEL, TDESC, active copies (08 R174). Reset: loops 0, ASEL 1, TDESC 0. -/
  meActive : MeCfg
  /-- ME_SLOTS, slots 1-3: the logical array held (08 Table 8-4). Reset: empty; slot 0 is the partner. -/
  slots : Vector (Option Nat) 3
  /-- The popped format word that an unfinished step holds (08 R184). Reset: none. -/
  fmtHeld : Option (BitVec 128)
  /-- Progress of the ME step in each array slot: the next block or row (08 R184). Reset: 0. -/
  meProg : Vector Nat 4
  /-- Flags of the blocks committed by the ME step in progress (08 R179, R184). Reset: 0. -/
  meFlags : BitVec 64
  /-- The format-word queue, 16 entries of 128 bits (06 R152). Reset: empty. -/
  fmtq : List (BitVec 128)
  /-- The window table, 16 entries (10 R224). Reset: empty. -/
  win : Vector (Option Window) 16
  /-- The core's copies of window tiles (12 R249, R257). Reset: none. -/
  tiles : List TileCopy
  /-- Outstanding CC accesses and requests, oldest first (01 R27, 18 R321). Reset: none. -/
  inflight : List Access
  /-- Writes performed at a scope below their reach, oldest first (03 R79, R80). Reset: none. -/
  buf : List BufW
  /-- New writes stop at scope CORE: the model's own choice of when (notes/assumptions/65.md). Reset: false. -/
  hold : Bool
  /-- The request that the waiting bundle has sent to a home (06 R146-R150, 10 R223). Reset: none. -/
  sync : Option SyncReq
  /-- The footprint tracker, up to 32 entries (09 R197). Reset: empty. -/
  tracker : List Tracked
  /-- Request tags: next tag, and the generation of each tag that has left 0 (18 R321). Reset: 0. -/
  nextTag : Nat
  gens : List (Nat × Nat)
  /-- Retired tags: tag, generation, FRAME_CLK at the retirement; those of the last 16 x RSPLIM cycles (18 R321).
  Reset: none. -/
  retired : List (Nat × Nat × Nat)
  /-- The running CR, by its number in the CP's list (01 R31). Reset: none. -/
  cr : Option Nat
  /-- The address of the running CR as enqueued (01 Table 1-5). Reset: 0. -/
  crVa : Word
  /-- Region of the running CR (01 Table 1-7). Reset: 0. -/
  region : Nat
  /-- Effective priority of the running CR at pop (01 Table 1-7). Reset: 0. -/
  prio : Nat
  /-- FRAME_CLK of the pop or resume (17 R295), or, of an idle core, of its freeing (17 R294). Reset: 0. -/
  since : Nat
  /-- Region of the previous CR on this core (01 Table 1-5). Reset: none. -/
  lastRegion : Option Nat
  /-- Word 0 of the CR that the core runs, or TRAPC of a trap continuation (17 Table 17-4, 01 Table 1-4). Reset: 0. -/
  w0 : Word
  /-- The kernel descriptor of the CR that the core runs (17 R288). Reset: none. -/
  desc : List Byte
  /-- Until the kernel load is done no bundle issues (01 R32, 17 R288). Reset: done. -/
  loading : LoadSt
  /-- Running an undercoat launch, by its number (17 R299). Reset: none. -/
  uc : Option Nat
  /-- The slot and the CR number of a trap continuation's trapped CR; TRAP_SLOT (18 R311). Reset: none. -/
  trap : Option (Nat × Nat)
  /-- FFRAME0-FFRAME31, 64 bits each (18 Table 18-2). Reset: 0. -/
  frame : Vector Word 32
  /-- The context slot that the core's save has been written to, until the writes are performed (17 R307), and the number
  of the free values in it. Reset: none. -/
  saving : Option (Nat × Nat)
  /-- The page-fault tag that the frozen core waits for (18 R317). Reset: none. -/
  pfTag : Option Nat
  /-- FRAME_CLK of the call for a freeze, then of the freeze itself (18 R310, R318, R368). Reset: 0. -/
  frozenAt : Nat
  /-- CC TLB, 256 entries, newest first (18 R316). Reset: empty. -/
  tlb : List TlbEnt
  /-- Stream TLBs of VE, ME and channels 0-7, 16 entries each (18 R316). Reset: empty. -/
  stlb : List (Nat × List TlbEnt)
  /-- Locator of migrated lines, 64 entries: line and slice (12 R254). Reset: empty. -/
  locator : List (Nat × Nat)
  /-- The trace unit (11 R243-R247). Reset: not running. -/
  trace : Trace
  /-- Claim packets dropped for a region's slice of this core, not yet counted in its header: region, count
  (17 R304). Reset: none. -/
  traceLost : List (Nat × Nat)
  deriving DecidableEq, Repr

/-- A core after reset. -/
def Core.reset : Core :=
  { status := .idle, wake := false, call := none, heldFaults := [], pc := 0, regs := Vector.replicate 32 0, preds := 1, pend := 0,
    ld := 0, st := 0, cp := 0, tl := 0, sched := 0, nextIssue := 0, stall := .none, tried := false, issued := false,
    waitAt := none, waitVals := (0, 0), qHead := none, fstat := 0, posted := 0, rngCc := 1, rngVe := 1, rngMe := 1, failRec := 0,
    imem := .empty, spad := .empty, sh := Vector.replicate 16 0, hv := Vector.replicate 16 0,
    ba := Vector.replicate 4 0, baW8 := 15, ties := 0, ve := .empty, me := .empty, hu := .empty,
    ch := Vector.replicate 8 .zero, meShadow := .pop, meActive := .pop, slots := Vector.replicate 3 none,
    fmtHeld := none, meProg := Vector.replicate 4 0, meFlags := 0, fmtq := [], win := Vector.replicate 16 none,
    tiles := [], inflight := [], buf := [], hold := false, sync := none,
    tracker := [], nextTag := 0, gens := [], retired := [], cr := none, crVa := 0, region := 0, prio := 0, since := 0,
    lastRegion := none, w0 := 0, desc := [], loading := .done, uc := none, trap := none, frame := Vector.replicate 32 0, saving := none, pfTag := none,
    frozenAt := 0, tlb := [], stlb := [], locator := [], trace := .off, traceLost := [] }

/-- A saved context (R306): the control part of a slot and, beside it, the parts that Table 17-12 gives a layout,
which stand in memory at the slot. -/
structure SavedCtx where
  /-- VA of the slot. -/
  slot : Nat
  region : Nat
  cr : Nat
  core : Core
  /-- The partner array's sparsity queue. -/
  sparse : List (List Byte)
  /-- The number of the free values that the save has put where a part of the slot has no layout (assumption 14). -/
  free : Nat := 0
  deriving DecidableEq, Repr

/-- Mailbox commands (18 Table 18-8). -/
inductive MbxCmd
  | init | create | destroy | qopen | qclose | shoot | memwr | memrd | attest | recChunk | recBoot | enetq
  deriving DecidableEq, Repr

/-- The two command processors (R75, R285-R307, R317-R326): one package-wide schedule. -/
structure CpState where
  /-- Regions that are not DEAD (17 R289, R291). Reset: none. -/
  regions : List Region
  /-- Continuation records, in order of enqueue; the position in queue order is the list's (17 R292). Reset: none. -/
  crs : List (Nat × Cr)
  /-- Next CR number: the model's own. Reset: 1. -/
  nextCr : Nat
  /-- Next launch tag: the model's own (17 R287). Reset: 1. -/
  nextLaunch : Nat
  /-- Launch queues that are open (17 R285). Reset: none. -/
  lqs : List LaunchQ
  /-- Launch-predictor entries (17 R298). Reset: none. -/
  pred : List PredEnt
  /-- NEXTW (17 R298). Reset: 0. -/
  nextw : Nat
  /-- PRED_CTL.EN (17 Table 17-9). Reset: 0. -/
  predEn : Bool
  /-- PRED_CTL.PDIST, 13 bits (17 Table 17-9). Reset: 0x600. -/
  pdist : Nat
  /-- Undercoat launches (17 R299). Reset: none. -/
  ucs : List (Nat × Undercoat)
  /-- Successors and launches that wait for a free queue slot, in order (17 R292). Reset: none. -/
  overflow : List Cr
  /-- Saved contexts (17 R306). Reset: none. -/
  saved : List SavedCtx
  /-- Page-fault records outstanding (18 R317). Reset: none. -/
  pfs : List PageFault
  /-- Next page-fault TAG, 32 bits (18 R317). Reset: 1 (DESIGN CHOICE, 6). -/
  nextPf : Nat
  /-- Physical address of the page-fault queue descriptor, from INIT (18 Table 18-8). Reset: 0. -/
  pfq : Nat
  /-- INIT has succeeded (18 R326). Reset: false. -/
  inited : Bool
  /-- The mailbox command in progress (18 R326). Reset: none. -/
  cmd : Option MbxCmd
  /-- The accesses that a SHOOT in progress waits for: core, tag, generation (18 R316). Reset: none. -/
  shootAfter : List (Nat × Nat × Nat)
  /-- Claims committed in this cycle and not yet traced: region and CR address (17 R304). Reset: none. -/
  claims : List (Nat × Word)
  /-- Joins under way to their homes (01 R34). Reset: none. -/
  joins : List JoinReq
  /-- Stage-barrier updates at their homes, not yet applied (06 R145). Reset: none. -/
  posts : List BarPost
  /-- Parked FGET and SBWAIT requests (06 R147, R150). Reset: none. -/
  parks : List Park
  /-- Valid associative-memory entries: owning region, index, vector (10 R213). Reset: none. -/
  ham : List (Nat × Nat × Hv)
  /-- Associative-memory rows held per region (14 R277). Reset: none. -/
  hamRows : List (Nat × List (Nat × Nat))
  /-- Searches sent to S0, oldest first (10 R215, 14 R278). Reset: none. -/
  searches : List Search
  /-- First compute-clock cycle in which each bank of the associative memory is free (14 R278). Reset: 0. -/
  banks : Vector Nat 4
  /-- The predictor's requests of this cycle: a search, or a write of an entry (14 R279). Reset: none. -/
  predIn : List (Option Nat)
  /-- Writes of the CPs that have not been performed yet, in order (03 R86; 12 R251, R264). Reset: none. -/
  wq : List CpWrite
  /-- The next request tag of each CP, and the generations of their tags that are not 0, by CP × 4,096 + tag (18 R321).
  Reset: 0. -/
  tags : Vector Nat 2
  gens : List (Nat × Nat)
  /-- MSI-X vectors fired, newest first: vector number (18 R325). Reset: none. -/
  msix : List Nat
  deriving DecidableEq, Repr

def CpState.reset : CpState :=
  { regions := [], crs := [], nextCr := 1, nextLaunch := 1, lqs := [], pred := [], nextw := 0, predEn := false,
    pdist := 0x600, ucs := [], overflow := [], saved := [], pfs := [], nextPf := 1, pfq := 0, inited := false,
    cmd := none, shootAfter := [], claims := [], joins := [], posts := [], parks := [], ham := [], hamRows := [],
    searches := [], banks := Vector.replicate 4 0, predIn := [], wq := [], tags := Vector.replicate 2 0, gens := [], msix := [] }

/-- The CP's BAR0 registers and boot state (18 Table 18-7, R322-R324). -/
structure DevState where
  /-- DEVSTAT.FWRUN (18 Table 18-7). Reset: 0. -/
  fwrun : Bool
  /-- DEVSTAT.RECOVERY (18 Table 18-7). Reset: 0. -/
  recovery : Bool
  /-- DEVSTAT.FATAL (18 Table 18-7). Reset: 0. -/
  fatal : Bool
  /-- DEVSTAT.LMSX (18 Table 18-7). Reset: 0. -/
  lmsx : Bool
  /-- DEVSTAT.SVN, 8 bits: the fused minimum, once raised (18 R322). Reset: none raised, the fused value reads. -/
  svn : Option (BitVec 8)
  /-- FDOMF0-3, 64 bits each (18 Table 18-7). Reset: 0. -/
  fdomf : Vector Word 4
  /-- RSPLIM, 32 bits (18 Table 18-7). Reset: 0xEA60. -/
  rsplim : BitVec 32
  /-- LATE_DROP, 32 bits (18 Table 18-7). Reset: 0. -/
  lateDrop : BitVec 32
  /-- CE_COUNT, 32 bits (18 Table 18-7). Reset: 0. -/
  ceCount : BitVec 32
  /-- MBX_STAT.BUSY (18 Table 18-7). Reset: 0. -/
  busy : Bool
  /-- MBX_STAT.OVR (18 Table 18-7). Reset: 0. -/
  ovr : Bool
  /-- MBX_STAT.CODE, 8 bits (18 Table 18-7). Reset: 0. -/
  code : BitVec 8
  /-- MBX_ARG0-7, 64 bits each (18 Table 18-7). Reset: 0. -/
  arg : Vector Word 8
  /-- MBX_RES0-3, 64 bits each (18 Table 18-7). Reset: 0. -/
  res : Vector Word 4
  /-- MBX_DATA, 4 KiB (18 Table 18-7). Reset: zero (DESIGN CHOICE, 1). -/
  data : Memory
  /-- MEAS0 and MEAS1 (18 R322). Reset: 0 (DESIGN CHOICE, 5). -/
  meas0 : BitVec 384
  meas1 : BitVec 384
  /-- The package flash slot as rewritten by a persistent recovery; none: as shipped (18 R324). Reset: none. -/
  flash : Option (List Byte)
  /-- A write to the flash slot is in progress (18 R324). Reset: false. -/
  flashBusy : Bool
  /-- The recovery image buffer (18 R324). Reset: zero (DESIGN CHOICE, 1). -/
  recBuf : Memory
  /-- The LMS leaf counter (18 R323). Reset: 0 (DESIGN CHOICE, 6). -/
  leaf : Nat
  /-- The device has power (18 R322). Reset: true. -/
  powered : Bool
  deriving DecidableEq, Repr

def DevState.reset : DevState :=
  { fwrun := false, recovery := false, fatal := false, lmsx := false, svn := none, fdomf := Vector.replicate 4 0,
    rsplim := 0xEA60, lateDrop := 0, ceCount := 0, busy := false, ovr := false, code := 0,
    arg := Vector.replicate 8 0, res := Vector.replicate 4 0, data := .empty, meas0 := 0, meas1 := 0, flash := none,
    flashBusy := false, recBuf := .empty, leaf := 0, powered := true }

end Sys2Proof.Machine
end

