-- ==== Sys2Proof/Machine/FabState.lean ====
section
/-! DEFINITION. The state of die links, fabric ports, Ethernet ports, monitors and throttling, and the state after
reset (19, 21). -/

namespace Sys2Proof.Machine

/-- Port states, coded as in Table 19-5. -/
inductive PortSt
  | down | train | ident | active | degraded | draining | dark | quarantine
  deriving DecidableEq, Repr

/-- Lane states, coded as in PORT_WL (Table 19-11). -/
inductive LaneSt
  | off | active | leaving | train | prove | joining | dark | failed
  deriving DecidableEq, Repr

/-- One lane of a port (R339). -/
structure Lane where
  st : LaneSt
  /-- Attempts since the lane was last ACTIVE (Table 19-7). -/
  tries : Nat
  /-- Consecutive good windows in PROVE (Table 19-7). -/
  good : Nat
  deriving DecidableEq, Repr

/-- A flit in the replay buffer (R335). -/
structure Sent where
  seq : Nat
  flit : Flit
  /-- Times sent without ACK advancing (R336). -/
  count : Nat
  deriving DecidableEq, Repr

/-- A flit that waits at a port for an allowance or a window: its VC, and FRAME_CLK of its arrival there (R332). -/
structure TxFlit where
  vc : Nat
  flit : Flit
  at_ : Nat
  deriving DecidableEq, Repr

/-- A flit on the wire, with the active set that carries it and the number of its first beat (R333). -/
structure OnWire where
  set : Nat
  beat : Nat
  flit : Flit
  deriving DecidableEq, Repr

/-- A fabric port (R333-R341, Table 19-11). -/
structure Port where
  /-- PORT_STAT.STATE. Reset: DOWN. -/
  st : PortSt
  /-- PORT_WL: up to 16 lanes. Reset: OFF. -/
  lanes : Vector Lane 16
  /-- PORT_CTL.EN, BOND, TC0LIM, DARKLIM. Reset: 0, 0, 2, 0x16E4. -/
  en : Bool
  bond : Bool
  tc0lim : Nat
  darklim : Nat
  /-- PORT_STAT.OPENTC. Reset: 0. -/
  openTc : Nat
  /-- PORT_STAT.PEERDEV, PEERPORT. Reset: 0. -/
  foundDev : Nat
  foundPort : Nat
  /-- The peer that the last exchange of IDENTs accepted, device and port (R336, R347). Reset: none. -/
  peer : Option (Nat × Nat)
  /-- PORT_PEER. Reset: the default wiring on a local port (R345, `Port.resetOf`), 0 on the others (DESIGN CHOICE, 5). -/
  peerDev : Nat
  peerPort : Nat
  peerV : Bool
  /-- PORT_CNT. Reset: 0. -/
  replayed : Nat
  crcerr : Nat
  bad : Nat
  /-- Next new sequence number, and the replay buffer (R335). Reset: 0, empty. -/
  txSeq : Nat
  replay : List Sent
  /-- FRAME_CLK of the last advance of ACK (R336). -/
  ackAt : Nat
  /-- Sequence number expected (R335). Reset: 0. -/
  rxNext : Nat
  /-- FRAME_CLK of the oldest accepted flit not yet acknowledged (R335). -/
  owe : Option Nat
  /-- Number and FRAME_CLK of the last NAK sent (R335). -/
  nak : Option (Nat × Nat)
  /-- Flits are discarded without a NAK until a STRIPE arrives (R360). -/
  mute : Bool
  /-- SEQ of the STRIPE that this side sent at a laser fault: NAKs at or above it are ignored (R360). -/
  stripeSeq : Option Nat
  /-- A STRIPE with REQ = 1 has been sent for this set and not answered (R339, R360). -/
  asked : Option Nat
  /-- The cycle of the last NAK served, and how many flits had been put on the wire before (Table 19-12). Reset: none. -/
  naked : Option (Nat × Nat)
  /-- Reserved entries per VC and the shared pool (R340). Reset: 0. -/
  reserve : Vector Nat 10
  pool : Int
  /-- ENTRIES of the peer (R340). Reset: 0. -/
  entries : Nat
  /-- Entries of each VC freed here and not yet returned (R340). Reset: 0. -/
  freed : Vector Nat 10
  /-- FRAME_CLK of the last change of state. Reset: 0. -/
  since : Nat
  /-- In TRAIN or IDENT with the replay buffer kept since this FRAME_CLK (R336). -/
  kept : Option Nat
  /-- RECONF came while the port was in TRAIN (R358). -/
  reconf : Bool
  /-- The port was moved by RECONF: its allowances are held (R347). -/
  held : Bool
  /-- VCs whose DRAIN has been sent, and received (R338). -/
  drainTx : List Nat
  drainRx : List Nat
  /-- An IDENT has been sent since IDENT was entered. -/
  identTx : Bool
  /-- Flits resent since the port's previous event (Table 21-5). -/
  resent : Nat
  /-- The set that this side sends under, and the number of the next beat (R333). Reset: 0. -/
  txSet : Nat
  beat : Nat
  /-- Flits put on the wire, oldest first; and those that wait. -/
  out : List OnWire
  txq : List TxFlit
  deriving DecidableEq, Repr

def Lane.off : Lane := ⟨.off, 0, 0⟩

/-- A port after reset. -/
def Port.reset : Port :=
  { st := .down, lanes := Vector.replicate 16 .off, en := false, bond := false, tc0lim := 2, darklim := 0x16E4
    openTc := 0, foundDev := 0, foundPort := 0, peer := none, peerDev := 0, peerPort := 0, peerV := false, replayed := 0
    crcerr := 0, bad := 0, txSeq := 0, replay := [], ackAt := 0, rxNext := 0, owe := none, nak := none
    mute := false, stripeSeq := none, asked := none, naked := none, reserve := Vector.replicate 10 0, pool := 0, entries := 0
    freed := Vector.replicate 10 0, since := 0, kept := none, reconf := false, held := false, drainTx := []
    drainRx := [], identTx := false, resent := 0, txSet := 0, beat := 0, out := [], txq := [] }

/-- Port `n` after reset: a local port E`q` holds the default wiring of device 0 (R345, Table 19-11). -/
def Port.resetOf (n : Nat) : Port :=
  if 64 ≤ n ∧ n < 95 then { Port.reset with peerDev := n - 63, peerPort := 158 - n, peerV := true } else .reset

/-- A message of Table 19-3 with the slot that carries it (R331). -/
structure FMsg where
  code : Nat
  cls : Nat
  tc : Nat
  tag : Nat
  gen : Nat
  ddev : Nat
  ddie : Nat
  sdev : Nat
  sdie : Nat
  sport : Nat
  poison : Bool
  deadline : Nat
  /-- Physical address: LADDR and ADDR. -/
  pa : Nat
  size : Nat
  err : Nat
  info : Nat
  bytes : List Byte
  /-- LWR: the line's bytes that the MASK carries. -/
  mask : List Bool
  /-- Receiving port and VC, and FRAME_CLK of the arrival. -/
  port : Nat
  vc : Nat
  at_ : Nat
  deriving DecidableEq, Repr

/-- The path of the messages of one VC to one destination (R343). -/
structure Path where
  dst : Nat
  vc : Nat
  /-- The port in use, the messages sent on it, and FRAME_CLK of the last. -/
  port : Nat
  sent : Nat
  at_ : Nat
  /-- The highest message that a DACK has covered. -/
  covered : Nat
  /-- Messages held for a new path, oldest first. -/
  held : List Flit
  deriving DecidableEq, Repr

/-- A bound Ethernet queue (R353, Table 19-13). -/
structure EthQ where
  port : Nat
  rx : Bool
  num : Nat
  region : Nat
  va : Nat
  /-- The descriptor's fields as read at the binding. -/
  ring : Nat
  log2n : Nat
  prio : Nat
  mac : Nat
  cq : Nat
  head : Nat
  /-- Stopped by R356. -/
  stopped : Bool
  /-- An unbinding waits for the frames in progress (R353). -/
  closing : Bool
  /-- Transmit: frames on the wire: index, length, status. -/
  wire : List (Nat × Nat × Nat)
  deriving DecidableEq, Repr

/-- An Ethernet port (Table 19-14). -/
structure EthPort where
  up : Bool
  paused : BitVec 8
  en : Bool
  pfcen : BitVec 8
  mac : BitVec 48
  tx : Nat
  rx : Nat
  fcserr : Nat
  noqueue : Nat
  overrun : Nat
  /-- The receive store (R355): queue number, frame. -/
  held : List (Nat × List Byte)
  /-- Frames sent, oldest first. -/
  out : List (List Byte)
  /-- Priorities for which this side sends pause (R355). -/
  pausing : BitVec 8
  deriving DecidableEq, Repr

def EthPort.reset : EthPort := ⟨false, 0, false, 0, 0, 0, 0, 0, 0, 0, [], [], 0⟩

/-- A die's monitors (Table 21-4). -/
structure Mon where
  temp : Nat
  tpeak : Nat
  vnow : Nat
  vmin : Nat
  droops : Nat
  rosc : Nat
  /-- FRAME_CLK since which TEMP has stood at 110 °C or more (R366). -/
  hot : Option Nat
  deriving DecidableEq, Repr

def Mon.reset : Mon := ⟨0, 0, 0, 0xFFF, 0, 0, none⟩

/-- Fabric, Ethernet and operation. -/
structure FabState where
  /-- FAB_ID.DEVICE, 14 bits (19 Table 19-11). Reset: 0. -/
  fabId : Nat
  /-- FAB_ID.V (19 Table 19-11). Reset: 0. -/
  fabV : Bool
  /-- The 95 ports; a port not listed is `Port.resetOf` (19 R350). Reset: none listed. -/
  ports : List (Nat × Port)
  /-- RT_SEL, 12 bits (19 Table 19-11). Reset: 0. -/
  rtSel : BitVec 12
  /-- The route table: group × 8 + candidate, and RT_DATA (19 R346). Reset: 0. -/
  routes : List (Nat × Nat)
  /-- Live global ports of the group's other positions (19 R346). Reset: 0. -/
  peersUp : List (Nat × Word)
  /-- This device's global ports as last announced to its group peers (19 R346). Reset: 0. -/
  announced : Word
  /-- Messages that have arrived and wait at their homes (19 R332). Reset: none. -/
  inbox : List FMsg
  /-- Back-invalidations received whose acknowledgement is still to be sent (12 R264). Reset: none. -/
  bisIn : List FMsg
  /-- Dirty lines of recalled replicas, whose bytes leave with the acknowledgements: address, bytes and which of them
  (12 R264). Reset: none. -/
  biData : List (Nat × List Byte × List Bool)
  /-- Lines on their way to packages that asked for them (12 Table 12-5). Reset: none. -/
  owed : List FMsg
  /-- Requests of other devices at stage barriers and futures that have had no reply: their number, from 1,000 on, and the
  message (19 R332). Reset: none. -/
  syncs : List (Nat × FMsg)
  /-- Flits of this device that a port in reconfiguration holds at their source, each with its die (19 R347, R359).
  Reset: none. -/
  waiting : List (Nat × Flit)
  /-- The paths in use, with the messages held after a route change (19 R343). Reset: none. -/
  paths : List Path
  /-- Source, VC and highest message received for which a DACK is due (19 R343). Reset: none. -/
  dacks : List (Nat × Nat × Nat)
  /-- Messages received so far of each source and VC (19 R343). Reset: none. -/
  counts : List (Nat × Nat × Nat)
  /-- TOKEN.HOLDER (19 R349). Reset: 0. -/
  token : Option Nat
  /-- The message of a handover under way: 0 OFFER, 1 ACCEPT, 2 COMMIT, and the CP that is to hold the token
  (19 R349). Reset: none. -/
  tokenMsg : Option (Nat × Nat)
  /-- Modules lost of each of the 14 die links (00 R3, 19 R327). Reset: 0. -/
  linkLost : Vector Nat 14
  /-- Modules of each die link that have degraded from x64 to x32 (19 R327). Reset: 0. -/
  linkHalf : Vector Nat 14
  /-- FRAME_CLK since which a die link without a module up trains (19 R329). Reset: none. -/
  linkTrain : Vector (Option Nat) 14
  /-- FRAME_CLK since which the CPs have been apart (19 R348). Reset: none. -/
  apart : Option Nat
  /-- FRAME_CLK of the last reachability check (19 R348). Reset: 0. -/
  checked : Nat
  /-- The package has split, and the side that carries on (19 R348). Reset: no. -/
  split : Bool
  /-- CPs that have halted (19 R348, R349). Reset: none. -/
  haltedCps : List Nat
  /-- The two Ethernet ports (19 Table 19-14). Reset: down. -/
  eth : Vector EthPort 2
  /-- Bound Ethernet queues (19 R353). Reset: none. -/
  ethq : List EthQ
  /-- PLIM, 13 bits (21 Table 21-3). Reset: 0x1D4C. -/
  plim : BitVec 13
  /-- THR_CTL.TTHR, 8 bits (21 Table 21-3). Reset: 0x5F. -/
  tthr : BitVec 8
  /-- THR_CTL.HSTEP, 3 bits (21 Table 21-3). Reset: 0. -/
  hstep : BitVec 3
  /-- THR_STAT.STEP, 3 bits (21 Table 21-3). Reset: 0. -/
  step : Nat
  /-- THR_STAT.CAUSE, 3 bits (21 Table 21-3). Reset: 0. -/
  thrCause : Nat
  /-- THR_STAT.PWR, 16 bits (21 Table 21-3). Reset: 0. -/
  pwr : Nat
  /-- THR_CYC, 64 bits (21 Table 21-3). Reset: 0. -/
  thrCyc : Word
  /-- FRAME_CLK since which no evaluation has asked for a higher step (21 R364). Reset: 0. -/
  calm : Nat
  /-- FEVQ.PA, 56 bits (21 Table 21-3). Reset: 0. -/
  fevq : BitVec 56
  /-- Device events of this cycle, in the order in which they will be posted: TYPE, UNIT, words 0x10 and 0x18
  (21 R367). Reset: none. -/
  devEvents : List (Nat × Nat × Nat × Nat)
  /-- LASER_STAT.FAULT, 16 bits (21 Table 21-3). Reset: 0. -/
  laser : BitVec 16
  /-- The 21 dies' monitors; one not listed is as after reset (21 Table 21-4). Reset: none listed. -/
  mons : List (Nat × Mon)
  /-- FRAME_CLK of the last evaluation of the step (21 R364). Reset: 0. -/
  thrAt : Nat
  /-- Compute-clock cycles since reset: SCHED_CLK of a core that is not listed (11 R242). Reset: 0. -/
  cycles : Nat
  /-- Eighths of a compute-clock cycle that have passed (21 R364). Reset: 0. -/
  phase : Nat
  /-- Stretched compute-clock cycles still to come (21 R365). Reset: 0. -/
  stretch : Nat
  /-- Every compute clock is stopped (21 R366). Reset: no. -/
  stopped : Bool
  deriving DecidableEq, Repr

def FabState.reset : FabState :=
  { fabId := 0, fabV := false, ports := [], rtSel := 0, routes := [], peersUp := [], announced := 0, inbox := [], bisIn := []
    biData := [], owed := [], syncs := [], waiting := [], paths := [], dacks := [], counts := [], token := some 0, tokenMsg := none, linkLost := Vector.replicate 14 0
    linkHalf := Vector.replicate 14 0, linkTrain := Vector.replicate 14 none, apart := none
    checked := 0, split := false, haltedCps := [], eth := Vector.replicate 2 .reset, ethq := [], plim := 0x1D4C
    tthr := 0x5F, hstep := 0, step := 0, thrCause := 0, pwr := 0, thrCyc := 0, calm := 0, thrAt := 0, cycles := 0, fevq := 0, devEvents := [], laser := 0
    mons := [], phase := 0, stretch := 0, stopped := false }

end Sys2Proof.Machine
end

