-- ==== Sys2Proof/Machine/State.lean ====
section
/-! DEFINITION. The machine's state: one K4 package and the physical memory of its pod, the state after reset, and
the reasons why a step stops. -/

namespace Sys2Proof.Machine

/-- Reasons why the machine stops. -/
inductive Fault
  /-- `step`, when the device has no power and no power-on is due (R322, R323). Safe: nothing runs without power. -/
  | unpowered
  deriving DecidableEq, Repr

/-- Reasons why an instruction has no meaning here. -/
inductive Refusal
  /-- `exec`, for an instruction without a meaning, by its mnemonic. Safe: the model stops. -/
  | notModelled (mnemonic : String)
  deriving DecidableEq, Repr

/-- What happens outside and has no row of its own among the events. -/
inductive Outside
  /-- A module of die link `l` degrades from x64 to x32 (R327). -/
  | moduleHalf (l : Nat)
  /-- Die link `l`, which is down, has a signal again (R329). -/
  | linkSignal (l : Nat)
  /-- `k` modules of die link `l` have come up, `h` of them at x32 (R329). -/
  | linkUp (l k h : Nat)
  /-- Laser pluggable `k` has been replaced and has output again (R366). -/
  | laserBack (k : Nat)
  deriving DecidableEq, Repr

/-- What moves next: the agenda holds the outside events and the choices that the manual leaves open, in order. -/
inductive Move
  /-- The CC of a core issues, or finds its bundle held. -/
  | cc (n : Nat)
  /-- An engine or channel of a core starts, continues or completes. -/
  | unit (n : Nat) (u : Unit8)
  /-- An event of the machine, or an instruction taken directly. -/
  | ev (i : Instr)
  /-- One cycle of FRAME_CLK. -/
  | tick
  /-- A domain's copy takes the line of an address from memory (R78). -/
  | fetch (dom pa : Nat)
  /-- A domain's line of an address is written back, if it was written, and dropped (R78). -/
  | writeBack (dom pa : Nat)
  /-- From now on the writes of core `n` stop, or do not stop, at scope CORE for a while (R80). -/
  | hold (n : Nat) (on : Bool)
  /-- Write `k` that has stopped there is performed at a wider scope (R79). -/
  | perform (n k : Nat) (sc : Scope)
  /-- Something that happens outside. -/
  | out (o : Outside)
  deriving DecidableEq, Repr

/-- The state of the package and of the pod's memory. -/
structure State where
  /-- Physical memory of the pod, 56-bit byte addresses (18 R315). Reset: zero (DESIGN CHOICE, 1). -/
  mem : Memory
  /-- Poisoned physical ranges: start, length (12 R265, R268). Reset: none. -/
  poison : List (Nat × Nat)
  /-- Tile directory entries (12 Table 12-2). Reset: none. -/
  dir : List DirEnt
  /-- Directory messages under way, in order of sending (12 R258). Reset: none. -/
  msgs : List Msg
  /-- The lines of the 96 L2 slices, which are the copies of the reach-domains (03 R77, R78; 12 R253). Reset: none. -/
  lines : List LineSt
  /-- The snoop filters: remote holders of POD lines, and of tiles with more than four (12 R263). Reset: none. -/
  snoop : List SnoopEnt
  /-- Back-invalidations not yet acknowledged (12 R264, R265). Reset: none. -/
  bis : List BiReq
  /-- The 88 cores; a core not listed is as after reset (00 R4). Reset: none listed. -/
  cores : List (Nat × Core)
  /-- The 88 arrays; an array not listed is as after reset (00 R4, 08 R172). Reset: none listed. -/
  arrays : List (Nat × ArraySt)
  /-- The command processors (17). Reset: `CpState.reset`. -/
  cp : CpState
  /-- BAR0 registers and boot state (18 Table 18-7). Reset: `DevState.reset`. -/
  dev : DevState
  /-- Fabric, Ethernet, monitors and power (19, 21). Reset: `FabState.reset`. -/
  fab : FabState
  /-- FRAME_CLK, 64 bits (10 Table 10-8). Reset: 0. -/
  frameClk : Nat
  /-- What moves next: the model's own (notes/assumptions/7.md). Reset: empty. -/
  agenda : List Move
  /-- The core and the channel whose word is executed: the model's own. Reset: 0, 0. -/
  cur : Nat
  chan : BitVec 3
  /-- Free values drawn so far: the model's own (notes/assumptions/2.md). Reset: 0. -/
  draws : Nat
  deriving DecidableEq, Repr

/-- The state after power-on reset (R14, R322). -/
def State.reset : State :=
  { mem := .empty, poison := [], dir := [], msgs := [], lines := [], snoop := [], bis := [],
    cores := [], arrays := [], cp := .reset, dev := .reset, fab := .reset, frameClk := 0, agenda := [], cur := 0,
    chan := 0, draws := 0 }

end Sys2Proof.Machine
end

