-- ==== Sys2Proof/Machine/Ops.lean ====
section
/-! DEFINITION. The named operations over the state that every meaning uses: cores and registers, raising a fault,
regions and what they inherit, physical memory with its copies, translation. -/

namespace Sys2Proof.Machine

/-- What a step answers. -/
abbrev Res := Host.Outcome State Fault Refusal

/-- One meaning after another. -/
def andThen (r : Res) (f : State → Res) : Res :=
  match r with
  | .next s => f s
  | x => x

/-- Element of a vector, or a default beyond its end. -/
def vget {α : Type} {n : Nat} (v : Vector α n) (d : α) (i : Nat) : α := v[i]?.getD d

/-- Replace an element of a vector; no effect beyond its end. -/
def vset {α : Type} {n : Nat} (v : Vector α n) (i : Nat) (x : α) : Vector α n := v.setIfInBounds i x

/-- A word from a number, modulo 2^64. -/
def w64 (n : Nat) : Word := BitVec.ofNat 64 n

/-- A field of a word. -/
def fld (w : Word) (lo n : Nat) : Nat := bitsOf w.toNat lo n

/-- Replace a field of a word. -/
def setFld (w : Word) (lo n v : Nat) : Word :=
  w64 (w.toNat - bitsOf w.toNat lo n * 2 ^ lo + v % 2 ^ n * 2 ^ lo)

/-! ## Cores, arrays, the current core -/

namespace State

/-- Core `n` (R4). -/
def core (s : State) (n : Nat) : Core := tabGet { Core.reset with sched := s.fab.cycles } s.cores n

def setCore (s : State) (n : Nat) (c : Core) : State := { s with cores := tabSet s.cores n c }

def updCore (s : State) (n : Nat) (f : Core → Core) : State := s.setCore n (f (s.core n))

/-- The core whose word is being executed. -/
def me (s : State) : Core := s.core s.cur

/-- Change the core whose word is being executed. -/
def upd (s : State) (f : Core → Core) : State := s.updCore s.cur f

/-- Array `k` (R4): contents undefined until written (R172). -/
def array (s : State) (k : Nat) : ArraySt :=
  tabGet { tiles := .empty, accs := .empty, sparse := [], holder := none, lastRegion := none } s.arrays k

def setArray (s : State) (k : Nat) (a : ArraySt) : State := { s with arrays := tabSet s.arrays k a }

/-- Channel `k` of core `n`. -/
def chan_ (s : State) (n k : Nat) : Channel := vget (s.core n).ch .zero k

def updChan (s : State) (n k : Nat) (f : Channel → Channel) : State :=
  s.updCore n fun c => { c with ch := vset c.ch k (f (vget c.ch .zero k)) }

/-- The next number of a free value (R15). -/
def draw (s : State) : Nat × State := (s.draws, { s with draws := s.draws + 1 })

end State

/-- A sparsity queue that the spec leaves undefined (R172): up to 32 entries of 64 or 128 bytes (R194), all free. -/
def freeSparse (n : Nat) : List (List Byte) :=
  (List.range ((Config.freeWord n).toNat % 33)).map fun i =>
    (List.range (if (Config.freeWord n).getLsbD (6 + i) then 128 else 64)).map fun j => Config.freeByte n (128 * i + j)

/-- What a CR of a region finds is undefined: the last holder ran in the same region, or there was none (R32, R172). -/
def undefinedFor (last : Option Nat) (region : Nat) : Bool := last.all (· == region)

/-- The tiles, accumulators and sparsity queue of an array that passes to a new CR: undefined, or zero where its last
holder ran in another region (R172). -/
def State.drawArray (s : State) (same : Bool) : (Memory × Memory × List (List Byte)) × State :=
  (if same then (⟨[], .free s.draws⟩, ⟨[], .free (s.draws + 1)⟩, freeSparse (s.draws + 2)) else (.empty, .empty, []),
    { s with draws := s.draws + 3 })

/-- The C-die of a logical core (R4). -/
def dieOf (n : Nat) : Nat := if n < 44 then 0 else 1

/-- The array in a slot of a core (R5, R172): slot 0 is the partner array. -/
def Core.slotArray (c : Core) (n k : Nat) : Option Nat :=
  if k = 0 then some n else vget c.slots none (k - 1)

/-! ## Registers -/

/-- s`r`; s0 reads 0 (R102). -/
def Core.reg (c : Core) (r : Nat) : Word := if r = 0 then 0 else vget c.regs 0 r

/-- Write s`r`; a write to s0 is discarded (R102). -/
def Core.setReg (c : Core) (r : Nat) (v : Word) : Core :=
  if r = 0 then c else { c with regs := vset c.regs r v }

/-- p`k`; p0 reads true (R102). -/
def Core.pred (c : Core) (k : Nat) : Bool := k == 0 || c.preds.getLsbD k

/-- Write p`k`; a write to p0 is discarded (R102). -/
def Core.setPred (c : Core) (k : Nat) (v : Bool) : Core :=
  if k = 0 then c
  else { c with preds := if v then c.preds ||| (1#8 <<< k) else c.preds &&& ~~~(1#8 <<< k) }

/-- A scalar register is marked pending (R21); s0 never is. -/
def Core.isPend (c : Core) (r : Nat) : Bool := r != 0 && c.pend.getLsbD r

def Core.setPend (c : Core) (r : Nat) (v : Bool) : Core :=
  if r = 0 then c
  else { c with pend := if v then c.pend ||| (1#32 <<< r) else c.pend &&& ~~~(1#32 <<< r) }

/-- The S word of the bundle at the PC (R19). -/
def Core.sWord (c : Core) : Word := w64 (c.imem.rdN (16 * c.pc) 4)

/-! ## Raising a fault (R309, R368) -/

/-- A core whose operations still act in a cycle: it runs, or a freeze was called for in this very cycle (R368). -/
def Core.live (c : Core) (clk : Nat) : Bool :=
  c.status == .running || (c.status == .freezing && c.frozenAt == clk)

/-! ## Engines of a core -/

def Core.eng (c : Core) : Unit8 → Engine
  | .ve => c.ve
  | .me => c.me
  | .hu => c.hu
  | .ch k => (vget c.ch .zero k.toNat).eng

def Core.setEng (c : Core) (u : Unit8) (e : Engine) : Core :=
  match u with
  | .ve => { c with ve := e }
  | .me => { c with me := e }
  | .hu => { c with hu := e }
  | .ch k =>
    let h := vget c.ch .zero k.toNat
    { c with ch := vset c.ch k.toNat { h with eng := e } }

def State.updEng (s : State) (n : Nat) (u : Unit8) (f : Engine → Engine) : State :=
  s.updCore n fun c => c.setEng u (f (c.eng u))

/-- An engine by its observer number. -/
def unitOfObs (o : Nat) : Option Unit8 :=
  if o = 0 then some .ve else if o = 1 then some .me else if o = 2 then some .hu
  else if 8 ≤ o ∧ o ≤ 15 then some (.ch (BitVec.ofNat 3 (o - 8))) else none

/-- A step of an engine has read its sources and has still to write: the core serves no forwarded request now (R250). -/
def Core.inStep (c : Core) : Bool := c.ve.read || c.ch.toList.any fun h => h.eng.outs.isSome

/-- The order in which faults of one cycle are recorded: CC, VE, channels 0-7, ME, HU (R309). -/
def obsRank (obs : Nat) : Nat :=
  match obs with
  | 3 => 0
  | 0 => 1
  | 1 => 10
  | 2 => 11
  | n => n - 6

/-- Whether a fault is recorded in the place of the one that called for the freeze in the same cycle (R309). -/
def FreezeWhy.yields (w : FreezeWhy) (r : FaultRec) : Bool :=
  match w with
  | .fault q => decide (obsRank r.obs < obsRank q.obs)
  | _ => false

/-- A fault of an access or of a request to S0 that is over: no step meets it again after the resume, so it is held when
another fault takes the frame (R309). -/
def FaultRec.once (r : FaultRec) : Bool := r.cause == .rdTimeout || r.cause == .hamFail || r.cause == .veBulkFail

/-- What of the freeze's own reason is held when another takes its place. -/
def FreezeWhy.kept : FreezeWhy → List FaultRec
  | .fault q => if q.once then [q] else []
  | _ => []

/-- A fault of core `n` calls for a freeze (R309). Of the faults of one cycle the first in R309's order stands in the
frame, and the other steps meet theirs again. While a freeze is being taken, and while the core is frozen, a fault is
held until the resume (R368). -/
def State.raise (s : State) (n : Nat) (r : FaultRec) : State :=
  s.updCore n fun c =>
    match c.status with
    | .running => { c with status := .freezing, call := some (.fault r), frozenAt := s.frameClk }
    | .idle => c
    | .freezing =>
      if c.frozenAt = s.frameClk then
        match c.call with
        | some w =>
          if w.yields r then { c with call := some (.fault r), heldFaults := c.heldFaults ++ w.kept }
          else { c with heldFaults := c.heldFaults ++ (FreezeWhy.fault r).kept }
        | none => c
      else { c with heldFaults := c.heldFaults ++ [r] }
    | .frozen => { c with heldFaults := c.heldFaults ++ [r] }

/-- A fault of the CC at its bundle: the bundle does not issue (R122). -/
def State.ccFault (s : State) (cause : Cause) (addr : Word := 0) (info0 : Word := 0) (info1 : Word := 0)
    (info2 : Word := 0) (sub : Nat := 0) (slot : Nat := 0) (wr : Bool := false) : State :=
  s.raise s.cur
    { cause := cause, obs := 3, sub := sub, slot := slot, wr := wr, addr := addr, info0 := info0, info1 := info1,
      info2 := info2, rpc := s.me.pc }

/-- The bundle of the current core is held (R20). -/
def State.stallS (s : State) (why : StallCause) : State :=
  s.upd fun c => { c with stall := why, tried := true }

/-- The S word takes effect: the core changes by `f`, the next bundle is at `pc`, and it can issue `ival` cycles
later (R121, Table 11-1). -/
def State.issueAt (s : State) (pc ival : Nat) (f : Core → Core) : State :=
  s.upd fun c =>
    let c := f c
    { c with pc := pc, nextIssue := c.sched + ival, issued := true, stall := .none, waitAt := none, sync := none, qHead := none }

/-- The S word takes effect and control goes on to the next index (R18). -/
def State.issueS (s : State) (ival : Nat) (f : Core → Core) : State := s.issueAt (s.me.pc + 1) ival f

/-! ## Regions (R289-R291) -/

def State.region? (s : State) (r : Nat) : Option Region := s.cp.regions.find? fun x => x.num == r

def State.updRegion (s : State) (r : Nat) (f : Region → Region) : State :=
  { s with cp := { s.cp with regions := listUpd1 (fun x => x.num == r) f s.cp.regions } }

/-- Doubleword of an RCB at a byte offset below 0xC0. -/
def Region.at (r : Region) (off : Nat) : Word := vget r.w 0 (off / 8)

def Region.parent (r : Region) : Nat := fld (r.at 0) 16 16

/-- OVR bit `b` (Table 17-5). -/
def Region.ovr (r : Region) (b : Nat) : Bool := fld (r.at 8) b 1 == 1

/-- The region from which `r` takes group `b`: itself or its nearest overriding ancestor (R290). -/
def ownerOf (rs : List Region) (b : Nat) : Nat → Region → Region
  | 0, r => r
  | n + 1, r =>
    if r.ovr b then r
    else
      match rs.find? fun x => x.num == r.parent with
      | none => r
      | some p => ownerOf rs b n p

/-- The region whose RCB gives group `b` of region `r`. -/
def State.grp (s : State) (b : Nat) (r : Region) : Region := ownerOf s.cp.regions b s.cp.regions.length r

/-- A field of a region's group (Tables 17-4, 17-5). -/
def State.rfield (s : State) (r : Region) (b off lo n : Nat) : Nat := fld ((s.grp b r).at off) lo n

def State.rCeil (s : State) (r : Region) : Nat := s.rfield r 0 0x00 32 4
def State.rFdom (s : State) (r : Region) : Nat := s.rfield r 1 0x00 36 8
def State.rTracep (s : State) (r : Region) : Bool := s.rfield r 2 0x00 44 1 == 1
def State.rDefwait (s : State) (r : Region) : Bool := s.rfield r 3 0x00 45 1 == 1
def State.rUcen (s : State) (r : Region) : Bool := s.rfield r 8 0x00 46 1 == 1
def State.rCores (s : State) (r : Region) : Nat := s.rfield r 4 0x10 0 7
def State.rArrays (s : State) (r : Region) : Nat := s.rfield r 5 0x10 8 7
def State.rSpadsave (s : State) (r : Region) : Nat := s.rfield r 6 0x10 16 6
def State.rAmp (s : State) (r : Region) : Nat := s.rfield r 7 0x10 24 8
def State.rTc (s : State) (r : Region) : Nat := s.rfield r 9 0x10 32 2
def Region.qlog (r : Region) : Nat := fld (r.at 0x10) 40 5
def State.rAgelim (s : State) (r : Region) : Nat := s.rfield r 13 0x10 48 16
def State.rDustq (s : State) (r : Region) : Nat := s.rfield r 8 0x18 0 19
def State.rCtxn (s : State) (r : Region) : Nat := s.rfield r 6 0x18 32 16
def State.rPlace (s : State) (r : Region) (n : Nat) : Bool :=
  if n < 64 then s.rfield r 4 0x20 n 1 == 1 else s.rfield r 4 0x28 (n - 64) 1 == 1
def State.rPtroot (s : State) (r : Region) : Nat := s.rfield r 10 0x30 0 56
def State.rTrapc (s : State) (r : Region) : Word := (s.grp 3 r).at 0x38
def State.rVdt (s : State) (r : Region) : Nat := s.rfield r 11 0x40 0 56
def State.rCtxa (s : State) (r : Region) : Nat := s.rfield r 6 0x48 0 56
def State.rTrbase (s : State) (r : Region) : Nat := s.rfield r 2 0x50 0 56
def State.rTrslice (s : State) (r : Region) : Nat := s.rfield r 2 0x58 0 16
def State.rEvq (s : State) (r : Region) : Nat := s.rfield r 12 0x60 0 56
def Region.qbase (r : Region) : Nat := fld (r.at 0x68) 0 56
def State.rFrames (s : State) (r : Region) : Nat := s.rfield r 14 0x70 0 56

/-- Whether region `a` is `r` or an ancestor of `r` (R28, R290). -/
def isSelfOrAncestor (rs : List Region) (a : Nat) : Nat → Nat → Bool
  | 0, _ => false
  | n + 1, r =>
    r == a ||
      match rs.find? fun x => x.num == r with
      | none => false
      | some x => x.parent != 0 && isSelfOrAncestor rs a n x.parent

/-- Whether region `r` is region `a` or a descendant of it. -/
def State.within (s : State) (a r : Nat) : Bool := isSelfOrAncestor s.cp.regions a (s.cp.regions.length + 1) r

/-- The limits that bind a region in a group: its own or inherited one, and every overriding ancestor's (R290). -/
def limitsOf (rs : List Region) (b : Nat) : Nat → Region → List Region
  | 0, _ => []
  | n + 1, r =>
    let up := match rs.find? fun x => x.num == r.parent with
      | some p => limitsOf rs b n p
      | none => []
    if r.ovr b then r :: up else up

def State.limits (s : State) (b : Nat) (r : Region) : List Region :=
  limitsOf s.cp.regions b (s.cp.regions.length + 1) r

/-- Scopes by width (R74). -/
def scopeRank : Scope → Nat
  | .core => 0
  | .die => 1
  | .pkg => 2
  | .pod => 3

/-- The narrower of two scopes (R76). -/
def scopeMin (a b : Scope) : Scope := if scopeRank a ≤ scopeRank b then a else b

end Sys2Proof.Machine
end

