-- ==== Sys2Proof/Machine/Operands.lean ====
section
/-! DEFINITION. Operand forms: the seven-bit sources with the inline constants of Table 4-3, sign-extended
immediates, and the scalar registers that a word names. -/

namespace Sys2Proof.Machine

/-- Value of an integer-class entry of Table 4-3 (R99). -/
def constInt (k : Nat) : Int := if k < 32 then (k : Int) - 8 else 2 ^ (k - 27)

/-- FP32 pattern of a float-class entry of Table 4-3 (R99). -/
def constFloat (k : Nat) : Nat :=
  if k < 48 then 0x3F000000 - (k - 40) * 0x800000
  else
    match k with
    | 48 => 0x3EAAAAAB
    | 49 => 0x3E2AAAAB
    | 50 => 0x3E124925
    | 51 => 0x3C010204
    | 52 => 0x3B808081
    | 53 => 0x3B124925
    | 54 => 0x37924925
    | 55 => 0x3F317218
    | 56 => 0x3FB8AA3B
    | 57 => 0x3F3504F3
    | 58 => 0x3FB504F3
    | 59 => 0x40490FDB
    | 60 => 0x3EA2F983
    | 61 => 0x3F400000
    | 62 => 0x3FC00000
    | _ => 0xBF000000

/-- The register file as a function of the number, as a word reads it: s0 is 0 (R102). -/
def regOf (v : Vector Word 32) (r : Nat) : Word := if r = 0 then 0 else vget v 0 r

end Sys2Proof.Machine

namespace Sys2Proof

open Sys2Proof.Machine

/-- A source read by an integer instruction (R99). -/
def Src.ival (g : Nat → Word) : Src → Word
  | .reg r => g r.toNat
  | .const k => BitVec.ofInt 64 (constInt k.toNat)

/-- A source read as FP32: bits 31:0 of a register, an entry's pattern or the exact value of an integer entry
(R99, R130). -/
def Src.fval (g : Nat → Word) : Src → Nat
  | .reg r => (g r.toNat).toNat % 2 ^ 32
  | .const k => if k.toNat < 40 then (rne32 (intVal (constInt k.toNat))).1 else constFloat k.toNat

/-- Whether a source names a float-class entry. -/
def Src.isFloat : Src → Bool
  | .reg _ => false
  | .const k => 40 ≤ k.toNat

/-- The register that a source names, if any. -/
def Src.regs : Src → List Nat
  | .reg r => [r.toNat]
  | .const _ => []

/-- A seven-bit field that decodes as a source (R99). -/
def srcOfField (q : Nat) : Src :=
  if q < 0x40 then .reg (BitVec.ofNat 5 q) else .const (BitVec.ofNat 6 (q - 0x40))

/-- The scalar registers that a word reads or writes: its bundle stalls while one of them is pending (R20, R21).
A run word captures every register (R22). -/
def Instr.names : Instr → List Nat
  | .add d a b | .sub d a b | .mul d a b | .mulh d a b | .mulhU d a b | .div d a b | .divU d a b | .rem d a b
  | .remU d a b | .and d a b | .or d a b | .xor d a b | .andn d a b | .shl d a b | .shr d a b | .sra d a b
  | .rot d a b | .min d a b | .minU d a b | .max d a b | .maxU d a b | .fmin d a b | .fmax d a b | .waitq d a b
  | .sbarv d a b | .sbwait d a b | .fget d a b | .wdecl d a b | .wquery d a b | .dhop d a b | .vdie d a b =>
    d.toNat :: (a.regs ++ b.regs)
  | .sel d a b _ => d.toNat :: (a.regs ++ b.regs)
  | .fadd d a b _ | .fsub d a b _ | .fmul d a b _ | .ffma d a b _ => d.toNat :: (a.regs ++ b.regs)
  | .clz d a | .popc d a | .fcvtF32Bf16 d a | .fcvtF32Fp16 d a | .fcvtF32E4m3 d a | .fcvtF32E5m2 d a =>
    d.toNat :: a.regs
  | .fcvtI64F32 d a _ | .fcvtF32I64 d a _ | .fcvtBf16F32 d a _ | .fcvtFp16F32 d a _ | .fcvtE4m3F32 d a _
  | .fcvtE5m2F32 d a _ => d.toNat :: a.regs
  | .cmp _ a b _ => a.regs ++ b.regs
  | .fcmp _ a b _ => a.regs ++ b.regs
  | .amoAdd d a b _ _ | .amoAnd d a b _ _ | .amoOr d a b _ _ | .amoXor d a b _ _ | .amoSwap d a b _ _
  | .cas d a b _ _ => d.toNat :: (a.regs ++ b.regs)
  | .amoMin d a b _ _ _ | .amoMax d a b _ _ _ => d.toNat :: (a.regs ++ b.regs)
  | .waita d a b _ => d.toNat :: (a.regs ++ b.regs)
  | .fence d _ => [d.toNat]
  | .ffill a b | .fqpush a b | .chtail a b | .brx a b | .tlbinv a b | .trc a b => a.regs ++ b.regs
  | .spawn a | .join a | .wclose a | .wflush a | .jmp a | .trap a | .fstat a | .wmarm a => a.regs
  | .swr a _ | .rngs _ a | .tiesw _ a | .chOrg _ a => a.regs
  | .ret => [31]
  | .srd d _ | .movi d _ | .moviLong d _ | .loop d _ => [d.toNat]
  | .shlImm d a _ | .shrImm d a _ | .sraImm d a _ | .rotImm d a _ => d.toNat :: a.regs
  | .addImm d a _ | .andImm d a _ | .orImm d a _ | .xorImm d a _ | .lea d a _ => d.toNat :: a.regs
  | .addLong d a _ | .andLong d a _ | .orLong d a _ | .xorLong d a _ | .leaLong d a _ => d.toNat :: a.regs
  | .bfx d a _ _ | .bfi d a _ _ => d.toNat :: a.regs
  | .cmpImm _ _ a _ => a.regs
  | .cmpLong _ _ a _ => a.regs
  | .ld d base _ _ _ | .ldU d base _ _ _ | .st d base _ _ _ => [d.toNat, base.toNat]
  | .pref _ base _ _ => [base.toNat]
  | .call .. => [31]
  | .vaddVs _ _ q _ | .vsubVs _ _ q _ | .vmulVs _ _ q _ | .vminVs _ _ q _ | .vmaxVs _ _ q _ => q.regs
  | .vandVs _ _ q _ | .vorVs _ _ q _ | .vxorVs _ _ q _ | .vshlVs _ _ q _ | .vshrVs _ _ q _ => q.regs
  | .vcmpVs _ _ q _ _ => q.regs
  | .shset _ q _ | .viota _ q _ => q.regs
  | .vfill _ q _ => q.regs
  | .vrun _ | .xrun _ _ | .mrun _ => List.range 32
  | .xcopy _ a | .xrcnt _ a | .xjob _ a => a.regs
  | .xtile _ a b | .xmeta _ a b | .xgather _ a b | .xfill _ a b | .xred _ a b | .xwrap _ a b | .xfoot _ a b =>
    a.regs ++ b.regs
  | .xsig _ a b _ | .xbar _ a b _ | .xchain _ a b _ => a.regs ++ b.regs
  | .mma _ _ _ m q | .mmas _ _ _ m q => if m.toNat = 0 then [] else (srcOfField q.toNat).regs
  | .mown _ q | .mrel _ q => q.regs
  | .hld _ base _ _ | .hst _ base _ _ => [base.toNat]
  | .hrot _ _ q | .hacc _ _ q | .hamw _ q | .hamk _ q => q.regs
  | .hrnd _ q | .htieSeed q | .hamd q => q.regs
  | .hpop d _ _ => [d.toNat]
  | .hamq d _ q => d.toNat :: q.regs
  | _ => []

end Sys2Proof

namespace Sys2Proof.Machine

/-- A source of the S word of the current core. -/
def State.sval (s : State) (a : Src) : Word := a.ival s.me.reg

/-- An FP32 source of the S word of the current core. -/
def State.sfval (s : State) (a : Src) : FVal := fp32.decode (a.fval s.me.reg)

/-- sext of an immediate field to 64 bits (R100, R101). -/
def sx {n : Nat} (v : BitVec n) : Word := v.signExtend 64

end Sys2Proof.Machine
end

