-- ==== Sys2Proof/Machine/Flags.lean ====
section
/-! DEFINITION. Flags: the sticky bits of FSTAT (Table 2-10) and the failure record (Table 3-6). -/

namespace Sys2Proof.Machine

/-- The FSTAT bits of the CC (Table 2-10). -/
def ccFlags (f : FFlags) : BitVec 64 :=
  w64 (f.nv.toNat + 2 * f.dz.toNat + 4 * f.ov.toNat + 8 * f.uf.toNat + 16 * f.nx.toNat)

/-- The FSTAT bits of the VE (Table 2-10). -/
def veFlags (f : FFlags) (scaleUf : Bool := false) : BitVec 64 :=
  w64 (256 * (f.nv.toNat + 2 * f.dz.toNat + 4 * f.ov.toNat + 8 * f.uf.toNat + 16 * f.nx.toNat
    + 32 * scaleUf.toNat))

/-- The FSTAT bits of the ME (Table 2-10). -/
def meFlags (f : FFlags) (nanScale : Bool := false) : BitVec 64 :=
  w64 (65536 * (f.nv.toNat + 2 * f.ov.toNat + 4 * f.uf.toNat + 8 * f.nx.toNat + 16 * nanScale.toNat))

/-- Set sticky flags (R66). -/
def Core.post (c : Core) (f : BitVec 64) : Core := { c with fstat := c.fstat ||| f, posted := c.posted ||| f }

/-- The failure record after the failure of a write-class access (R92). -/
def Core.recordFail (c : Core) (cause : FailCause) (va : Nat) : Core :=
  let bit :=
    match cause with
    | .deadLink => 0
    | .refused => 1
    | .timeout => 2
    | .atomicUnknown => 3
    | .poison => 4
  let r := c.failRec ||| (1#64 <<< (bit : Nat))
  let n := fld r 8 8
  let r := if n = 0 then setFld r 16 48 (va / 256) else r
  { c with failRec := if n < 255 then setFld r 8 8 (n + 1) else r }

/-- An entry of an integer comparison of Table 5-4. -/
def condHolds (c : Cond) (a b : Word) : Bool :=
  match c with
  | .eq => a == b
  | .ne => a != b
  | .lt => a.slt b
  | .ge => !(a.slt b)
  | .ltu => a.ult b
  | .geu => !(a.ult b)
  | .tst => a &&& b != 0
  | .ntst => a &&& b == 0

end Sys2Proof.Machine
end

