-- ==== Sys2Proof/Machine/Phys.lean ====
section
/-! DEFINITION. The die links and which dies reach each other, physical memory, the L2 slices that hold the copies of
reach-domains line by line, and translation (R3, R76-R78, R253, R254, R256, R314-R316, R327-R329). -/

namespace Sys2Proof.Machine

/-! ## Die links -/

/-- The 14 die links: lower die, higher die, modules (R3, Table 19-1). -/
def dieLinks : List (Nat × Nat × Nat) :=
  [(0, 1, 4), (0, 2, 4), (0, 3, 4), (0, 4, 4), (0, 5, 4), (1, 6, 4), (1, 7, 4), (1, 8, 4), (1, 9, 4), (5, 6, 2),
   (0, 10, 2), (1, 10, 2), (0, 11, 4), (1, 12, 4)]

/-- The links with a module up. -/
def State.linksUp (s : State) : List (Nat × Nat) :=
  (dieLinks.zipIdx.filter fun l => decide (vget s.fab.linkLost 0 l.2 < l.1.2.2)).map fun l => (l.1.1, l.1.2.1)

/-- The dies that a die has a link to, in ascending order. -/
def dieNeighbours (links : List (Nat × Nat)) (x : Nat) : List Nat :=
  (List.range 13).filter fun y => links.contains (x, y) || links.contains (y, x)

/-- The path of `k` links from a die to another, as the dies after the first: only C- and M-dies relay, and among paths of
one length the one whose first relay has the lowest number (R328). -/
def diePathIn (links : List (Nat × Nat)) (b : Nat) : Nat → Nat → Option (List Nat)
  | 0, x => if x = b then some [] else none
  | k + 1, x =>
    ((dieNeighbours links x).filter fun y => k == 0 || decide (y ≤ 9)).findSome? fun y =>
      (diePathIn links b k y).map (y :: ·)

/-- A shortest path (R328, R42). -/
def diePath (links : List (Nat × Nat)) (x b : Nat) : Option (List Nat) :=
  (List.range 7).findSome? fun k => diePathIn links b k x

/-- The routes that the boot ROM writes for a pair of dies: the primary, and the alternate, which avoids the primary's
first link (R328). -/
def dieRoutes (x b : Nat) : List (List Nat) :=
  let links := dieLinks.map fun l => (l.1, l.2.1)
  match diePath links x b with
  | some (y :: r) => (y :: r) :: (diePath (links.filter fun l => l != (x, y) && l != (y, x)) x b).toList
  | _ => []

/-- Every link of a path from a die is up. -/
def pathUp (up : List (Nat × Nat)) : Nat → List Nat → Bool
  | _, [] => true
  | x, y :: r => (up.contains (x, y) || up.contains (y, x)) && pathUp up y r

/-- The die to which a die sends what is for another: the alternate route while a link of the primary is down (R328). -/
def State.dieHop (s : State) (x b : Nat) : Option Nat :=
  let up := s.linksUp
  let pick := match dieRoutes x b with
    | [p, q] => if pathUp up x p then p else q
    | p :: _ => p
    | [] => []
  pick.head?.filter fun y => pathUp up x [y]

/-- What a die sends comes to another, each die on the way using its own routes. -/
def State.dieWalk (s : State) (b : Nat) : Nat → Nat → Bool
  | 0, x => x == b
  | f + 1, x => x == b || (match s.dieHop x b with
    | some y => s.dieWalk b f y
    | none => false)

/-- Two dies reach each other; a D-die is reached through its M-die (R3). -/
def State.dieReach (s : State) (a b : Nat) : Bool :=
  s.fab.linkLost.toList.all (· == 0) || (s.dieWalk b 8 a && s.dieWalk a 8 b)

/-- S0 can be reached from a core (R164, R215). -/
def State.s0Up (s : State) (n : Nat) : Bool := s.dieReach (dieOf n) 10

/-- The M-die of an array. -/
def arrayDie (k : Nat) : Nat := 2 + k / 11

/-- The M-die of an array is joined to the C-die of a core (R3). -/
def State.arrayUp (s : State) (n k : Nat) : Bool := s.dieReach (dieOf n) (arrayDie k)

/-- The device of a physical address and its offset in that device (R315). -/
def paDev (pa : Nat) : Nat := pa / 2 ^ 40 % 2 ^ 14
def paOff (pa : Nat) : Nat := pa % 2 ^ 40

/-- The D-die of a physical address, through its M-die (R3, R315), can be reached from a C-die, or an L2 slice holds
the line. -/
def State.memUp (s : State) (die pa : Nat) : Bool :=
  s.dieReach die (2 + paOff pa / 4096 % 8) || s.lines.any fun l => l.line == pa / 128

/-! ## Lines of the L2 slices (R253) -/

/-- The copy that serves an access of a core on C-die `die` to a location of a reach: 0, 1 the C-dies, 2 the package,
3 the pod's one copy. -/
def domOf (reach : Scope) (die : Nat) : Nat :=
  match reach with
  | .core | .die => die
  | .pkg => 2
  | .pod => 3

/-- fold of R253: the exclusive-or of the successive 16-bit fields of PA >> 7, of which there are four. -/
def foldPa (pa : Nat) : Nat :=
  let x := pa / 128
  Nat.xor (Nat.xor (bitsOf x 0 16) (bitsOf x 16 16)) (Nat.xor (bitsOf x 32 16) (bitsOf x 48 16))

/-- The home slice of a line in a domain (R253). -/
def homeSlice (dom pa : Nat) : Nat := if dom < 2 then 48 * dom + foldPa pa % 48 else foldPa pa % 96

/-- The slice nearest a core: its site on its C-die (R254, R4). -/
def nearSlice (n : Nat) : Nat := 48 * (n / 44) + (Config.coreSite n).toNat

/-- Whether a line is line `line` of the copy of a domain. -/
def LineSt.at (l : LineSt) (dom line : Nat) : Bool := l.dom == dom && l.line == line

/-- The line of a copy, if an L2 slice holds it. -/
def State.line? (s : State) (dom line : Nat) : Option LineSt := s.lines.find? fun l => l.at dom line

/-- `n` bytes of a line from offset `off` on. -/
def LineSt.piece (l : LineSt) (off n : Nat) : List Byte := (l.data.drop off ++ List.replicate n 0).take n

/-- A write into a line: the bytes, the mask of what the copy wrote (R78), and the end of any count (R256). -/
def LineSt.put (l : LineSt) (off : Nat) (bs : List Byte) : LineSt :=
  { l with
    data := l.piece 0 off ++ bs ++ l.piece (off + bs.length) (128 - (off + bs.length))
    dirty := l.dirty ||| BitVec.ofNat 128 ((2 ^ bs.length - 1) * 2 ^ off)
    rc := none, excl := true }

/-- The bytes that memory holds after a line's write-back: exactly those that the copy wrote change (R78, R252). -/
def LineSt.back (l : LineSt) (old : List Byte) : List Byte :=
  old.zipIdx.map fun b => if l.dirty.getLsbD b.2 then l.data.getD b.2 0 else b.1

/-- The D-die of a physical address is joined to a C-die through its M-die (R3, R315). -/
def State.stackUp (s : State) (pa : Nat) : Bool :=
  let m := 2 + paOff pa / 4096 % 8
  s.dieReach 0 m || s.dieReach 1 m

/-- A line can leave the L2: nothing has to be written back, or its memory can be reached (R3, notes/assumptions/65.md);
that of a replica is another device's (R262). -/
def State.canLeave (s : State) (l : LineSt) : Bool :=
  l.dirty == 0 || paDev (128 * l.line) != s.fab.fabId || s.stackUp (128 * l.line)

/-- A line leaves the L2: written back where it was written, and dropped (R78). -/
def State.evict (s : State) (dom line : Nat) : State :=
  match (s.line? dom line).filter s.canLeave with
  | none => s
  | some l =>
    let mem := if l.dirty = 0 then s.mem else s.mem.wrBytes (128 * line) (l.back (s.mem.rdBytes (128 * line) 128))
    { s with mem := mem, lines := s.lines.filter fun x => !x.at dom line }

/-- The lines of the set of a slice in which a line stands (R253). -/
def State.setOf (s : State) (slice line : Nat) : List LineSt :=
  (s.lines.filter fun l => l.slice == slice).filter fun l => Config.l2Set l.line == Config.l2Set line

/-- The set of a slice in which a line stands has a free way (R253). -/
def State.hasWay (s : State) (slice line : Nat) : Bool :=
  decide ((s.lines.filter fun l => l.slice == slice).length < 16) || decide ((s.setOf slice line).length < 16)

/-- A way for a line in a slice: a full set loses one of its 16 lines, which one is not architectural (R253). -/
def State.way (s : State) (slice line : Nat) : State :=
  if s.hasWay slice line then s
  else
    let set := (s.setOf slice line).filter s.canLeave
    let d := s.draw
    match set[(Config.freeWord d.1).toNat % set.length]? with
    | some l => d.2.evict l.dom l.line
    | none => s

/-- An access to a line makes no other line leave the L2: the copy has it, or its home slice has a way for it. -/
def State.room (s : State) (dom pa : Nat) : Bool :=
  (s.line? dom (pa / 128)).isSome || s.hasWay (homeSlice dom (128 * (pa / 128))) (pa / 128)

/-- A copy takes a line from memory, if it has none (R78). -/
def State.fill (s : State) (dom line : Nat) : State :=
  if (s.line? dom line).isSome then s
  else
    let h := homeSlice dom (128 * line)
    let s := s.way h line
    { s with lines := s.lines ++
        [{ dom := dom, line := line, slice := h, lastCore := 88, run := 0, movedAt := s.frameClk, usedAt := s.frameClk
           rc := none, data := s.mem.rdBytes (128 * line) 128, dirty := 0, excl := false }] }

def State.updLine (s : State) (dom line : Nat) (f : LineSt → LineSt) : State :=
  { s with lines := listUpd1 (fun l => l.at dom line) f s.lines }

/-- The byte at a physical address as the copy of a domain gives it. -/
def State.phByte (s : State) (dom pa : Nat) : Byte :=
  match s.line? dom (pa / 128) with
  | some l => l.data.getD (pa % 128) 0
  | none => s.mem.rd pa

/-- Bytes within one line as the copy of a domain gives them. -/
def State.linePiece (s : State) (dom pa n : Nat) : List Byte :=
  match s.line? dom (pa / 128) with
  | some l => l.piece (pa % 128) n
  | none => s.mem.rdBytes pa n

/-- A line of a copy meets a range. -/
def State.lineIn (s : State) (dom pa n : Nat) : Bool :=
  s.lines.any fun l => l.dom == dom && decide (128 * l.line < pa + n ∧ pa < 128 * l.line + 128)

/-- The `n` bytes at physical address `pa` as the copy of a domain gives them. -/
def State.phRead (s : State) (dom pa n : Nat) : List Byte :=
  if s.lineIn dom pa n then ((pieces 128 (n / 128 + 2) pa n).map fun p => s.linePiece dom p.1 p.2).flatten
  else s.mem.rdBytes pa n

/-- A write within one line. -/
def State.wrLine (s : State) (dom pa : Nat) (bs : List Byte) : State :=
  (s.fill dom (pa / 128)).updLine dom (pa / 128) fun l => l.put (pa % 128) bs

def wrLines (dom : Nat) : List (Nat × Nat) → List Byte → State → State
  | [], _, s => s
  | (a, n) :: r, bs, s => wrLines dom r (bs.drop n) (s.wrLine dom a (bs.take n))

/-- Write bytes into the copy of a domain. -/
def State.phWrite (s : State) (dom pa : Nat) (bs : List Byte) : State :=
  wrLines dom (pieces 128 (bs.length / 128 + 2) pa bs.length) bs s

/-- Little-endian value of a physical read. -/
def State.phNat (s : State) (dom pa n : Nat) : Nat := leNat (s.phRead dom pa n)

/-- Write back and drop every line of a range in one domain's copy (R78). -/
def State.dropCopy (s : State) (dom pa n : Nat) : State :=
  let ls := s.lines.filter fun l => l.dom == dom && decide (128 * l.line < pa + n ∧ pa < 128 * l.line + 128)
  ls.foldl (fun s l => s.evict dom l.line) s

/-- Write back and drop a range in every domain. -/
def State.dropAll (s : State) (pa n : Nat) : State :=
  [0, 1, 2, 3].foldl (fun s dom => s.dropCopy dom pa n) s

/-- One access served from an L2 line (R254, R256): the run of its core, and the remaining count of a counted line. A
write clears the count; a read that takes it to 0 invalidates the line without a write-back. A core that reaches a
migrated line learns its slice. -/
def State.touchLine (s : State) (core dom pa : Nat) (wr : Bool) : State :=
  let line := pa / 128
  let s := s.fill dom line
  match s.line? dom line with
  | none => s
  | some l =>
    let rc := if wr then none else l.rc.map fun k => k - 1
    let l := { l with
      lastCore := core, run := if l.lastCore = core then l.run + 1 else 1, usedAt := s.frameClk, rc := rc }
    let s := if core < 88 ∧ l.slice ≠ homeSlice dom (128 * line) then
        s.updCore core fun c => { c with locator := ((line, l.slice) :: c.locator.filter fun p => p.1 != line).take 64 }
      else s
    if rc = some 0 then { s with lines := s.lines.filter fun x => !x.at dom line }
    else s.updLine dom line fun _ => l

/-- Every line of a range. -/
def State.touch (s : State) (core dom pa n : Nat) (wr : Bool) : State :=
  (List.range ((pa % 128 + n + 127) / 128)).foldl (fun s k => s.touchLine core dom (pa / 128 * 128 + 128 * k) wr) s

/-! ## Physical addresses (R315) -/

/-- A physical byte range meets a line or tile that is poisoned for a C-die (R265, R268, R319). A tile of reach DIE is
poisoned in its own copy alone (R261). -/
def State.isPoisoned (s : State) (pa n : Nat) (die : Nat := 2) : Bool :=
  (s.poison.any fun p => p.1 < pa + n && pa < p.1 + p.2)
    || s.dir.any fun e => e.poisoned && e.dom == die && decide (e.pa < pa + n ∧ pa < e.pa + e.tile)

/-- 768 GiB and 766 GiB (R315). -/
def memTop : Nat := 768 * 2 ^ 30
def memReserved : Nat := 766 * 2 ^ 30

/-- A byte range that names memory which regions may use: present and not reserved to firmware (R314, R315). -/
def paUsable (pa n : Nat) : Bool := decide (pa + n ≤ 2 ^ 54 ∧ paOff pa + n ≤ memReserved)

/-! ## What an acquire reads (R79, R314) -/

def DirEnt.covers (e : DirEnt) (pa : Nat) : Bool := decide (e.pa ≤ pa ∧ pa < e.pa + e.tile)

/-- The domain that holds the home's data: memory itself for reach POD (R261, R262). -/
def DirEnt.home (e : DirEnt) : Nat := if e.reach = .pod then 3 else e.dom

/-- The entry that serves a C-die's access to a physical address (R261). -/
def State.entFor (s : State) (die pa : Nat) : Option DirEnt :=
  s.dir.find? fun e => e.covers pa && (e.dom == die || e.dom == 2)

/-- Reach of a location: its page's, narrowed by any declared window (R76). -/
def State.locReach (s : State) (pa : Nat) (page : Scope) : Scope :=
  match s.dir.find? fun e => e.covers pa with
  | some e => scopeMin e.reach page
  | none => page

/-- The bytes of a core's copy. -/
def Core.tileBytes (c : Core) (t : TileCopy) : List Byte := c.spad.rdBytes t.off t.size

/-- The tile's bytes and the bytes of it that memory does not have: from the owner's copy, or the home's. -/
def State.tileData (s : State) (e : DirEnt) : List Byte × List Nat :=
  match e.owner with
  | none => (s.phRead e.home e.pa e.tile, [])
  | some o =>
    let c := s.core o
    match c.tiles.find? fun t => t.dom == e.dom && t.pa == e.pa with
    | some t => (c.tileBytes t, t.mask)
    | none => (s.phRead e.home e.pa e.tile, [])

def BufW.meets (w : BufW) (dom pa n : Nat) : Bool := w.dom == dom && decide (w.pa < pa + n ∧ pa < w.pa + w.bytes.length)

/-- The bytes at an address over which a write has been made. -/
def BufW.over (w : BufW) (pa : Nat) (bs : List Byte) : List Byte :=
  bs.zipIdx.map fun b =>
    if w.pa ≤ pa + b.2 ∧ pa + b.2 < w.pa + w.bytes.length then w.bytes.getD (pa + b.2 - w.pa) 0 else b.1

/-- What another core, or a CP, of C-die `die` sees of a write of core `m`. -/
def BufW.visible (w : BufW) (m die : Nat) : Bool :=
  match w.lvl with
  | .core => false
  | .die => dieOf m == die
  | _ => true

/-- The bytes in one page that have been performed for an observer of a C-die: those of a window tile, or of the copy under
the writes that it sees of cores (R79). Die 2 stands for no die: what has been performed at PKG. -/
def State.seenAt (s : State) (die pa n : Nat) (page : Scope) : List Byte :=
  match s.entFor die pa with
  | some e => ((s.tileData e).1.drop (pa - e.pa)).take n
  | none =>
    let dom := domOf (s.locReach pa page) die
    let see := fun (b : List Byte) (p : Nat × Core) =>
      (p.2.buf.filter fun w => w.meets dom pa n && w.visible p.1 die).foldl (fun b w => w.over pa b) b
    (s.cores.filter fun p => !p.2.buf.isEmpty).foldl see (s.phRead dom pa n)

/-! ## Translation (R314, R316) -/

/-- A page found by a walk. -/
structure Page where
  pa : Nat
  lg : Nat
  w : Bool
  reach : Scope
  /-- Physical address of the leaf entry. -/
  leaf : Nat
  deriving DecidableEq, Repr

/-- A failed walk: the cause, its subcause and the physical address of the entry. -/
structure WalkErr where
  cause : Cause
  sub : Nat
  entry : Nat
  deriving DecidableEq, Repr

/-- A reach code; 0b00 is invalid (R76). -/
def reachOf (c : Nat) : Option Scope :=
  match c with
  | 1 => some .die
  | 2 => some .pkg
  | 3 => some .pod
  | _ => none

/-- An entry of a page table, read as an acquire at PKG (R314): poisoned data fails the reader's fault domain (R319), and
memory that no C-die reaches gives no reply (R3, R321). -/
def State.tableNat (s : State) (ea : Nat) : Except WalkErr Nat :=
  if !(s.memUp 0 ea || s.memUp 1 ea) then .error ⟨.rdTimeout, 0, ea⟩
  else if s.isPoisoned ea 8 then .error ⟨.dataPoison, 0, ea⟩
  else .ok (leNat (s.seenAt 2 ea 8 .pkg))

/-- One level of the walk below a table at `tbl` (R314): `lvl` 0 is the top. -/
def State.walkFrom (s : State) (va : Nat) : List Nat → Nat → Nat → Except WalkErr Page
  | [], tbl, _ => .error ⟨.xlate, 2, tbl⟩
  | lo :: rest, tbl, lvl =>
    let idx := if lvl = 0 then bitsOf va 43 13 else bitsOf va lo 9
    let ea := tbl + 8 * idx
    match s.tableNat ea with
    | .error x => .error x
    | .ok e =>
      if bitsOf e 0 1 = 0 then .error ⟨.xlate, 1, ea⟩
      else if bitsOf e 10 6 ≠ 0 ∨ bitsOf e 54 2 ≠ 0 ∨ bitsOf e 63 1 ≠ 0 then .error ⟨.xlate, 2, ea⟩
      else if bitsOf e 1 1 = 1 then
        let lg := if lvl = 2 then 25 else 16
        let pa := bitsOf e 16 38 * 2 ^ 16
        if lvl < 2 ∨ bitsOf e 6 4 ≠ 0 ∨ pa % 2 ^ lg ≠ 0 then .error ⟨.xlate, 2, ea⟩
        else
          match reachOf (bitsOf e 4 2) with
          | none => .error ⟨.xlate, 3, ea⟩
          | some r =>
            if bitsOf e 2 1 = 0 then .error ⟨.pageFault, 0, ea⟩
            else if paUsable pa (2 ^ lg) then .ok ⟨pa, lg, bitsOf e 3 1 == 1, r, ea⟩
            else .error ⟨.xlate, 2, ea⟩
      else if rest.isEmpty then .error ⟨.xlate, 2, ea⟩
      else s.walkFrom va rest (bitsOf e 16 38 * 2 ^ 16 + bitsOf e 6 4 * 2 ^ 12) (lvl + 1)

/-- The walk of a region's page table at a virtual address (R314). -/
def State.walk (s : State) (region va : Nat) : Except WalkErr Page :=
  match s.region? region with
  | none => .error ⟨.xlate, 1, 0⟩
  | some r => s.walkFrom va [43, 34, 25, 16] (s.rPtroot r) 0

/-- A walk that also asks for the right to write (R314). -/
def Page.allow (p : Page) (wr : Bool) : Except WalkErr Page :=
  if wr && !p.w then .error ⟨.permission, 0, p.leaf⟩ else .ok p

/-- Translation for the CP's own accesses: the physical address of a byte (R286, R297). -/
def State.xlateCp (s : State) (region va : Nat) (wr : Bool) : Except WalkErr (Nat × Scope) :=
  match s.walk region va with
  | .error e => .error e
  | .ok p =>
    match p.allow wr with
    | .error e => .error e
    | .ok p => .ok (p.pa + va % 2 ^ p.lg, p.reach)

/-- The TLB of an observer: 3 the CC (and HU), 0 VE, 1 ME, 8-15 the channels (R316). -/
def Core.tlbOf (c : Core) (obs : Nat) : List TlbEnt := if obs = 3 ∨ obs = 2 then c.tlb else tabGet [] c.stlb obs

/-- Keep an entry in an observer's TLB: the newest 256, or 16, stay (notes/assumptions/8.md). -/
def Core.tlbPut (c : Core) (obs : Nat) (e : TlbEnt) : Core :=
  let l := e :: (c.tlbOf obs).filter fun x => !(x.va == e.va && x.lg == e.lg && x.region == e.region)
  if obs = 3 ∨ obs = 2 then { c with tlb := l.take 256 } else { c with stlb := tabSet c.stlb obs (l.take 16) }

/-- The TLB entry that maps an address. -/
def tlbHit (l : List TlbEnt) (region va : Nat) : Option TlbEnt :=
  l.find? fun x => x.region == region && va / 2 ^ x.lg * 2 ^ x.lg == x.va

/-- The entry of a page that a walk has found. -/
def Page.entry (p : Page) (region va : Nat) (down : Bool) : TlbEnt :=
  { region := region, va := va / 2 ^ p.lg * 2 ^ p.lg, lg := p.lg, pa := p.pa, w := p.w, reach := p.reach, down := down }

/-- A stream TLB that translates a page fetches the next one in its stream's direction; a fetch that would fault is
dropped (R316). -/
def State.prefetch (s : State) (n obs : Nat) (e : TlbEnt) : State :=
  let c := s.core n
  let va := if e.down then e.va - 1 else e.va + 2 ^ e.lg
  if obs = 3 ∨ obs = 2 ∨ (e.down ∧ e.va = 0) ∨ 2 ^ 56 ≤ va ∨ (tlbHit (c.tlbOf obs) c.region va).isSome then s
  else
    match s.walk c.region va with
    | .error _ => s
    | .ok p => s.updCore n fun c => (c.tlbPut obs (p.entry c.region va e.down)).tlbPut obs e

/-- A stream that has the page above and not the page below comes downwards (R316). -/
def Core.goesDown (c : Core) (obs va lg : Nat) : Bool :=
  let hit := fun (a : Nat) => (tlbHit (c.tlbOf obs) c.region a).isSome
  let base := va / 2 ^ lg * 2 ^ lg
  hit (base + 2 ^ lg) && !(base != 0 && hit (base - 1))

/-- The walk for an observer of core `n`: the page enters its TLB. -/
def State.xlateWalk (s : State) (n obs va : Nat) (wr : Bool) : Except WalkErr (Nat × Scope × State) :=
  let c := s.core n
  match s.walk c.region va with
  | .error x => .error x
  | .ok p =>
    match p.allow wr with
    | .error x => .error x
    | .ok p =>
      let e := p.entry c.region va (c.goesDown obs va p.lg)
      .ok (p.pa + va % 2 ^ p.lg, p.reach, (s.updCore n fun c => c.tlbPut obs e).prefetch n obs e)

/-- Translation for an observer of core `n` (R314, R316): the physical address, the reach, and the state with the
TLB filled. An entry with W = 0 is walked again for a write. -/
def State.xlate (s : State) (n obs va : Nat) (wr : Bool) : Except WalkErr (Nat × Scope × State) :=
  let c := s.core n
  match tlbHit (c.tlbOf obs) c.region va with
  | some e => if !wr || e.w then .ok (e.pa + va % 2 ^ e.lg, e.reach, s.prefetch n obs e) else s.xlateWalk n obs va wr
  | none => s.xlateWalk n obs va wr

/-- The fault record of a failed translation (Table 18-2: the entry address in INFO0 for XLATE). -/
def WalkErr.toFault (e : WalkErr) (obs va pc : Nat) (wr : Bool) : FaultRec :=
  { cause := e.cause, obs := obs, sub := e.sub, wr := wr, addr := w64 va, info0 := if e.cause = .xlate then w64 e.entry else 0
    rpc := pc, leaf := if e.cause = .pageFault then e.entry else 0 }

end Sys2Proof.Machine
end

