-- ==== Sys2Proof/Machine/Route.lean ====
section
/-! DEFINITION. Which devices can be reached: fabric ports and the route of a message to another device (R341, R342,
R346, R347). -/

namespace Sys2Proof.Machine

/-! ## Ports -/

/-- Port `n` of R350; the odd port of a bonded pair is its even partner. -/
def State.portNo (s : State) (n : Nat) : Nat :=
  if n < 64 ∧ n % 2 = 1 ∧ (tabGet .reset s.fab.ports (n - 1)).bond then n - 1 else n

def State.port (s : State) (n : Nat) : Port := tabGet (.resetOf (s.portNo n)) s.fab.ports (s.portNo n)

def State.setPort (s : State) (n : Nat) (p : Port) : State :=
  { s with fab := { s.fab with ports := tabSet s.fab.ports (s.portNo n) p } }

/-- A port carries new messages of a class (R341, R342). -/
def Port.carries (p : Port) (tc : Nat) : Bool := (p.st == .active || p.st == .degraded) && decide (tc ≤ p.openTc)

/-- The N-die of a port (R2): G0-G31 and E0-E15 on N0. -/
def portDie (n : Nat) : Nat := if n < 32 ∨ (64 ≤ n ∧ n < 80) then 11 else 12

/-- A port carries new messages of a class from a C-die: its N-die is not cut off (R3). -/
def State.carriesFrom (s : State) (die n tc : Nat) : Bool := (s.port n).carries tc && s.dieReach die (portDie n)

/-- A port that may come back without passing through DOWN or QUARANTINE (R347, R359). -/
def Port.waits (p : Port) : Bool := p.st == .train || p.st == .ident || p.st == .draining || p.st == .dark

/-! ## Routes (R346) -/

/-- Where a message to a device goes. -/
inductive Route
  /-- The destination is this device. -/
  | here
  /-- The first port of the route. -/
  | go (port : Nat)
  /-- Held at its source (R347). -/
  | hold
  /-- Refused (R342). -/
  | none
  deriving DecidableEq, Repr

/-- The device at the other end of a port: the one expected, or with PORT_PEER.V = 0 the one found (R345, Table 19-6). -/
def Port.other (p : Port) : Option Nat := if p.peerV then some p.peerDev else p.peer.map (·.1)

/-- The local port to a device of the own group (R345). -/
def State.localPort (s : State) (dev : Nat) : Option Nat :=
  (List.range 31).map (· + 64) |>.find? fun n => (s.port n).other == some dev

/-- A message over the direct local link (R346). -/
def State.routeLocal (s : State) (die tc dev : Nat) : Route :=
  match s.localPort dev with
  | Option.none => .none
  | some n =>
    if s.carriesFrom die n tc then .go n else if (s.port n).waits then .hold else .none

/-- The valid candidates of a destination group, in ascending index: exit position, global port, entry position. -/
def State.candidates (s : State) (group : Nat) : List (Nat × Nat × Nat) :=
  (List.range 8).filterMap fun k =>
    let d := tabGet 0 s.fab.routes (group * 8 + k)
    if bitsOf d 16 1 = 1 then some (bitsOf d 0 5, bitsOf d 5 6, bitsOf d 11 5) else Option.none

/-- How a candidate stands for a class: its first port when live, held, or dead. -/
def State.candRoute (s : State) (die tc : Nat) (c : Nat × Nat × Nat) : Route :=
  let me := s.fab.fabId
  if c.1 = me % 32 then
    let p := s.port c.2.1
    if s.carriesFrom die c.2.1 tc then .go (s.portNo c.2.1) else if p.waits then .hold else .none
  else if (tabGet 0 s.fab.peersUp c.1).getLsbD c.2.1 then s.routeLocal die tc (me / 32 * 32 + c.1)
  else .none

/-- The route of a message of a class to a device. -/
def State.route (s : State) (tc dev : Nat) (die : Nat := 0) : Route :=
  let me := s.fab.fabId
  if dev = me then .here
  else if dev / 32 = me / 32 then s.routeLocal die tc dev
  else
    let rs := (s.candidates (dev / 32)).map (s.candRoute die tc)
    let live := rs.filterMap fun r => match r with
      | .go n => some n
      | _ => Option.none
    match live[Nat.xor me dev % live.length]? with
    | some n => .go n
    | Option.none => if rs.contains .hold then .hold else .none

/-- The route of a message of another device that passes through this one (R346): the direct link within the group, and
otherwise the global port of the candidate that its source has chosen, which exits here. -/
def State.relay (s : State) (tc src dev : Nat) (die : Nat) : Route :=
  let me := s.fab.fabId
  if dev = me then .here
  else if dev / 32 = me / 32 then s.routeLocal die tc dev
  else
    let live := (s.candidates (dev / 32)).filterMap fun c =>
      match s.candRoute die tc c with
      | .go n => some (c.1, n)
      | _ => Option.none
    let here := live.filter fun x => x.1 == me % 32
    let k := Nat.xor src dev
    match live[k % live.length]?, here[k % here.length]? with
    | some x, some y => .go (if x.1 = me % 32 then x.2 else y.2)
    | _, _ => .none

/-- The traffic class of a requester: its region's for a core, TC0 for the CP (R340). -/
def State.tcOf (s : State) (core : Nat) : Nat :=
  if core < 88 then
    match s.region? (s.core core).region with
    | some r => s.rTc r
    | Option.none => 0
  else 0

/-- The route of a requester's access to a physical address: of a core, or of the CP of C0 (88) or C1 (89). -/
def State.routePa (s : State) (core pa : Nat) : Route :=
  let die := if core < 88 then dieOf core else core - 88
  if paDev pa = s.fab.fabId then (if s.memUp die pa then .here else .none)
  else s.route (s.tcOf core) (paDev pa) die

end Sys2Proof.Machine
end

