-- ==== Sys2Proof/Machine/Coherence.lean ====
section
/-! DEFINITION. Window tiles: a core's copies, the directory entries, the transitions of Table 12-3 as single
instants, and reads and writes of any location by an observer (R72, R249-R252, R261). -/

namespace Sys2Proof.Machine

/-! ## Lookups -/

/-- The home domain of a reach (R261): a C-die's own, or the package's. -/
def homeDom (reach : Scope) (die : Nat) : Nat := if reach = .die then die else 2

def State.entAt (s : State) (dom pa : Nat) : Option DirEnt := s.dir.find? fun e => e.dom == dom && e.pa == pa

def State.setEnt (s : State) (e : DirEnt) : State :=
  { s with dir := listUpd1 (fun x => x.dom == e.dom && x.pa == e.pa) (fun _ => e) s.dir }

/-- A core's copy of the tile at a scratchpad offset. -/
def Core.tileSp (c : Core) (off : Nat) : Option TileCopy :=
  c.tiles.find? fun t => decide (t.off ≤ off ∧ off < t.off + t.size)

/-- A core's copy of the tile at a physical address. -/
def Core.tilePa (c : Core) (pa : Nat) : Option TileCopy :=
  c.tiles.find? fun t => decide (t.pa ≤ pa ∧ pa < t.pa + t.size)

def Core.updTile (c : Core) (dom pa : Nat) (f : TileCopy → TileCopy) : Core :=
  { c with tiles := listUpd1 (fun t => t.dom == dom && t.pa == pa) f c.tiles }

def State.updTile (s : State) (n dom pa : Nat) (f : TileCopy → TileCopy) : State :=
  s.updCore n fun c => c.updTile dom pa f

def TileSt.valid : TileSt → Bool
  | .s | .e | .o | .m | .sma => true
  | _ => false

def TileSt.transient : TileSt → Bool
  | .isd | .imd | .sma => true
  | _ => false

/-- Nothing is under way at a tile: its entry is idle and no message or transient copy exists (R258, R370). -/
def State.quiet (s : State) (e : DirEnt) : Bool :=
  e.busy == 0 && e.queue.isEmpty && !(s.msgs.any fun m => m.dom == e.dom && m.pa == e.pa)
    && !(s.cores.any fun p => p.2.tiles.any fun t => t.dom == e.dom && t.pa == e.pa && t.st.transient)

/-- Such an entry whose tile core `c` can be given, or its write applied, at once: no holder apart from `c` is inside a
step (R250). -/
def State.free (s : State) (c : Nat) (e : DirEnt) : Bool :=
  s.quiet e && (e.owner.toList ++ e.sharers).all fun k => k == c || !(s.core k).inStep

/-! ## Write-backs (R78, R252) -/

/-- The pairs of an address and a byte that a mask selects. -/
def masked (pa : Nat) (bytes : List Byte) (mask : List Nat) : List (Nat × Byte) :=
  mask.map fun k => (pa + k, bytes[k]?.getD 0)

/-- A recall: the dirty bytes go to the home copy. -/
def State.recallTo (s : State) (dom pa : Nat) (bytes : List Byte) (mask : List Nat) : State :=
  (masked pa bytes mask).foldl (fun s x => s.phWrite dom x.1 [x.2]) s

/-- The byte of a line that memory has taken: the line holds it and owes it no more. -/
def LineSt.clean (l : LineSt) (off : Nat) (b : Byte) : LineSt :=
  { l with data := listSet l.data off b, dirty := l.dirty &&& ~~~BitVec.twoPow 128 off }

/-- A write-back to memory: memory changes exactly the masked bytes, and the home's line of them holds them too. -/
def State.writeBackTo (s : State) (dom pa : Nat) (bytes : List Byte) (mask : List Nat) : State :=
  (masked pa bytes mask).foldl (fun s x =>
    { s.updLine dom (x.1 / 128) (fun l => l.clean (x.1 % 128) x.2) with mem := s.mem.wr x.1 x.2 }) s

/-! ## Transitions of an idle entry as one instant (Table 12-3) -/

/-- Install data in a core's copy. -/
def State.install (s : State) (n : Nat) (e : DirEnt) (bytes : List Byte) (mask : List Nat) (st : TileSt) : State :=
  s.updCore n fun c =>
    match c.tiles.find? fun t => t.dom == e.dom && t.pa == e.pa with
    | none => c
    | some t =>
      { c with spad := c.spad.wrBytes t.off bytes }.updTile e.dom e.pa fun t => { t with st := st, mask := mask }

/-- A copy's state alone. -/
def State.setCopy (s : State) (n : Nat) (e : DirEnt) (st : TileSt) : State :=
  s.updTile n e.dom e.pa fun t => { t with st := st, mask := if st = .i then [] else t.mask }

/-- The tile's memory is another package's: this package's entry stands over a replica (R262). -/
def State.away (s : State) (e : DirEnt) : Bool := e.reach == .pod && paDev e.pa != s.fab.fabId

/-- The replica in the mode that a read, or a write, needs: the home package grants it (R262, notes/assumptions/28.md). -/
def State.replicate (s : State) (e : DirEnt) (wr : Bool) : DirEnt :=
  if s.away e then { e with rep := some (wr || e.rep == some true) } else e

/-- A read in state I may give E: not over a replica in mode S (R262). -/
def DirEnt.mayE (e : DirEnt) : Bool := e.rep != some false

/-- RS of core `c` at an idle entry. -/
def State.rsNow (s : State) (c : Nat) (e : DirEnt) : State :=
  let d := s.tileData e
  let e := s.replicate e false
  match e.st, e.owner with
  | .i, _ =>
    if e.mayE then (s.install c e d.1 [] .e).setEnt { e with st := .e, owner := some c }
    else (s.install c e d.1 [] .s).setEnt { e with st := .s, sharers := [c] }
  | _, none => (s.install c e d.1 [] .s).setEnt { e with st := .s, sharers := c :: e.sharers }
  | st, some o =>
    if st = .e then
      (((s.setCopy o e .s).install c e d.1 [] .s)).setEnt { e with st := .s, owner := none, sharers := [c, o] }
    else
      ((s.setCopy o e .o).install c e d.1 [] .s).setEnt { e with st := .o, sharers := c :: e.sharers }

/-- RX or UP of core `c` at an idle entry: every other copy goes to I and the dirty bytes go to `c`. -/
def State.rxNow (s : State) (c : Nat) (e : DirEnt) : State :=
  let d := s.tileData e
  let e := s.replicate e true
  let others := (e.sharers ++ e.owner.toList).filter fun k => k != c
  let s := others.foldl (fun s k => s.setCopy k e .i) s
  (s.install c e d.1 d.2 .m).setEnt { e with st := .m, owner := some c, sharers := [] }

/-- What a GW does before it is applied: every copy goes to I, the owner's dirty bytes to the home copy. -/
def State.gwNow (s : State) (e : DirEnt) : State :=
  let d := s.tileData e
  let e := s.replicate e true
  let s := s.recallTo e.home e.pa d.1 d.2
  let s := (e.sharers ++ e.owner.toList).foldl (fun s k => s.setCopy k e .i) s
  s.setEnt { e with st := .i, owner := none, sharers := [] }

/-! ## Remote holders (R263, R264) -/

/-- A remote package holds the tile in a way that a read, or a write, must first end (Table 12-5). -/
def DirEnt.remBlocks (e : DirEnt) (wr : Bool) : Bool :=
  if wr then !e.rem.isEmpty || e.coarse else e.rem.any fun r => r.2

/-- The snoop-filter entry of a line or a tile. -/
def State.snoopAt (s : State) (pa : Nat) : Option SnoopEnt := s.snoop.find? fun x => x.pa == pa

/-- A remote package holds the line likewise (R263). -/
def State.lineBlocks (s : State) (pa n : Nat) (wr : Bool) : Bool :=
  s.snoop.any fun x => decide (x.pa < pa + n ∧ pa < x.pa + 128) && (wr || x.holders.any fun h => h.2)
    && !(s.dir.any fun e => e.pa == x.pa && e.coarse)

/-- The devices of some groups, this one apart: a back-invalidation goes to each (R263). -/
def State.groupDevs (s : State) (gs : List Nat) : List Nat :=
  (gs.flatMap fun g => (List.range 32).map fun k => 32 * g + k).filter fun d => d != s.fab.fabId

/-- Back-invalidate holders of a line or tile, each once. -/
def State.sendBis (s : State) (pa : Nat) (hs : List (Nat × Bool)) : State :=
  let new := hs.filter fun h => !(s.bis.any fun b => b.pa == pa && b.dev == h.1)
  { s with bis := s.bis ++ new.map fun h => { pa := pa, dev := h.1, dirty := h.2, at_ := none } }

/-- What a snoop-filter entry's back-invalidations go to. -/
def State.entHolders (s : State) (x : SnoopEnt) : List (Nat × Bool) :=
  x.holders ++ (s.groupDevs x.groups).map fun d => (d, false)

/-- The holders that stand in the way of a read or write of a line are back-invalidated. -/
def State.askLine (s : State) (pa n : Nat) (wr : Bool) : State :=
  let hit := s.snoop.filter fun x => decide (x.pa < pa + n ∧ pa < x.pa + 128) && (wr || x.holders.any fun h => h.2)
  hit.foldl (fun s x => s.sendBis x.pa (s.entHolders x)) s

/-- Those of a tile. -/
def State.tileHolders (s : State) (e : DirEnt) : List (Nat × Bool) :=
  e.rem ++ if e.coarse then (s.snoopAt e.pa).elim [] s.entHolders else []

/-! ## Accesses by any observer -/

/-- Why an access cannot be made. -/
inductive AccErr
  | walk (e : WalkErr) (va : Nat)
  /-- A read of poisoned data (R319). -/
  | poison (pa : Nat)
  /-- An access that ends an undercoat launch (R301). -/
  | discard
  /-- A read that no route can carry, failed again (R321, R342). -/
  | refused (va : Nat)
  deriving DecidableEq, Repr

/-- What an attempted access gives: a value, a wait for something else, or an error. -/
inductive Try (α : Type)
  | ok (a : α) (s : State)
  | wait (s : State)
  | err (e : AccErr)

def Try.bind {α β : Type} (t : Try α) (f : α → State → Try β) : Try β :=
  match t with
  | .ok a s => f a s
  | .wait s => .wait s
  | .err e => .err e

/-- A home applies a write of another party to bytes that an undercoat launch has registered (R302). -/
def State.markStale (s : State) (pa n : Nat) : State :=
  if s.cp.ucs.isEmpty then s
  else
    let hit := fun (u : Nat × Undercoat) => u.2.regd.any fun r => decide (r.1 < pa + n ∧ pa < r.1 + r.2)
    { s with cp := { s.cp with ucs := listUpd hit (fun u => (u.1, { u.2 with stale := true })) s.cp.ucs } }

/-! ## Writes performed at a scope below their reach (R79, R80) -/

/-- The bytes as the observers of a core see them: under the core's own writes. -/
def Core.seen (c : Core) (dom pa : Nat) (bs : List Byte) : List Byte :=
  (c.buf.filter fun w => w.meets dom pa bs.length).foldl (fun bs w => w.over pa bs) bs

/-- A store of the CC completes (R27). -/
def Core.storeDone (c : Core) (tag : Option Nat) : Core :=
  match tag with
  | none => c
  | some t =>
    match listFind (fun (a : Access) => a.tag == t) c.inflight 0 with
    | none => c
    | some k => { c with inflight := listDel c.inflight k, st := c.st - 1 }

/-- The oldest write of core `n` that has stopped at a narrower scope is performed at its reach, unless a remote holder
stands in the way. -/
def State.performHead (s : State) (n : Nat) : State :=
  match (s.core n).buf with
  | [] => s
  | w :: r =>
    if s.lineBlocks w.pa w.bytes.length true then s.askLine w.pa w.bytes.length true
    else
      let s := s.updCore n fun c => { c with buf := r }.storeDone w.tag
      ((s.phWrite w.dom w.pa w.bytes).touch n w.dom w.pa w.bytes.length true).markStale w.pa w.bytes.length

/-- The first `k` such writes. -/
def performFirst (n : Nat) : Nat → State → State
  | 0, s => s
  | k + 1, s => performFirst n k (s.performHead n)

/-- Every such write of core `n`. -/
def State.performAll (s : State) (n : Nat) : State := performFirst n (s.core n).buf.length s

/-- Index past the last of a core's such writes that meets a range and that a reader sees. -/
def lastMeets (p : BufW → Bool) : List BufW → Nat → Nat → Nat
  | [], _, m => m
  | w :: r, k, m => lastMeets p r (k + 1) (if p w then k + 1 else m)

/-- Before a read by core `c` of a range, every write of another core that it is to see is performed at its reach
(R80); before its own write, its own earlier ones (R77). -/
def State.expose (s : State) (c die dom pa n : Nat) (own : Bool) : State :=
  let one := fun (s : State) (m : Nat) =>
    let k := lastMeets (fun w => w.meets dom pa n && (if m = c then own else w.visible m die)) (s.core m).buf 0 0
    performFirst m k s
  ((s.cores.filter fun p => !p.2.buf.isEmpty).map (·.1)).foldl one s

/-- Nothing is left to expose: a remote holder has held none up. -/
def State.exposed (s : State) (c die dom pa n : Nat) (own : Bool) : Bool :=
  s.cores.all fun p => p.2.buf.all fun w => !(w.meets dom pa n && (if p.1 = c then own else w.visible p.1 die))

/-- A write of an observer stops at scope CORE (R80). -/
def State.stopAtCore (s : State) (n obs dom pa : Nat) (bs : List Byte) (tag : Option Nat := none) : State :=
  s.updCore n fun c =>
    { c with buf := c.buf ++ [{ obs := obs, dom := dom, pa := pa, bytes := bs, lvl := .core, tag := tag }] }

/-- The copy that a domain number names, as a scope. -/
def domScope (dom : Nat) : Scope := if dom < 2 then .die else if dom = 2 then .pkg else .pod

/-- PERFORM: the writes of core `n` up to number `k` are performed at a scope, and at their reach if that is no wider. -/
def State.performAt (s : State) (n k : Nat) (sc : Scope) : State :=
  match (s.core n).buf[k]? with
  | none => s
  | some w =>
    if scopeRank (domScope w.dom) ≤ scopeRank sc then performFirst n (k + 1) s
    else
      s.updCore n fun c =>
        { c with buf := c.buf.zipIdx.map fun x =>
            if x.2 ≤ k ∧ scopeRank x.1.lvl < scopeRank sc then { x.1 with lvl := sc } else x.1 }

/-- Every write of a core's observers that `p` names has been performed at min(`sc`, reach) (R84). -/
def Core.writtenAt (c : Core) (sc : Scope) (p : BufW → Bool := fun _ => true) : Bool :=
  c.buf.all fun w => !p w || decide (scopeRank (scopeMin sc (domScope w.dom)) ≤ scopeRank w.lvl)

/-! ## Poison (R265, R268) -/

/-- A tile is poisoned at its home: one of reach DIE in its own copy alone (R261). -/
def State.poisonTile (s : State) (e : DirEnt) : State :=
  if e.poisoned then s
  else { s with poison := if e.dom = 2 then s.poison ++ [(e.pa, e.tile)] else s.poison }.setEnt { e with poisoned := true }

/-- A line or tile is poisoned at its home (R265, R268). -/
def State.poisonAt (s : State) (pa : Nat) : State :=
  match s.dir.find? fun e => e.covers pa && e.dom == 2 with
  | some e => s.poisonTile e
  | none => { s with poison := s.poison ++ [(pa / 128 * 128, 128)] }

/-- An error that cannot be corrected in an owner's copy of a tile marks the tile poisoned at its home (R268). -/
def State.ownerError (s : State) (n : Nat) (t : TileCopy) : State :=
  match s.entAt t.dom t.pa with
  | some e => if e.owner = some n then s.poisonTile e else s
  | none => s

/-- A core's copy of a tile is read for a forward, a recall or a write-back: an error that struck it is found (R268). -/
def State.readCopy (s : State) (n : Nat) (t : TileCopy) : State := if t.bad then s.ownerError n t else s

/-- An access of a core has met an error at an address: the one that struck the core's copy, if there is one. -/
def State.foundError (s : State) (n pa : Nat) : State :=
  match (s.core n).tilePa pa with
  | some t => s.readCopy n t
  | none => s

/-! ## Reads and writes of physical locations -/

/-- A write into a core's own copy of a tile (R250): the mask of what memory does not have grows. -/
def Core.wrTile (c : Core) (t : TileCopy) (k : Nat) (bs : List Byte) (st : TileSt) : Core :=
  { c with spad := c.spad.wrBytes (t.off + k) bs }.updTile t.dom t.pa fun t =>
    { t with st := st, mask := t.mask ++ (List.range bs.length).filterMap fun i =>
        if t.mask.contains (k + i) then none else some (k + i) }

/-- A write into a copy in M or E, which becomes M and tells the home so by EM without waiting (R250). -/
def State.wrOwn (s : State) (n : Nat) (t : TileCopy) (k : Nat) (bs : List Byte) : State :=
  let s := (s.updCore n fun c => c.wrTile t k bs .m).markStale (t.pa + k) bs.length
  if t.st = .e then
    { s with msgs := s.msgs ++ [{ kind := .em, src := n, dst := 88, dom := t.dom, pa := t.pa }] }
  else s

/-- The core's copy of an entry's tile. -/
def State.copyOf (s : State) (n : Nat) (e : DirEnt) : Option TileCopy :=
  (s.core n).tiles.find? fun t => t.dom == e.dom && t.pa == e.pa

/-- A write that a home applies in no core's copy: every copy goes to I first (R251). -/
def State.gwWrite (s : State) (e : DirEnt) (pa : Nat) (bs : List Byte) : State :=
  ((s.gwNow e).phWrite e.home pa bs).markStale pa bs.length

/-- Read `n` bytes at a physical address on behalf of core `c`, within one tile or outside all. A valid copy serves it; in
I the core asks for the tile (R250). -/
def State.readPa (s : State) (c die pa n : Nat) (page : Scope) : Try (List Byte) :=
  let rt := s.routePa c pa
  if rt = .hold then .wait s
  else if rt = .none then .err (.refused pa)
  else if s.isPoisoned pa n die then .err (.poison pa)
  else
    match s.entFor die pa with
    | none =>
      let dom := domOf (s.locReach pa page) die
      if s.lineBlocks pa n false then .wait (s.askLine pa n false)
      else
        let s := s.expose c die dom pa n false
        if !s.exposed c die dom pa n false then .wait s
        else
          let b := (s.core c).seen dom pa (s.phRead dom pa n)
          .ok b (s.touch c dom pa n false)
    | some e =>
      let copy := s.copyOf c e
      match copy.filter fun t => t.st.valid with
      | some t => if t.bad then .err (.poison pa) else .ok (((s.core c).spad).rdBytes (t.off + (pa - e.pa)) n) s
      | none =>
        if !s.free c e then .wait s
        else if e.remBlocks false then .wait (s.sendBis e.pa (s.tileHolders e))
        else
          match copy with
          | some t =>
            let s := s.rsNow c e
            .ok (((s.core c).spad).rdBytes (t.off + (pa - e.pa)) n) s
          | none => .ok (((s.tileData e).1.drop (pa - e.pa)).take n) (s.setEnt (s.replicate e false))

/-- Write bytes at a physical address on behalf of observer `obs` of core `c`. A write that its home refuses as
poisoned gives the cause (R92). -/
def State.writePa (s : State) (c obs die pa : Nat) (bs : List Byte) (page : Scope) (home : Bool := false) :
    Try (Option FailCause) :=
  let rt := s.routePa c pa
  if rt = .hold then .wait s
  else if rt = .none then .ok (some .refused) s
  else if s.isPoisoned pa bs.length die then .ok (some .poison) s
  else
    match s.entFor die pa with
    | none =>
      let dom := domOf (s.locReach pa page) die
      if s.lineBlocks pa bs.length true then .wait (s.askLine pa bs.length true)
      else if (s.core c).hold && obs != 2 then .ok none (s.stopAtCore c obs dom pa bs)
      else
        let s := s.expose c die dom pa bs.length true
        if !s.exposed c die dom pa bs.length true then .wait s
        else .ok none (((s.phWrite dom pa bs).touch c dom pa bs.length true).markStale pa bs.length)
    | some e =>
      let copy := if home then none else s.copyOf c e
      match copy.filter fun t => t.st == .m || t.st == .e with
      | some t => .ok none (s.wrOwn c t (pa - e.pa) bs)
      | none =>
        if !s.free c e then .wait s
        else if e.remBlocks true then .wait (s.sendBis e.pa (s.tileHolders e))
        else
          match copy with
          | some t => .ok none ((s.rxNow c e).wrOwn c { t with st := .m } (pa - e.pa) bs)
          | none => .ok none (s.gwWrite e pa bs)

/-- The pieces of a physical range: line by line where a window or poison meets it (R92, R251), stack by stack while a
die link is down (R3, R315), else whole. -/
def State.paPieces (s : State) (pa n : Nat) : List (Nat × Nat) :=
  if (s.dir.any fun e => decide (e.pa < pa + n ∧ pa < e.pa + e.tile)) || s.isPoisoned pa n then pieces 128 (n / 128 + 2) pa n
  else if !(s.fab.linkLost.toList.all (· == 0)) then pieces 4096 (n / 4096 + 2) pa n
  else if n = 0 then [] else [(pa, n)]

/-- Read pieces one after another. -/
def readPieces (c die : Nat) (page : Scope) : List (Nat × Nat) → List Byte → State → Try (List Byte)
  | [], acc, s => .ok acc s
  | (pa, n) :: r, acc, s =>
    match s.readPa c die pa n page with
    | .ok b s => readPieces c die page r (acc ++ b) s
    | .wait s => .wait s
    | .err e => .err e

/-- Write pieces one after another; the lowest failure stays. -/
def writePieces (c obs die : Nat) (page : Scope) (home : Bool) :
    List (Nat × Nat) → List Byte → State → Option (FailCause × Nat) → Try (Option (FailCause × Nat))
  | [], _, s, f => .ok f s
  | (pa, n) :: r, bs, s, f =>
    match s.writePa c obs die pa (bs.take n) page home with
    | .ok x s => writePieces c obs die page home r (bs.drop n) s (match f, x with
        | some f, _ => some f
        | none, some x => some (x, pa)
        | none, none => none)
    | .wait s => .wait s
    | .err e => .err e

/-- Translate for an observer, as an attempt. -/
def State.tr (s : State) (n obs va : Nat) (wr : Bool) : Try (Nat × Scope) :=
  match s.xlate n obs va wr with
  | .error e => .err (.walk e va)
  | .ok (pa, r, s) => .ok (pa, r) s

/-- Read pages one after another. -/
def readPages (n obs : Nat) : List (Nat × Nat) → List Byte → State → Try (List Byte)
  | [], acc, s => .ok acc s
  | (va, len) :: r, acc, s =>
    match s.tr n obs va false with
    | .ok p s =>
      match readPieces n (dieOf n) p.2 (s.paPieces p.1 len) [] s with
      | .ok b s => readPages n obs r (acc ++ b) s
      | .wait s => .wait s
      | .err e => .err e
    | .wait s => .wait s
    | .err e => .err e

/-- Write pages one after another. -/
def writePages (n obs : Nat) (home : Bool) :
    List (Nat × Nat) → List Byte → State → Option (FailCause × Nat) → Try (Option (FailCause × Nat))
  | [], _, s, f => .ok f s
  | (va, len) :: r, bs, s, f =>
    match s.tr n obs va true with
    | .ok p s =>
      match writePieces n obs (dieOf n) p.2 home (s.paPieces p.1 len) (bs.take len) s none with
      | .ok x s => writePages n obs home r (bs.drop len) s (match f, x with
          | some f, _ => some f
          | none, some x => some (x.1, va + (x.2 - p.1))
          | none, none => none)
      | .wait s => .wait s
      | .err e => .err e
    | .wait s => .wait s
    | .err e => .err e

/-- Pages of a virtual range. -/
def vaPages (va n : Nat) : List (Nat × Nat) := pieces 65536 (n / 65536 + 2) va n

/-- An observer of core `n` reads `len` bytes at a virtual address. -/
def State.rdG (s : State) (n obs va len : Nat) : Try (List Byte) := readPages n obs (vaPages va len) [] s

/-- An observer of core `n` writes bytes at a virtual address. `home`: applied at the home (R251). -/
def State.wrG (s : State) (n obs va : Nat) (bs : List Byte) (home : Bool := false) : Try (Option (FailCause × Nat)) :=
  writePages n obs home (vaPages va bs.length) bs s none

/-- The pieces of a scratchpad range: whole when no open window meets it. -/
def Core.spPieces (c : Core) (off n : Nat) : List (Nat × Nat) :=
  if c.tiles.any fun t => decide (t.off < off + n ∧ off < t.off + t.size) then pieces 128 (n / 128 + 2) off n
  else if n = 0 then [] else [(off, n)]

/-- Read scratchpad pieces: through the tile of an open window, or the scratchpad itself (R72). -/
def readSp (n : Nat) : List (Nat × Nat) → List Byte → State → Try (List Byte)
  | [], acc, s => .ok acc s
  | (off, len) :: r, acc, s =>
    match (s.core n).tileSp off with
    | none => readSp n r (acc ++ (s.core n).spad.rdBytes off len) s
    | some t =>
      match s.readPa n (dieOf n) (t.pa + (off - t.off)) len .pod with
      | .ok b s => readSp n r (acc ++ b) s
      | .wait s => .wait s
      | .err e => .err e

/-- Whether core `n` declared a tile through a page that refuses writes (R224). -/
def State.tileRo (s : State) (n : Nat) (t : TileCopy) : Bool :=
  match s.entAt t.dom t.pa with
  | some e => e.ro.contains n
  | none => false

/-- Write scratchpad pieces. -/
def writeSp (n obs : Nat) : List (Nat × Nat) → List Byte → State → Option (FailCause × Nat) →
    Try (Option (FailCause × Nat))
  | [], _, s, f => .ok f s
  | (off, len) :: r, bs, s, f =>
    match (s.core n).tileSp off with
    | none =>
      writeSp n obs r (bs.drop len) (s.updCore n fun c => { c with spad := c.spad.wrBytes off (bs.take len) }) f
    | some t =>
      if s.tileRo n t then .err (.walk ⟨.permission, 0, 0⟩ off)
      else
        match s.writePa n obs (dieOf n) (t.pa + (off - t.off)) (bs.take len) .pod with
        | .ok x s => writeSp n obs r (bs.drop len) s (match f, x with
            | some f, _ => some f
            | none, some x => some (x, off)
            | none, none => none)
        | .wait s => .wait s
        | .err e => .err e

/-- An observer of core `n` reads its scratchpad. -/
def State.rdS (s : State) (n off len : Nat) : Try (List Byte) := readSp n ((s.core n).spPieces off len) [] s

/-- An observer of core `n` writes its scratchpad. -/
def State.wrS (s : State) (n obs off : Nat) (bs : List Byte) : Try (Option (FailCause × Nat)) :=
  writeSp n obs ((s.core n).spPieces off bs.length) bs s none

end Sys2Proof.Machine
end

