-- ==== Sys2Proof/Machine/Cp.lean ====
section
/-! DEFINITION. The command processors' shared operations: their accesses to memory, continuation records and kernel
descriptors, enqueue, events, retirement of CRs and launches, failure of a fault domain (R28-R31, R285-R305, R319). -/

namespace Sys2Proof.Machine

/-! ## Accesses of the CPs (R75, R251) -/

/-- A write of the CP that has not been performed yet, over the bytes that stand at an address of a copy. -/
def CpWrite.over (w : CpWrite) (dom pa : Nat) (bs : List Byte) : List Byte :=
  if w.phys || w.dom == dom then
    bs.zipIdx.map fun b =>
      if w.pa ≤ pa + b.2 ∧ pa + b.2 < w.pa + w.bytes.length then w.bytes.getD (pa + b.2 - w.pa) 0 else b.1
  else bs

/-- Read at a physical address in one page by the CP of a C-die: what has been performed for it (R79), under its own writes
that have not been performed yet (R77). -/
def State.cpRdPa (s : State) (die pa n : Nat) (page : Scope) : List Byte :=
  let dom := domOf (s.locReach pa page) die
  s.cp.wq.foldl (fun b w => w.over dom pa b) (s.seenAt die pa n page)

/-- A write of the CP at the windows that a range meets: each is a GW, which waits while its tile has anything under way or a
remote holder (R251, R258, R264). -/
def State.cpRecall (es : List DirEnt) (s : State) : Try Unit :=
  match es with
  | [] => .ok () s
  | e :: r =>
    if !s.quiet e then .wait s
    else if e.remBlocks true then .wait (s.sendBis e.pa (s.tileHolders e))
    else State.cpRecall r (s.gwNow e)

/-- A write of the CP is performed: a GW at a window tile, or a write of the copy once remote holders of its lines are gone
and every core's write that the CP has seen is performed (R77, R251, R264). One without a route, or to poisoned data, is
refused (R265, R342). -/
def State.cpApply (s : State) (w : CpWrite) : Try Unit :=
  let n := w.bytes.length
  let rt := s.routePa (88 + w.die) w.pa
  if rt = .hold then .wait s
  else if rt = .none || s.isPoisoned w.pa n w.die then .ok () s
  else
    let es := s.dir.filter fun e => decide (e.pa < w.pa + n ∧ w.pa < e.pa + e.tile)
      && (w.phys || e.dom == w.die || e.dom == 2)
    (s.cpRecall es).bind fun _ s =>
      if es.isEmpty && s.lineBlocks w.pa n true then .wait (s.askLine w.pa n true)
      else
        let s := s.expose 88 w.die w.dom w.pa n false
        if !s.exposed 88 w.die w.dom w.pa n false then .wait s
        else
          let s := if w.phys then
              let s := (s.dropCopy 2 w.pa n).dropCopy 3 w.pa n
              { s with mem := s.mem.wrBytes w.pa w.bytes }
            else
              match es with
              | e :: _ => s.phWrite e.home w.pa w.bytes
              | [] => s.phWrite w.dom w.pa w.bytes
          .ok () (s.markStale w.pa n)

/-- A tag of a CP is retired: its generation advances (R321). -/
def CpState.retireTag (c : CpState) (w : CpWrite) : CpState :=
  { c with gens := tabSet c.gens (4096 * w.die + w.tag) ((tabGet 0 c.gens (4096 * w.die + w.tag) + 1) % 16) }

/-- The CP's writes are performed in order, each once those before it are, so that a later one is a release of the earlier
(R86). One that RSPLIM has passed for since it came to the head is given up, and never performed (R321). -/
def cpDrainN : Nat → State → State
  | 0, s => s
  | f + 1, s =>
    match s.cp.wq with
    | [] => s
    | w :: r =>
      let sent := w.at_.getD s.frameClk
      let pop := fun (t : State) => { t with cp := { t.cp with wq := r } }
      if sent + s.dev.rsplim.toNat ≤ s.frameClk ∧ w.at_.isSome then
        cpDrainN f (pop { s with cp := s.cp.retireTag w })
      else
        match if sent + s.dev.rsplim.toNat / 2 ≤ s.frameClk ∧ w.at_.isSome then .wait s else s.cpApply w with
        | .ok _ t => cpDrainN f (pop t)
        | .wait t =>
          let held := t.routePa (88 + w.die) w.pa == .hold
          { t with cp := { t.cp with wq := { w with at_ := if held then none else some sent } :: r } }
        | .err _ => s

def State.cpDrain (s : State) : State := cpDrainN s.cp.wq.length s

/-- The CP has writes that are not performed: it begins nothing that others could see before them. -/
def State.cpBusy (s : State) : Bool := !s.cp.wq.isEmpty

/-- A write of the CP of a C-die takes its turn behind those before it, with a request tag (R321). -/
def State.cpSend (s : State) (die dom pa : Nat) (bs : List Byte) (phys : Bool) : State :=
  let tag := vget s.cp.tags 0 die
  let w : CpWrite :=
    { die := die, dom := dom, pa := pa, bytes := bs, phys := phys, tag := tag, gen := tabGet 0 s.cp.gens (4096 * die + tag)
      at_ := none }
  { s with cp := { s.cp with wq := s.cp.wq ++ [w], tags := vset s.cp.tags die ((tag + 1) % 4096) } }.cpDrain

/-- What the CP does next begins once its writes are performed, so that they are a release before it (R86). -/
def State.cpTurn (s : State) (f : State → Res) : Res :=
  if s.cpDrain.cpBusy then .next s.cpDrain else f s.cpDrain

/-- Write at a physical address in one page. -/
def State.cpWrPa (s : State) (die pa : Nat) (bs : List Byte) (page : Scope) : State :=
  s.cpSend die (domOf (s.locReach pa page) die) pa bs false

/-- Read a range of one page piece by piece. -/
def State.cpRdPage (s : State) (die pa n : Nat) (page : Scope) : List Byte :=
  ((s.paPieces pa n).map fun x => s.cpRdPa die x.1 x.2 page).flatten

/-- The CP that makes an access: the CP of the C-die named; where none is, the one that holds the arbitration token, which
runs the package's schedule (R75, R349; assumption 27). -/
def State.cpOf (s : State) (die : Nat) : Nat := if die < 2 then die else s.fab.token.getD 0

/-- The physical pieces of a virtual range of a region; a read that no route carries fails (R321, R342). -/
def State.cpMap (s : State) (region : Nat) (wr : Bool) (die : Nat) :
    List (Nat × Nat) → Except WalkErr (List (Nat × Nat × Scope))
  | [] => .ok []
  | (va, n) :: r =>
    match s.xlateCp region va wr with
    | .error e => .error e
    | .ok (pa, reach) =>
      if s.isPoisoned pa n then .error ⟨.dataPoison, 0, pa⟩
      else if !wr && s.routePa (88 + s.cpOf die) pa == .none then .error ⟨.rdTimeout, 0, pa⟩
      else
        match s.cpMap region wr die r with
        | .error e => .error e
        | .ok l => .ok ((s.paPieces pa n).map (fun x => (x.1, x.2, reach)) ++ l)

/-- Read a virtual range of a region. -/
def State.cpRd (s : State) (region va n : Nat) (die : Nat := 2) : Except WalkErr (List Byte) :=
  match s.cpMap region false die (vaPages va n) with
  | .error e => .error e
  | .ok l => .ok ((l.map fun x => s.cpRdPa (s.cpOf die) x.1 x.2.1 x.2.2).flatten)

/-- Write pieces in order. -/
def cpWrPieces (die : Nat) : List (Nat × Nat × Scope) → List Byte → State → State
  | [], _, s => s
  | (pa, n, reach) :: r, bs, s => cpWrPieces die r (bs.drop n) (s.cpWrPa die pa (bs.take n) reach)

/-- Write a virtual range of a region, whole or not at all. -/
def State.cpWr (s : State) (region va : Nat) (bs : List Byte) (die : Nat := 2) : Except WalkErr State :=
  match s.cpMap region true die (vaPages va bs.length) with
  | .error e => .error e
  | .ok l => .ok (cpWrPieces (s.cpOf die) l bs s)

/-- A little-endian number from memory. -/
def State.cpNat (s : State) (region va n : Nat) : Except WalkErr Nat :=
  match s.cpRd region va n with
  | .error e => .error e
  | .ok b => .ok (leNat b)

/-- Physical reads and writes of the CP: the package's copy, and, for a write, memory and the pod's copy too (R325). -/
def State.paNat (s : State) (pa n : Nat) : Nat := leNat (s.cpRdPage (s.cpOf 2) pa n .pkg)

def State.paWr (s : State) (pa : Nat) (bs : List Byte) : State := s.cpSend (s.cpOf 2) 2 pa bs true

/-- 64 little-endian bits. -/
def le8 (v : Nat) : List Byte := leBytes 8 v

/-- Remote packages that hold data of some ranges in mode X write it back first (Table 12-5): true when none does. -/
def State.cpGather (s : State) (l : List (Nat × Nat)) : Bool × State :=
  let tile := fun (s : State) (e : DirEnt) =>
    if e.remBlocks false then (true, s.sendBis e.pa (s.tileHolders e)) else (false, s)
  l.foldl (fun x p =>
    let es := x.2.dir.filter fun e => decide (e.pa < p.1 + p.2 ∧ p.1 < e.pa + e.tile)
    let y := es.foldl (fun y e => let z := tile y.2 e; (y.1 && !z.1, z.2)) x
    if y.2.lineBlocks p.1 p.2 false then (false, y.2.askLine p.1 p.2 false) else y) (true, s)

/-- What the CP does once such data is at home. -/
def State.cpAwait (s : State) (l : List (Nat × Nat)) (f : State → State) : State :=
  let g := s.cpGather l
  if g.1 then f g.2 else g.2

/-! ## Events (R297) -/

/-- Post an event to a region's queue, which is addressed in the region whose RCB gives it (R325, assumption 69). A queue that
cannot be used drops the event. -/
def State.postEvent (s : State) (r : Region) (typ info cr a b : Nat) (time : Option Nat := none) : State :=
  let q := s.rEvq r
  let own := (s.grp 12 r).num
  if q = 0 then s
  else
    let lost := fun (s : State) =>
      match s.cpNat own (q + 0x20) 8 with
      | .error _ => s
      | .ok l =>
        match s.cpWr own (q + 0x20) (le8 (Nat.min (l + 1) (2 ^ 64 - 1))) with
        | .ok s => s
        | .error _ => s
    match s.cpRd own q 32 with
    | .error _ => lost s
    | .ok d =>
      let w := fun k => leNat ((d.drop (8 * k)).take 8)
      let n := 2 ^ (w 1 % 32)
      if (w 3 + 2 ^ 64 - w 2) % 2 ^ 64 = n then lost s
      else
        let rec_ := le8 (typ + r.num * 2 ^ 16 + info % 2 ^ 32 * 2 ^ 32) ++ le8 (time.getD s.frameClk) ++ le8 cr ++ le8 a ++ le8 b
          ++ List.replicate 24 0
        match s.cpWr own (w 0 % 2 ^ 56 + 64 * (w 3 % n)) rec_ with
        | .error _ => lost s
        | .ok s1 =>
          match s1.cpWr own (q + 0x18) (le8 ((w 3 + 1) % 2 ^ 64)) with
          | .error _ => lost s
          | .ok s2 => s2

/-- Codes of Table 18-1. -/
def Cause.code : Cause → Nat
  | .illegalInsn => 0x01
  | .illegalOperand => 0x02
  | .align => 0x03
  | .addrRange => 0x04
  | .spadRange => 0x05
  | .xlate => 0x08
  | .permission => 0x09
  | .pageFault => 0x0A
  | .crFormat => 0x10
  | .regionDenied => 0x11
  | .joinUnderflow => 0x12
  | .crqFull => 0x13
  | .vdieInvalid => 0x14
  | .waitLimit => 0x18
  | .sbarOverrun => 0x19
  | .futureState => 0x1A
  | .syncFail => 0x1B
  | .veShape => 0x20
  | .veCount => 0x21
  | .veType => 0x22
  | .veOverlap => 0x23
  | .veChain => 0x24
  | .veBulkFail => 0x25
  | .meOwn => 0x28
  | .fmtqUnderflow => 0x29
  | .fmtInvalid => 0x2A
  | .meShape => 0x2B
  | .meSparse => 0x2C
  | .meRemote => 0x2D
  | .ownDenied => 0x2E
  | .chCfg => 0x30
  | .chTile => 0x31
  | .chainFmt => 0x32
  | .hamRange => 0x38
  | .hamFail => 0x39
  | .winCfg => 0x3C
  | .winFull => 0x3D
  | .winConflict => 0x3E
  | .sysCfg => 0x3F
  | .trapSw => 0x40
  | .rdTimeout => 0x48
  | .dataPoison => 0x49

/-- The Restart column of Table 18-1. -/
def Cause.restarts : Cause → Bool
  | .xlate | .permission | .pageFault | .crqFull | .vdieInvalid | .waitLimit | .meRemote | .ownDenied | .trapSw => true
  | _ => false

/-! ## Continuation records (R28) -/

namespace CrImg

def entry (i : CrImg) : Nat := fld i.w0 0 6
def code (i : CrImg) : Nat := fld i.w0 6 50 * 64
def nosaveHv (i : CrImg) : Bool := fld i.w0 56 1 == 1
def nosaveTile (i : CrImg) : Bool := fld i.w0 57 1 == 1
def trace (i : CrImg) : Bool := fld i.w0 58 1 == 1
def frame (i : CrImg) : Nat := fld i.w1 0 56
def ttf (i : CrImg) : Nat := fld i.w1 56 8
def joinc (i : CrImg) : Nat := fld i.w2 0 56
def prio (i : CrImg) : Nat := fld i.w2 56 4
def release (i : CrImg) : Nat := fld i.w3 0 32
def deadline (i : CrImg) : Nat := fld i.w3 32 16
def region (i : CrImg) : Nat := fld i.w3 48 16

/-- An image from its 32 bytes. -/
def ofBytes (b : List Byte) : CrImg :=
  ⟨w64 (leNat (b.take 8)), w64 (leNat ((b.drop 8).take 8)), w64 (leNat ((b.drop 16).take 8)),
   w64 (leNat ((b.drop 24).take 8))⟩

end CrImg

/-- A field of a timetable frame of a region (R296), read in the region whose RCB gives the table (R325, assumption 69); none
when it cannot be read or there are no frames. -/
def State.frameWord (s : State) (r : Region) (i off : Nat) : Option Nat :=
  let t := s.rFrames r
  if t = 0 ∨ i = 0 then none
  else
    match s.cpNat (s.grp 14 r).num (t + 32 * (i - 1) + off) 8 with
    | .ok v => some v
    | .error _ => none

/-- A footprint of a kernel descriptor (Table 17-3). -/
structure KFoot where
  v : Bool
  barg : Nat
  larg : Nat
  lmul : Nat
  boff : Int
  ladd : Nat
  deriving DecidableEq, Repr

/-- A kernel descriptor (Table 17-2). -/
structure KDesc where
  image : Nat
  nbund : Nat
  nvsec : Nat
  nxsec : Nat
  nmsec : Nat
  prelen : Nat
  preoff : Nat
  elig : Bool
  ign : Nat
  foots : List KFoot
  entries : List Nat
  deriving DecidableEq, Repr

/-- Doubleword `k` of a byte block. -/
def dwAt (b : List Byte) (k : Nat) : Nat := leNat ((b.drop (8 * k)).take 8)

def kfoot (w0 w1 : Nat) : KFoot :=
  { v := bitsOf w0 0 1 == 1, barg := bitsOf w0 1 2, larg := bitsOf w0 3 2, lmul := bitsOf w0 16 16
    boff := sextNat 32 (bitsOf w0 32 32), ladd := bitsOf w1 0 32 }

/-- A descriptor from its 256 bytes; none when a reserved bit is set or a limit fails (R288, R104). -/
def kdesc (b : List Byte) : Option KDesc :=
  let d := dwAt b
  let fw := [4, 6, 8, 10].map fun k => (d k, d (k + 1))
  let es := (List.range 64).map fun k => leNat ((b.drop (0x80 + 2 * k)).take 2)
  let nb := bitsOf (d 1) 0 14
  let nv := bitsOf (d 1) 16 13
  let nx := bitsOf (d 1) 32 13
  let nm := bitsOf (d 1) 48 13
  let pl := bitsOf (d 2) 0 15
  let po := bitsOf (d 2) 21 21
  let ok := decide (bitsOf (d 0) 56 8 = 0 ∧ d 0 % 65536 = 0 ∧
      bitsOf (d 1) 14 2 = 0 ∧ bitsOf (d 1) 29 3 = 0 ∧ bitsOf (d 1) 45 3 = 0 ∧ bitsOf (d 1) 61 3 = 0 ∧
      1 ≤ nb ∧ nb ≤ 8192 ∧ nv ≤ 4096 ∧ nx ≤ 4096 ∧ nm ≤ 4096 ∧
      bitsOf (d 2) 15 6 = 0 ∧ bitsOf (d 2) 42 22 = 0 ∧ pl % 64 = 0 ∧ pl ≤ 16384 ∧ po % 64 = 0 ∧
      po + pl ≤ 0x200000 ∧
      bitsOf (d 3) 1 3 = 0 ∧ bitsOf (d 3) 8 56 = 0 ∧ d 12 = 0 ∧ d 13 = 0 ∧ d 14 = 0 ∧ d 15 = 0)
    && fw.all (fun p => bitsOf p.1 5 11 == 0 && bitsOf p.2 32 32 == 0)
    && es.all fun e => bitsOf e 13 2 == 0
  if ok then
    some { image := d 0, nbund := nb, nvsec := nv, nxsec := nx, nmsec := nm, prelen := pl, preoff := po
           elig := bitsOf (d 3) 0 1 == 1, ign := bitsOf (d 3) 4 4, foots := fw.map fun p => kfoot p.1 p.2
           entries := es }
  else none

/-- The kernel descriptor that word 0 of an image names, if it can be read and stands (R288). -/
def State.kernel (s : State) (region : Nat) (w0 : Word) : Option KDesc :=
  match s.cpRd region (fld w0 6 50 * 64) 256 with
  | .error _ => none
  | .ok b =>
    match kdesc b with
    | none => none
    | some k => if bitsOf (k.entries.getD (fld w0 0 6) 0) 15 1 = 1 then some k else none

/-- Validity of an image enqueued from region `own` (R28, R288): the region it runs in, or the fault. -/
def State.crCheck (s : State) (own : Nat) (i : CrImg) : Except Cause Nat :=
  if fld i.w0 59 5 ≠ 0 ∨ fld i.w2 60 4 ≠ 0 ∨ i.frame % 8 ≠ 0 ∨ i.joinc % 64 ≠ 0 ∨ i.code = 0 then .error .crFormat
  else
    let rn := if i.region = 0 then own else i.region
    match if s.within own rn then s.region? rn else none with
    | none => .error .regionDenied
    | some r =>
      let framed := i.ttf == 0 ||
        (match s.frameWord r i.ttf 0x18 with
          | some d => d % 2 == 1
          | none => false)
      if !framed || (s.kernel rn i.w0).isNone then .error .crFormat else .ok rn

/-- A CR that takes a slot of its queue (R292). -/
def Cr.inRing (c : Cr) : Bool :=
  match c.st with
  | .waiting | .queued | .saved _ _ => true
  | _ => false

/-- CRs that take a slot of the queue of a region and priority (R292). -/
def State.queued (s : State) (region prio : Nat) : Nat :=
  (s.cp.crs.filter fun c => c.2.region == region && c.2.img.prio == prio && c.2.inRing).length

/-- A queue whose free slots have fallen to the reserve refuses (R292). -/
def State.queueFull (s : State) (r : Region) (i : CrImg) : Bool :=
  decide (2 ^ r.qlog ≤ s.queued r.num i.prio + s.rCores r)

/-- A valid CR as the CP takes it in, with its kernel descriptor (R29, R30, R288). -/
def State.newCr (s : State) (r : Region) (i : CrImg) (va : Word) (tag : Nat) : Cr :=
  { img := i, va := va, region := r.num, prio := Nat.min i.prio (s.rCeil r), tag := tag, st := .waiting
    enq := s.frameClk, aged := s.frameClk, deadline := 0, late := false
    desc := match s.cpRd r.num i.code 256 with
      | .ok b => b
      | .error _ => [] }

/-- The effective release of a CR that waits (R30), or stands in its queue's order and has not been popped. A frame entry
that cannot be read while the CR waits counts as base tick 0 and slip 0, so that RELEASE alone rules it: the spec does not
say what such an entry gives (DESIGN CHOICE, notes/assumptions/65.md). -/
def State.effRelease (s : State) (c : Cr) : Nat :=
  if c.img.ttf = 0 then c.enq + c.img.release
  else
    match s.region? c.region with
    | none => 0
    | some r => (s.frameWord r c.img.ttf 0).getD 0 + c.img.release + (s.frameWord r c.img.ttf 8).getD 0

/-- A CR that waits for its effective release. One of a frame that has joined its queue's order leaves it when a slip moves
its release before its pop (R30). -/
def State.aside (s : State) (c : Cr) : Bool :=
  c.st == .waiting || (c.st == .queued && c.img.ttf != 0 && s.effRelease c != c.rel)

/-- The effective release that rules a CR now: fixed once it has been popped (R30). -/
def State.relOf (s : State) (c : Cr) : Nat :=
  if c.st == .waiting || c.st == .queued then s.effRelease c else c.rel

def State.cr? (s : State) (k : Nat) : Option Cr := (s.cp.crs.find? fun x => x.1 == k).map (·.2)

def State.updCr (s : State) (k : Nat) (f : Cr → Cr) : State :=
  { s with cp := { s.cp with crs := listUpd1 (fun x => x.1 == k) (fun x => (x.1, f x.2)) s.cp.crs } }

/-- The CR of a running core. -/
def State.crOf (s : State) (n : Nat) : Option Cr :=
  match (s.core n).cr with
  | none => none
  | some k => s.cr? k

/-! ## Statistics and launches -/

/-- Raise a counter of Table 17-10 and write it to the RCB. -/
def State.stat (s : State) (region k : Nat) (f : Nat → Nat) : State :=
  match s.region? region with
  | none => s
  | some r =>
    let v := w64 (f (vget r.stats 0 k).toNat)
    (s.updRegion region fun r => { r with stats := vset r.stats k v }).paWr (r.pa + 0xC0 + 8 * k) (le8 v.toNat)

/-- A launch whose tag no CR carries any more completes (R287). -/
def State.settleTag (s : State) (tag : Nat) : State :=
  if tag = 0 ∨ (s.cp.crs.any fun c => c.2.tag == tag) ∨ (s.cp.overflow.any fun c => c.tag == tag)
      ∨ (s.cp.joins.any fun j => j.tag == tag) then s
  else
    match s.cp.lqs.find? fun q => q.tag == tag && q.pend.isNone with
    | none => s
    | some q =>
      let q' := { q with doneseq := q.head, tag := 0 }
      let s := { s with cp := { s.cp with lqs := listUpd1 (fun x => x.num == q.num) (fun _ => q') s.cp.lqs } }
      let s := s.paWr (q.pa + 0x20) (le8 q.head)
      match if q.evdone then s.region? q.region else none with
      | none => s
      | some r => s.postEvent r 0x04 0 0 q.pa (q.head - 1)

/-- Enqueue a valid CR (R29, R30). A region that is not ACTIVE discards it (Table 17-6), and its launch may be complete
with that (R287). -/
def State.enqueue (s : State) (r : Region) (c : Cr) : State :=
  if r.st != .active then s.settleTag c.tag
  else
    let c := { c with
      st := if c.img.ttf = 0 ∧ c.img.release = 0 then .queued else .waiting, enq := s.frameClk, aged := s.frameClk }
    { s with cp := { s.cp with crs := s.cp.crs ++ [(s.cp.nextCr, c)], nextCr := s.cp.nextCr + 1 } }

/-- Give back every array that a CR holds in slots 1-3 (R33, R173). -/
def State.returnArrays (s : State) (k : Nat) : State :=
  let back := fun (a : Nat × ArraySt) =>
    match a.2.holder with
    | some h => if h.1 = k then (a.1, { a.2 with holder := none }) else a
    | none => a
  { s with arrays := s.arrays.map back }

/-- Remove a CR from the schedule; its arrays are free (R33). -/
def State.removeCr (s : State) (k : Nat) : State :=
  let s := s.returnArrays k
  match s.cr? k with
  | none => s
  | some c => { s with cp := { s.cp with crs := s.cp.crs.filter fun x => x.1 != k } }.settleTag c.tag

/-! ## Freeing cores and arrays -/

/-- No request of the core for the tile awaits data, and no forward is held (R370). -/
def TileCopy.settled (t : TileCopy) : Bool := !t.st.transient && t.held.isEmpty

/-- DROP of a core for a tile, with the write-back (R252, R259); `gone`: its declaration ends with it. -/
def State.sendDrop (s : State) (n : Nat) (gone : Bool) (t : TileCopy) : State :=
  let s := if t.mask.isEmpty then s else s.readCopy n t
  let c := s.core n
  let m : Msg :=
    { kind := .drop, src := n, dst := 88, dom := t.dom, pa := t.pa, tag := gone.toNat
      bytes := if t.st.valid then c.tileBytes t else [], mask := if t.st.valid then t.mask else [] }
  let s := if t.st.valid || gone then { s with msgs := s.msgs ++ [m] } else s
  if gone then s.updCore n fun c => { c with tiles := c.tiles.filter fun x => !(x.dom == t.dom && x.pa == t.pa) }
  else s.updTile n t.dom t.pa fun t => { t with st := .i, mask := [], bad := false }

/-- A core that ends leaves a tile: at once, or when its request has been settled (R370). -/
def State.leaveTile (s : State) (n : Nat) (t : TileCopy) : State :=
  if t.settled then s.sendDrop n true t else s.updTile n t.dom t.pa fun t => { t with leave := true }

/-- A core leaves every tile. -/
def State.leaveAll (s : State) (n : Nat) : State :=
  (s.core n).tiles.foldl (fun s t => s.leaveTile n t) s

/-- Nothing of an earlier CR is under way at an idle core. -/
def Core.drained (c : Core) : Bool := c.tiles.isEmpty && c.inflight.isEmpty && c.buf.isEmpty

/-- The state of a core with no CR: what outlasts a CR is kept (R32, Table 1-5), and the writes that it has issued are
still performed (Table 17-6). -/
def Core.freed (c : Core) : Core :=
  let ws := c.inflight.filter fun a => !a.held && match a.kind with
    | .store _ | .amo .. | .cas .. => true
    | _ => false
  { Core.reset with
    sched := c.sched, imem := c.imem, spad := c.spad, lastRegion := some c.region, tlb := c.tlb, stlb := c.stlb
    locator := c.locator, nextTag := c.nextTag, gens := c.gens, retired := c.retired
    traceLost := c.traceLost
    inflight := ws, st := ws.length, buf := c.buf, hold := c.hold, tiles := c.tiles.filter (·.leave)
    region := if ws.isEmpty then 0 else c.region }

/-- Free a core (R33, step 4). -/
def State.freeCore (s : State) (n : Nat) : State :=
  let s := s.leaveAll n
  let s := { s with cp := { s.cp with
    parks := s.cp.parks.filter fun p => p.core != n
    posts := s.cp.posts.map fun (p : BarPost) => if p.core = n then { p with core := 88 } else p
    searches := s.cp.searches.filter fun x => x.core != n
    joins := s.cp.joins.map fun (j : JoinReq) => if j.core = n then { j with core := 89 } else j } }
  (s.updCore n fun c => { c.freed with since := s.frameClk }).setArray n { s.array n with lastRegion := some (s.core n).region }

/-- Fire an MSI-X vector (R325). -/
def State.msix (s : State) (v : Nat) : State := { s with cp := { s.cp with msix := v :: s.cp.msix } }

/-! ## Undercoat launches -/

/-- A launch that cannot run posts LAUNCH_BAD and completes at once (R286). -/
def State.launchBad (s : State) (q : LaunchQ) (c : Cause) : State :=
  let s := match s.region? q.region with
    | some r => s.postEvent r 0x05 c.code 0 q.pa (q.head - 1)
    | none => s
  s.settleTag q.tag

/-- Discard an undercoat launch (R301, R305): its pages and registrations go, its core is freed, one counter rises. An
adopted launch's real CR goes to step 4 of R286 (R303). -/
def State.discardUc (s : State) (id counter : Nat) : State :=
  match s.cp.ucs.find? fun u => u.1 == id with
  | none => s
  | some (_, u) =>
    let s := s.stat u.region counter (· + 1)
    let s := s.stat u.region 6 fun v => v - 65536 * u.dust.length
    let s := { s with cp := { s.cp with ucs := s.cp.ucs.filter fun x => x.1 != id } }
    -- what the launch has issued and not performed is no write (R95, R305)
    let s := if (s.core u.core).uc = some id then
        (s.updCore u.core fun c => { c with inflight := [], buf := [] }).freeCore u.core
      else s
    if u.st = .adopted then
      let f := fun (q : LaunchQ) => { q with pend := some (u.real, u.va) }
      { s with cp := { s.cp with lqs := listUpd1 (fun q => q.num == u.queue) f s.cp.lqs } }
    else s

/-! ## Regions that end (Table 17-6, R319) -/

/-- A region that leaves ACTIVE unbinds its Ethernet queues, and the frames in flight for them are dropped (R353). -/
def State.unbindEth (s : State) (region : Nat) : State :=
  let gone := fun (port q : Nat) => s.fab.ethq.any fun e => e.region == region && e.rx && e.port == port && e.num == q
  { s with fab := { s.fab with
    ethq := s.fab.ethq.filter fun e => e.region != region
    eth := Vector.ofFn fun x : Fin 2 =>
      let e := vget s.fab.eth .reset x.val
      { e with held := e.held.filter fun h => !gone x.val h.1 } } }

/-- Discard every piece of work of a region. -/
def State.discardWork (s : State) (region : Nat) : State :=
  let s := (s.cp.ucs.filter fun u => u.2.region == region).foldl (fun s u => s.discardUc u.1 5) s
  let cores := s.cores.filter fun c => c.2.status != .idle && c.2.region == region
  let s := cores.foldl (fun s c => s.freeCore c.1) s
  let lost := s.cp.overflow.filter fun c => c.region == region
  let s := { s with cp := { s.cp with
    saved := s.cp.saved.filter fun x => x.region != region
    overflow := s.cp.overflow.filter fun c => c.region != region } }
  let s := s.unbindEth region
  let s := lost.foldl (fun s c => s.settleTag c.tag) s
  (s.cp.crs.filter fun c => c.2.region == region).foldl (fun s c => s.removeCr c.1) s

/-- Regions that are DEAD leave: no work, no core and no descendant is left (Table 17-6). -/
def State.sweep (s : State) : State :=
  let dead := fun (r : Region) => r.st != .active && !(s.cp.regions.any fun x => x.parent == r.num)
    && !(s.cores.any fun c => (c.2.status != .idle || !c.2.inflight.isEmpty) && c.2.region == r.num)
    && !(s.cp.crs.any fun c => c.2.region == r.num)
  let gone := (s.cp.regions.filter dead).map (·.num)
  { s with cp := { s.cp with
    regions := s.cp.regions.filter fun r => !dead r
    lqs := s.cp.lqs.filter fun q => !gone.contains q.region
    ham := s.cp.ham.filter fun h => !gone.contains h.1
    hamRows := s.cp.hamRows.filter fun h => !gone.contains h.1 } }

/-- Sweep until nothing more is DEAD. -/
def State.sweepAll (s : State) : State := s.cp.regions.foldl (fun s _ => s.sweep) s

/-- A region enters FAILED (Table 17-6). -/
def State.failRegion (s : State) (code : Nat) (r : Region) : State :=
  if r.st ≠ .active then s
  else
    let s := s.postEvent r 0x06 code 0 0 0
    let s := s.updRegion r.num fun x => { x with st := .failed }
    s.discardWork r.num

/-- A fault domain fails (R319, Table 18-5). -/
def State.failDomain (s : State) (fdom code : Nat) : State :=
  let rs := s.cp.regions.filter fun r => s.rFdom r == fdom
  let s := rs.foldl (fun s r => s.failRegion code r) s
  let s := { s with dev := { s.dev with
    fdomf := vset s.dev.fdomf (fdom / 64) ((vget s.dev.fdomf 0 (fdom / 64)) ||| (1#64 <<< (fdom % 64))) } }
  (s.msix 2).sweepAll

/-- The CP reaches the slot of CR number `k` in the queue memory of a region and priority (R292): where its page is not
there the region's fault domain fails (R291, Table 18-5). -/
def State.queueSlot (s : State) (r : Region) (prio k : Nat) (f : State → State) : State :=
  let n := 2 ^ r.qlog
  match s.walk r.num (r.qbase + (prio * n + k % n) * 32) with
  | .error _ => s.failDomain (s.rFdom r) 0x02
  | .ok _ => f s

/-- The lowest slot of the ring of a region and priority that no CR stands in (R292). -/
def State.freeRing (s : State) (r : Region) (prio : Nat) : Nat :=
  let used := fun (k : Nat) =>
    s.cp.crs.any fun c => c.2.region == r.num && c.2.img.prio == prio && c.2.inRing && c.2.slot == k
  ((List.range (2 ^ r.qlog)).find? fun k => !used k).getD 0

/-- The image of a CR goes into a free slot of its ring (R292). -/
def State.ringPut (s : State) (r : Region) (c : Cr) (f : Nat → State → State) : State :=
  let k := s.freeRing r c.img.prio
  s.queueSlot r c.img.prio k fun s =>
    match s.cpWr r.num (r.qbase + (c.img.prio * 2 ^ r.qlog + k) * 32)
        (le8 c.img.w0.toNat ++ le8 c.img.w1.toNat ++ le8 c.img.w2.toNat ++ le8 c.img.w3.toNat) with
    | .ok s => f k s
    | .error _ => s.failDomain (s.rFdom r) 0x02

/-- Enqueue in the memory-backed queue (R292). A CR that cannot be carries no tag any more (R287). -/
def State.enqueueOr (s : State) (r : Region) (c : Cr) : State :=
  (s.ringPut r c fun k s => s.enqueue r { c with slot := k }).settleTag c.tag

/-- A CR enqueued once its queue has a slot: at once, or held by the CP, with its descriptor as read (R292). -/
def State.enqueueLater (s : State) (r : Region) (c : Cr) : State :=
  if s.queueFull r c.img then { s with cp := { s.cp with overflow := s.cp.overflow ++ [c] } } else s.enqueueOr r c

/-- The fault domain of a core's running CR fails. -/
def State.failCore (s : State) (n code : Nat) : State :=
  match s.region? (s.core n).region with
  | none => s
  | some r => s.failDomain (s.rFdom r) code

/-- A core's read meets poisoned data (R319); an undercoat launch is discarded (R301). -/
def State.poisonFail (s : State) (n : Nat) : State :=
  match (s.core n).uc with
  | some id => s.discardUc id 5
  | none => s.failCore n 0x01

/-- A package that a split or a fatal error cuts off loses its replicas with its fault domain: nothing of them is written
back (R265). -/
def State.loseReplicas (s : State) : State :=
  let s := { s with
    lines := s.lines.filter fun l => !(l.dom == 3 && paDev (128 * l.line) != s.fab.fabId)
    dir := s.dir.map fun e => if s.away e then { e with rep := none } else e }
  s.cores.foldl (fun s c => s.updCore c.1 fun c =>
    { c with tiles := c.tiles.map fun t => if paDev t.pa != s.fab.fabId then { t with mask := [] } else t }) s

/-- The device becomes fatal (R320). -/
def State.deviceFatal (s : State) : State :=
  let ds := (s.cp.regions.map fun r => s.rFdom r).eraseDups
  let s := (ds.foldl (fun s d => s.failDomain d 0x07) s).loseReplicas
  { s with dev := { s.dev with fatal := true } }.msix 2

end Sys2Proof.Machine
end

