-- ==== Sys2Proof/Machine/Chalk.lean ====
section
/-! DEFINITION. The chalk line: packets, their store and its lines (R243-R247). -/

namespace Sys2Proof.Machine

/-- SYNC and FRAME words (Table 11-7). -/
def syncWord (sched : Nat) : Word := w64 (1 + sched % 2 ^ 60 * 16)
def frameWordOf (clk : Nat) : Word := w64 (2 + clk % 2 ^ 60 * 16)

/-- Put packets into the store, or lose them all; after a loss, LOST with SYNC and FRAME stands first (R244). R244 says
only that new packets are lost while the store is full: that packets which stand together (MARK with its MARKH, or LOST,
SYNC, FRAME and the packet behind them) and do not fit whole are lost as a whole is a DESIGN CHOICE (assumption 65). -/
def Trace.put (t : Trace) (sched clk : Nat) (ps : List Word) : Trace :=
  let ps' := if t.gap = 0 then ps
    else [w64 (0xB + Nat.min t.gap (2 ^ 32 - 1) * 16), syncWord sched, frameWordOf clk] ++ ps
  if t.store.length + ps'.length ≤ 64 then
    { t with
      store := t.store ++ ps'
      since := if t.gap = 0 then t.since + ps.length else ps.length
      last := if t.gap = 0 then t.last else sched
      gap := 0 }
  else { t with lost := Nat.min (t.lost + ps.length) (2 ^ 64 - 1), gap := t.gap + ps.length }

/-- SYNC and FRAME of the cycle (R246). -/
def Trace.sync (t : Trace) (sched clk : Nat) : Trace :=
  { t.put sched clk [syncWord sched, frameWordOf clk] with last := sched, since := 0 }

/-- A timed packet: type, and fields in place above bit 19 (R246); after a loss DELTA counts from the SYNC that goes
before it. -/
def Trace.timed (t : Trace) (sched clk typ fields : Nat) (more : List Word := []) : Trace :=
  let t := if t.since ≥ 4096 ∨ sched - t.last > 65535 then t.sync sched clk else t
  let delta := if t.gap = 0 then sched - t.last else 0
  { t.put sched clk (w64 (typ + delta * 16 + fields) :: more) with last := sched }

/-- A packet of core `n`, if its chalk line runs. -/
def State.chalk (s : State) (n : Nat) (f : Nat → Nat → Trace → Trace) : State :=
  let c := s.core n
  if c.trace.active then s.updCore n fun c => { c with trace := f c.sched s.frameClk c.trace } else s

/-- A timed packet of core `n`. -/
def State.chalkT (s : State) (n typ fields : Nat) (more : List Word := []) : State :=
  s.chalk n fun sc fc t => t.timed sc fc typ fields more

/-- The number of an observer in ENTRY packets and frames (Tables 11-7, 18-2). -/
def unitObs : Unit8 → Nat
  | .ve => 0
  | .me => 1
  | .hu => 2
  | .ch c => 8 + c.toNat

/-- ENTRY: start or completion of a macro entry (R247). -/
def State.chalkEntry (s : State) (n obs : Nat) (done run : Bool) (entry : Nat) : State :=
  s.chalkT n 0x4 (obs * 2 ^ 20 + done.toNat * 2 ^ 24 + run.toNat * 2 ^ 25 + entry * 2 ^ 26)

/-- The slice header (Table 11-5). -/
def Trace.header (t : Trace) : List Byte := le8 t.wptr ++ le8 t.lost ++ le8 t.wraps ++ List.replicate 40 0

/-- 64-bit saturation. -/
def sat64 (n : Nat) : Nat := Nat.min n (2 ^ 64 - 1)

/-- The packets of a region's slice of a core that its unit has dropped and its header does not count yet (R304). -/
def State.traceDropped (s : State) (n : Nat) : Nat :=
  tabGet 0 (s.core n).traceLost ((s.region? (s.core n).region).elim 0 fun r => (s.grp 2 r).num)

/-- Write one line of eight packets and then the header; the packets of a line that cannot be written are lost (R244). -/
def State.chalkLine (s : State) (n : Nat) : State :=
  let c := s.core n
  let own := (s.region? c.region).elim 0 fun r => (s.grp 2 r).num
  let t := { c.trace with
    lost := sat64 (c.trace.lost + tabGet 0 c.traceLost own), store := c.trace.store.drop 8, old := c.trace.old - 8 }
  let ps := c.trace.store.take 8
  let line := ps.map fun w => le8 w.toNat
  let k := (ps.filter fun w => w != 0).length
  let adv := fun (t : Trace) =>
    let p := t.wptr + 64
    { t with
      wptr := if p ≥ t.size then 64 else p
      wraps := if p ≥ t.size then sat64 (t.wraps + 1) else t.wraps }
  let r := match s.cpWr c.region (t.base + t.wptr) line.flatten (dieOf n) with
    | .ok s => (s, adv t)
    | .error _ => (s, { t with lost := sat64 (t.lost + k), gap := t.gap + k })
  let s := r.1.updCore n fun c => { c with trace := r.2, traceLost := c.traceLost.filter fun x => x.1 != own }
  match s.cpWr c.region t.base r.2.header (dieOf n) with
  | .ok s => s
  | .error _ => s

/-- Write lines while `fuel` lasts and whole ones stand in the store. -/
def chalkLines (n : Nat) : Nat → State → State
  | 0, s => s
  | k + 1, s => if (s.core n).trace.store.length ≥ 8 then chalkLines n k (s.chalkLine n) else s

/-- PAD words fill a partial line (R244). -/
def Trace.pad (t : Trace) : Trace :=
  { t with store := t.store ++ List.replicate ((8 - t.store.length % 8) % 8) 0 }

/-- A partial line is padded, to be written: at a pre-emption, a freeze and at retirement (R244). -/
def State.chalkPad (s : State) (n : Nat) : State :=
  if (s.core n).trace.active then s.updCore n fun c => { c with trace := c.trace.pad } else s

/-- Every packet is written. -/
def State.chalkFlush (s : State) (n : Nat) : State := chalkLines n 16 (s.chalkPad n)

/-- The trace unit has written every packet and its header. -/
def Core.traced (c : Core) : Bool := !c.trace.active || c.trace.store.isEmpty

/-- The trace unit at a pop (R243, R244): whether it runs, and the header's pointers. -/
def State.chalkStart (s : State) (n : Nat) (r : Region) (want : Bool) : Trace :=
  let size := s.rTrslice r * 4096
  if want && s.rTracep r && size != 0 then
    let base := s.rTrbase r + n * size
    let h := match s.cpRd r.num base 24 (dieOf n) with
      | .ok b => b
      | .error _ => []
    let w := dwAt h 0
    { active := true, base := base, size := size
      wptr := if w < 64 ∨ w % 64 ≠ 0 ∨ w > size - 64 then 64 else w
      lost := dwAt h 1, wraps := dwAt h 2, store := [], last := (s.core n).sched, since := 0, gap := 0 }
  else .off

/-- CHALK_WPTR (Table 11-6). -/
def Trace.nextPtr (t : Trace) : Nat :=
  if t.size ≤ 64 then 64 else 64 + (t.wptr - 64 + 8 * t.store.length) % (t.size - 64)

/-- CHALK_LINE_WRITE (R244): a line that was complete before this cycle. -/
def execChalkLineWrite (n : Nat) (s : State) : Res :=
  if (s.core n).trace.active && decide ((s.core n).trace.old ≥ 8) then .next (s.chalkLine n) else .next s

end Sys2Proof.Machine
end

