-- ==== Sys2Proof/Machine/Access.lean ====
section
/-! DEFINITION. Reads and writes of an observer of a core in either space, those of an undercoat launch included
(R299-R301), address checks (R70, R71, R88, R122), the watermark guard (R196) and what a failed access raises. -/

namespace Sys2Proof.Machine

/-! ## Address checks before an access (R122) -/

/-- The fault of an address, alignment first. -/
def addrFault (sp : Bool) (a size align : Nat) : Option Cause :=
  if a % align ≠ 0 then some .align
  else if sp then (if a + size > 0x200000 then some .spadRange else none)
  else if a + size - 1 ≥ 2 ^ 56 then some .addrRange else none

/-- An armed range of another observer's watermark meets a scratchpad range (R196), as the cycle found it (R274). -/
def Core.guarded (c : Core) (obs off n : Nat) : Bool :=
  (List.range 8).any fun k =>
    let h := vget c.ch .zero k
    obs != 8 + k && decide (h.markSeen < h.wendSeen ∧ h.markSeen < off + n ∧ off < h.wendSeen)

/-! ## Undercoat launches (R299, R300) -/

/-- A byte range lies wholly inside one of the listed ranges' union, judged piecewise at their bounds. -/
def covered : Nat → List (Nat × Nat) → Nat → Nat → Bool
  | 0, _, _, n => n == 0
  | f + 1, l, a, n =>
    if n = 0 then true
    else
      match l.find? fun r => decide (r.1 ≤ a ∧ a < r.1 + r.2) with
      | none => false
      | some r => let m := Nat.min n (r.1 + r.2 - a); covered f l (a + m) (n - m)

/-- The argument block's bytes, 32 of them. -/
def Undercoat.argBytes (u : Undercoat) : List Byte := (u.args.toList.map fun w => le8 w.toNat).flatten

/-- A byte as an undercoat launch reads it over what memory gives. -/
def Undercoat.byteAt (u : Undercoat) (va : Nat) (b : Byte) : Byte :=
  let inArg := decide (u.img.frame ≤ va ∧ va < u.img.frame + 32)
  let arg := u.argBytes.getD (va - u.img.frame) 0
  match u.dust.find? fun d => d.1 == va / 65536 * 65536 with
  | some d => if inArg && d.2.2.2.rd (va % 65536) == 0 then arg else d.2.2.1.rd (va % 65536)
  | none => if inArg then arg else b

/-- A read of global memory by an undercoat launch: outside its read footprints and the argument block the launch ends,
also where it has a dust page (R301). -/
def State.ucRd (s : State) (n obs : Nat) (u : Undercoat) (va len : Nat) : Try (List Byte) :=
  if covered 8 ((u.img.frame, 32) :: u.reads) va len then
    match s.rdG n obs va len with
    | .ok b s => .ok (b.zipIdx.map fun p => u.byteAt (va + p.2) p.1) s
    | .wait s => .wait s
    | .err _ => .err .discard
  else .err .discard

/-- Dust pages held by the undercoat launches of a region and its descendants. -/
def State.dustUnder (s : State) (region : Nat) : Nat :=
  ((s.cp.ucs.filter fun u => s.within region u.2.region).map fun u => u.2.dust.length).foldl (· + ·) 0

/-- Every DUSTQ limit that applies to a region has room for a page (R290, R300). -/
def State.dustRoom (s : State) (r : Region) : Bool :=
  (s.limits 8 r).all fun x => decide (s.dustUnder x.num < fld (x.at 0x18) 0 19)

/-- Write one page's bytes into the dust sheet. -/
def State.ucWrPage (s : State) (n obs id va : Nat) (bs : List Byte) : Try Unit :=
  match s.cp.ucs.find? fun u => u.1 == id with
  | none => .err .discard
  | some (_, u) =>
    let page := va / 65536 * 65536
    let put := fun (s : State) (d : Nat × Nat × Memory × Memory) (l : List (Nat × Nat × Memory × Memory)) =>
      let d' := (d.1, d.2.1, d.2.2.1.wrBytes (va - page) bs, d.2.2.2.wrBytes (va - page) (bs.map fun _ => 1))
      let f := fun (x : Nat × Undercoat) => (x.1, { x.2 with dust := d' :: l })
      { s with cp := { s.cp with ucs := listUpd1 (fun x => x.1 == id) f s.cp.ucs } }
    match s.tr n obs va true with
    | .ok p s =>
      if paDev p.1 ≠ s.fab.fabId then .err .discard
      else
        match u.dust.find? fun d => d.1 == page with
        | some d => .ok () (put s d (u.dust.filter fun d => d.1 != page))
        | none =>
          match s.region? u.region with
          | none => .err .discard
          | some r =>
            let held := (s.cp.ucs.map fun x => x.2.dust.length).foldl (· + ·) 0
            if !s.dustRoom r || decide ((held + 1) * 65536 > 24 * 2 ^ 30) then .err .discard
            else
              let pa := p.1 - (va - page)
              let old := Memory.wrBytes .empty 0 (s.cpRdPage (dieOf n) pa 65536 p.2)
              let s := s.stat u.region 6 (· + 65536)
              let s := s.stat u.region 7 fun v => Nat.max v
                (((s.region? u.region).map fun r => (vget r.stats 0 6).toNat).getD 0)
              .ok () (put s (page, pa, old, .empty) u.dust)
    | .wait s => .wait s
    | .err _ => .err .discard

def ucWrPages (n obs id : Nat) : List (Nat × Nat) → List Byte → State → Try Unit
  | [], _, s => .ok () s
  | (va, len) :: r, bs, s =>
    match s.ucWrPage n obs id va (bs.take len) with
    | .ok _ s => ucWrPages n obs id r (bs.drop len) s
    | .wait s => .wait s
    | .err e => .err e

/-! ## Reads and writes -/

/-- The undercoat launch that a core runs. -/
def State.ucOf (s : State) (n : Nat) : Option (Nat × Undercoat) :=
  match (s.core n).uc with
  | none => none
  | some id => s.cp.ucs.find? fun u => u.1 == id

/-- An engine's step waits for an access at an address. -/
def Engine.asking (e : Engine) (sp wr : Bool) (a : Nat) : Bool :=
  e.ask.any fun q => q.sp == sp && q.wr == wr && q.addr == a

/-- A range lies, or begins, where the route to its home is held: no request goes out for it (R347, R359). -/
def State.heldAt (s : State) (n obs : Nat) (sp : Bool) (a len : Nat) : Bool :=
  if sp then (s.core n).tiles.any fun t => decide (t.off < a + len ∧ a < t.off + t.size) && s.routePa n t.pa == .hold
  else (vaPages a len).any fun p =>
    match s.xlate n obs p.1 false with
    | .ok x => s.routePa n x.1 == .hold
    | .error _ => false

/-- A range lies in part in window tiles. -/
def State.meetsDir (s : State) (n obs : Nat) (sp : Bool) (a len : Nat) : Bool :=
  if sp then (s.core n).tiles.any fun t => decide (t.off < a + len ∧ a < t.off + t.size)
  else (vaPages a len).any fun p =>
    match s.xlate n obs p.1 false with
    | .ok x => s.dir.any fun e => decide (e.pa < x.1 + p.2 ∧ x.1 < e.pa + e.tile)
    | .error _ => false

/-- The access that an attempt of an engine was for has its reply, or its request stands out from now on (R321). Of other
observers nothing is noted here. -/
def State.noteAsk (s : State) (n obs : Nat) (sp wr : Bool) (a len : Nat) (waits : Bool) : State :=
  match unitOfObs obs with
  | none => s
  | some u =>
    let old := ((s.core n).eng u).asking sp wr a
    if !waits then (if old then s.updEng n u fun e => { e with ask := none } else s)
    else if old || s.heldAt n obs sp a len then s
    else
      s.updEng n u fun e =>
        { e with ask := some { sp := sp, addr := a, len := len, wr := wr, at_ := s.frameClk, lim := s.dev.rsplim.toNat } }

/-- An attempt with the engine's note of it. -/
def Try.noted {α : Type} (t : Try α) (n obs : Nat) (sp wr : Bool) (a len : Nat) : Try α :=
  match t with
  | .ok x s => .ok x (s.noteAsk n obs sp wr a len false)
  | .wait s => .wait (s.noteAsk n obs sp wr a len true)
  | .err e => .err e

/-- The engine's read at an address has failed for the second time (R321). -/
def State.gaveUp (s : State) (n obs : Nat) (sp : Bool) (a : Nat) : Bool :=
  match unitOfObs obs with
  | none => false
  | some u => ((s.core n).eng u).asking sp false a && (((s.core n).eng u).ask.any fun q => q.dead)

/-- The bytes that an engine's waiting read is served with (R282). -/
def State.handed (s : State) (n obs : Nat) (sp : Bool) (a : Nat) : Option (List Byte) :=
  match unitOfObs obs with
  | none => none
  | some u => (((s.core n).eng u).ask.filter fun _ => ((s.core n).eng u).asking sp false a).bind fun q => q.data

/-- The engine's next read meets an error (R319). -/
def State.isHit (s : State) (n obs : Nat) : Bool :=
  match unitOfObs obs with
  | none => false
  | some u => ((s.core n).eng u).hit

/-- An observer of core `n` reads. -/
def State.rdA (s : State) (n obs : Nat) (sp : Bool) (a len : Nat) : Try (List Byte) :=
  if s.gaveUp n obs sp a then .err (.refused a)
  else if s.isHit n obs then .err (.poison (2 ^ 56))
  else
  match s.handed n obs sp a with
  | some b => .ok b (s.noteAsk n obs sp false a len false)
  | none =>
  if sp then (if (s.core n).guarded obs a len then .wait s else (s.rdS n a len).noted n obs sp false a len)
  else
    (match s.ucOf n with
    | none => s.rdG n obs a len
    | some u => s.ucRd n obs u.2 a len).noted n obs sp false a len

/-- An observer of core `n` writes; the first refusal by a home, if any. `home`: applied at the home (R251). -/
def State.wrF (s : State) (n obs : Nat) (sp : Bool) (a : Nat) (bs : List Byte) (home : Bool := false) :
    Try (Option (FailCause × Nat)) :=
  if sp && (s.core n).guarded obs a bs.length then .wait s
  else
    (match if sp then none else s.ucOf n with
    | some u =>
      if home || !covered 8 u.2.writes a bs.length then Try.err .discard
      else (ucWrPages n obs u.1 (vaPages a bs.length) bs s).bind fun _ s => Try.ok none s
    | none => if sp then s.wrS n obs a bs else s.wrG n obs a bs home).noted n obs sp true a bs.length

/-- A write whose refusal enters the failure record (R92). -/
def State.wrA (s : State) (n obs : Nat) (sp : Bool) (a : Nat) (bs : List Byte) (home : Bool := false) : Try Unit :=
  (s.wrF n obs sp a bs home).bind fun f s =>
    match f with
    | none => .ok () s
    | some f => .ok () (s.updCore n fun c => c.recordFail f.1 f.2)

/-- An update at the home outside windows (R237): at the slice that holds the line; at the memory logic die, without a
fill, where none does. -/
def State.homePut (s : State) (core dom pa : Nat) (bs : List Byte) : State :=
  if (s.line? dom (pa / 128)).isSome then (s.phWrite dom pa bs).touch core dom pa bs.length true
  else { s with mem := s.mem.wrBytes pa bs }

/-- One atomic update at the home of a physical location (R90, R192, R199). -/
def State.rmwPa (s : State) (c die pa size : Nat) (page : Scope) (f : Nat → Nat) : Try (Option FailCause) :=
  match s.routePa c pa with
  | .hold => .wait s
  | .none => .ok (some .refused) s
  | _ =>
    if s.isPoisoned pa size die then .ok (some .poison) s
    else
      match s.entFor die pa with
      | some e =>
        if !s.free c e then .wait s
        else if e.remBlocks true then .wait (s.sendBis e.pa (s.tileHolders e))
        else
          .ok none (s.gwWrite e pa (leBytes size (f (leNat (((s.tileData e).1.drop (pa - e.pa)).take size)))))
      | none =>
        let dom := domOf (s.locReach pa page) die
        if s.lineBlocks pa size true then .wait (s.askLine pa size true)
        else
          let s := s.expose c die dom pa size true
          if !s.exposed c die dom pa size true then .wait s
          else .ok none ((s.homePut c dom pa (leBytes size (f (s.phNat dom pa size)))).markStale pa size)

/-- An observer of core `n` updates a location atomically. -/
def State.rmwA (s : State) (n obs : Nat) (sp : Bool) (a size : Nat) (f : Nat → Nat) :
    Try (Option (FailCause × Nat)) :=
  let tag := fun (x : Option FailCause) => x.map fun c => (c, a)
  if sp then
    if (s.core n).guarded obs a size then .wait s
    else
      match (s.core n).tileSp a with
      | none =>
        .ok none (s.updCore n fun c => { c with spad := c.spad.wrN a size (f (c.spad.rdN a size)) })
      | some t =>
        if s.tileRo n t then .err (.walk ⟨.permission, 0, 0⟩ a)
        else
          ((s.rmwPa n (dieOf n) (t.pa + (a - t.off)) size .pod f).bind fun x s => .ok (tag x) s).noted n obs sp true a size
  else if (s.core n).uc.isSome then .err .discard
  else
    ((s.tr n obs a true).bind fun p s =>
      (s.rmwPa n (dieOf n) p.1 size p.2 f).bind fun x s => .ok (tag x) s).noted n obs sp true a size

/-! ## Failed accesses -/

/-- A fault of a core; an undercoat launch is discarded by any fault (R301). -/
def State.faultOn (s : State) (n : Nat) (r : FaultRec) : State :=
  match (s.core n).uc with
  | some id => s.discardUc id 5
  | none => s.raise n r

/-- What a failed access of an observer of core `n` does. -/
def State.accFail (s : State) (n obs : Nat) (wr : Bool) (e : AccErr) : State :=
  match e with
  | .walk w va => if w.cause = .dataPoison then s.poisonFail n else s.faultOn n (w.toFault obs va (s.core n).pc wr)
  | .poison pa => (s.foundError n pa).poisonFail n
  | .refused a =>
    s.faultOn n { cause := .rdTimeout, obs := obs, wr := wr, addr := w64 a, rpc := (s.core n).pc }
  | .discard =>
    match (s.core n).uc with
    | some id => s.discardUc id 5
    | none => s

/-- A fault of the S word of the current core (R122). -/
def State.sFault (s : State) (cause : Cause) (addr : Word := 0) (info0 : Word := 0) (info1 : Word := 0)
    (info2 : Word := 0) (sub : Nat := 0) (wr : Bool := false) : State :=
  match s.me.uc with
  | some id => s.discardUc id 5
  | none => s.ccFault cause addr info0 info1 info2 sub 0 wr

/-- An S word that ends an undercoat launch (R301). -/
def State.notUc (s : State) (f : Res) : Res :=
  match s.me.uc with
  | some id => .next (s.discardUc id 5)
  | none => f

end Sys2Proof.Machine
end

