-- ==== Sys2Proof/Machine/Integer.lean ====
section
/-! DEFINITION. Integer instructions of the S slot (R124-R129). -/

namespace Sys2Proof.Machine

/-- A result in sd, after an issue interval (R121, Table 11-1). -/
def State.setD (s : State) (ival : Nat) (d : BitVec 5) (v : Word) : Res :=
  .next (s.issueS ival fun c => c.setReg d.toNat v)

/-- A result in a predicate (R129). -/
def State.setP (s : State) (p : BitVec 3) (v : Bool) : Res := .next (s.issueS 1 fun c => c.setPred p.toNat v)

/-- DIV and DIV.U of R125. -/
def quotient (signed : Bool) (a b : Word) : Word :=
  if b = 0 then BitVec.allOnes 64
  else if signed then BitVec.ofInt 64 (a.toInt.tdiv b.toInt) else a / b

/-- REM and REM.U of R125. -/
def remainder (signed : Bool) (a b : Word) : Word :=
  if b = 0 then a
  else if signed then BitVec.ofInt 64 (a.toInt.tmod b.toInt) else a % b

/-- Number of one bits among bits below `n` (R124). -/
def popcount (w : Nat) : Nat → Nat
  | 0 => 0
  | n + 1 => bitsOf w n 1 + popcount w n

/-- Number of leading zeros of a 64-bit value (R124). -/
def leadingZeros (w : Word) : Nat := if w = 0 then 64 else 63 - w.toNat.log2

/-- Count of a shift: b[5:0] (R124). -/
def cnt6 (b : Word) : Nat := b.toNat % 64

def execNop (s : State) : Res := .next (s.issueS 1 id)

def execAdd (d : BitVec 5) (a b : Src) (s : State) : Res := s.setD 1 d (s.sval a + s.sval b)
def execSub (d : BitVec 5) (a b : Src) (s : State) : Res := s.setD 1 d (s.sval a - s.sval b)
def execMul (d : BitVec 5) (a b : Src) (s : State) : Res := s.setD 2 d (s.sval a * s.sval b)
def execMulh (d : BitVec 5) (a b : Src) (s : State) : Res :=
  s.setD 2 d (BitVec.ofInt 64 ((s.sval a).toInt * (s.sval b).toInt / 2 ^ 64))
def execMulhU (d : BitVec 5) (a b : Src) (s : State) : Res :=
  s.setD 2 d (w64 ((s.sval a).toNat * (s.sval b).toNat / 2 ^ 64))
def execDiv (d : BitVec 5) (a b : Src) (s : State) : Res := s.setD 34 d (quotient true (s.sval a) (s.sval b))
def execDivU (d : BitVec 5) (a b : Src) (s : State) : Res := s.setD 34 d (quotient false (s.sval a) (s.sval b))
def execRem (d : BitVec 5) (a b : Src) (s : State) : Res := s.setD 34 d (remainder true (s.sval a) (s.sval b))
def execRemU (d : BitVec 5) (a b : Src) (s : State) : Res := s.setD 34 d (remainder false (s.sval a) (s.sval b))
def execAnd (d : BitVec 5) (a b : Src) (s : State) : Res := s.setD 1 d (s.sval a &&& s.sval b)
def execOr (d : BitVec 5) (a b : Src) (s : State) : Res := s.setD 1 d (s.sval a ||| s.sval b)
def execXor (d : BitVec 5) (a b : Src) (s : State) : Res := s.setD 1 d (s.sval a ^^^ s.sval b)
def execAndn (d : BitVec 5) (a b : Src) (s : State) : Res := s.setD 1 d (s.sval a &&& ~~~(s.sval b))
def execShl (d : BitVec 5) (a b : Src) (s : State) : Res := s.setD 1 d (s.sval a <<< cnt6 (s.sval b))
def execShr (d : BitVec 5) (a b : Src) (s : State) : Res := s.setD 1 d (s.sval a >>> cnt6 (s.sval b))
def execSra (d : BitVec 5) (a b : Src) (s : State) : Res := s.setD 1 d ((s.sval a).sshiftRight (cnt6 (s.sval b)))
def execRot (d : BitVec 5) (a b : Src) (s : State) : Res := s.setD 1 d ((s.sval a).rotateLeft (cnt6 (s.sval b)))
def execMin (d : BitVec 5) (a b : Src) (s : State) : Res :=
  s.setD 1 d (if (s.sval a).slt (s.sval b) then s.sval a else s.sval b)
def execMinU (d : BitVec 5) (a b : Src) (s : State) : Res :=
  s.setD 1 d (if (s.sval a).ult (s.sval b) then s.sval a else s.sval b)
def execMax (d : BitVec 5) (a b : Src) (s : State) : Res :=
  s.setD 1 d (if (s.sval a).slt (s.sval b) then s.sval b else s.sval a)
def execMaxU (d : BitVec 5) (a b : Src) (s : State) : Res :=
  s.setD 1 d (if (s.sval a).ult (s.sval b) then s.sval b else s.sval a)
def execClz (d : BitVec 5) (a : Src) (s : State) : Res := s.setD 1 d (w64 (leadingZeros (s.sval a)))
def execPopc (d : BitVec 5) (a : Src) (s : State) : Res := s.setD 1 d (w64 (popcount (s.sval a).toNat 64))
def execSel (d : BitVec 5) (a b : Src) (p : BitVec 3) (s : State) : Res :=
  s.setD 1 d (if s.me.pred p.toNat then s.sval a else s.sval b)

def execShlImm (d : BitVec 5) (a : Src) (cnt : BitVec 6) (s : State) : Res := s.setD 1 d (s.sval a <<< cnt.toNat)
def execShrImm (d : BitVec 5) (a : Src) (cnt : BitVec 6) (s : State) : Res := s.setD 1 d (s.sval a >>> cnt.toNat)
def execSraImm (d : BitVec 5) (a : Src) (cnt : BitVec 6) (s : State) : Res :=
  s.setD 1 d ((s.sval a).sshiftRight cnt.toNat)
def execRotImm (d : BitVec 5) (a : Src) (cnt : BitVec 6) (s : State) : Res :=
  s.setD 1 d ((s.sval a).rotateLeft cnt.toNat)

def execMovi (d : BitVec 5) (imm : BitVec 14) (s : State) : Res := s.setD 1 d (sx imm)
def execMoviLong (d : BitVec 5) (imm : BitVec 46) (s : State) : Res := s.setD 1 d (sx imm)
def execAddImm (d : BitVec 5) (a : Src) (imm : BitVec 14) (s : State) : Res := s.setD 1 d (s.sval a + sx imm)
def execAddLong (d : BitVec 5) (a : Src) (imm : BitVec 46) (s : State) : Res := s.setD 1 d (s.sval a + sx imm)
def execAndImm (d : BitVec 5) (a : Src) (imm : BitVec 14) (s : State) : Res := s.setD 1 d (s.sval a &&& sx imm)
def execAndLong (d : BitVec 5) (a : Src) (imm : BitVec 46) (s : State) : Res := s.setD 1 d (s.sval a &&& sx imm)
def execOrImm (d : BitVec 5) (a : Src) (imm : BitVec 14) (s : State) : Res := s.setD 1 d (s.sval a ||| sx imm)
def execOrLong (d : BitVec 5) (a : Src) (imm : BitVec 46) (s : State) : Res := s.setD 1 d (s.sval a ||| sx imm)
def execXorImm (d : BitVec 5) (a : Src) (imm : BitVec 14) (s : State) : Res := s.setD 1 d (s.sval a ^^^ sx imm)
def execXorLong (d : BitVec 5) (a : Src) (imm : BitVec 46) (s : State) : Res := s.setD 1 d (s.sval a ^^^ sx imm)

/-- LEA: the sum, checked as a global address (R126, R70). -/
def State.leaTo (s : State) (d : BitVec 5) (sum : Word) : Res :=
  if fld sum 56 8 = 0 then s.setD 1 d sum else .next (s.sFault .addrRange (addr := sum))

def execLea (d : BitVec 5) (a : Src) (imm : BitVec 14) (s : State) : Res := s.leaTo d (s.sval a + sx imm)
def execLeaLong (d : BitVec 5) (a : Src) (imm : BitVec 46) (s : State) : Res := s.leaTo d (s.sval a + sx imm)

def execBfx (d : BitVec 5) (a : Src) (wid pos : BitVec 6) (s : State) : Res :=
  s.setD 1 d (w64 (fld (s.sval a) pos.toNat (wid.toNat + 1)))
def execBfi (d : BitVec 5) (a : Src) (wid pos : BitVec 6) (s : State) : Res :=
  s.setD 1 d (setFld (s.me.reg d.toNat) pos.toNat (wid.toNat + 1) (s.sval a).toNat)

def execCmp (p : BitVec 3) (a b : Src) (c : Cond) (s : State) : Res := s.setP p (condHolds c (s.sval a) (s.sval b))
def execCmpImm (c : Cond) (p : BitVec 3) (a : Src) (imm : BitVec 14) (s : State) : Res :=
  s.setP p (condHolds c (s.sval a) (sx imm))
def execCmpLong (c : Cond) (p : BitVec 3) (a : Src) (imm : BitVec 46) (s : State) : Res :=
  s.setP p (condHolds c (s.sval a) (sx imm))

end Sys2Proof.Machine
end

