-- ==== Sys2Proof/Machine/LoadStore.lean ====
section
/-! DEFINITION. Loads, stores, prefetches, atomics and WQUERY of the S slot, and their completion (R27, R121, R122,
R135-R137, R226, R250, R251). -/

namespace Sys2Proof.Machine

/-! ## Issue -/

/-- The scalar register that an H word writes on completion: HPOP or HAMQ. -/
def huDest (w : Nat) : Option Nat :=
  if (bitsOf w 26 6 = 3 ∧ bitsOf w 0 6 = 5) ∨ (bitsOf w 26 6 = 5 ∧ bitsOf w 0 6 = 1) then some (bitsOf w 21 5) else none

/-- The register that an access writes. -/
def AccKind.dest : AccKind → Option Nat
  | .load d _ | .amo d _ _ _ | .cas d _ _ | .wquery d _ _ => some d
  | _ => none

/-- Whether an access counts in ld (true) or st (false); WQUERY counts in neither. -/
def AccKind.counter : AccKind → Option Bool
  | .load .. | .pref _ => some true
  | .store _ | .amo .. | .cas .. => some false
  | _ => none

def AccKind.isPref : AccKind → Bool
  | .pref _ => true
  | _ => false

/-- A request tag can be taken: it is free, and was not retired at its present generation within the time that the core
keeps (R321). -/
def Core.tagFree (c : Core) (t : Nat) : Bool :=
  !(c.inflight.any fun a => a.tag == t) && !(c.retired.any fun r => r.1 == t && r.2.1 == tabGet 0 c.gens t)

/-- A free request tag, from the last one on (R321). -/
def Core.freeTag (c : Core) : Nat → Nat → Nat
  | 0, t => t
  | f + 1, t => if c.tagFree t then t else c.freeTag f ((t + 1) % 4096)

/-- A request tag is retired at a time, and its generation advances; retirements before `old` no longer count (R321). -/
def Core.retireTag (c : Core) (a : Access) (clk old : Nat) : Core :=
  { c with
    gens := tabSet c.gens a.tag ((a.gen + 1) % 16)
    retired := (a.tag, a.gen, clk) :: c.retired.filter fun r => decide (old < r.2.2) }

/-- A request leaves the core: counter, pending mark, tag (R27, R121, R321). -/
def Core.send (c : Core) (a : Access) : Core :=
  let t := c.freeTag 4096 c.nextTag
  let c := { c with
    inflight := c.inflight ++ [{ a with tag := t, gen := tabGet 0 c.gens t }]
    nextTag := (t + 1) % 4096
    ld := if a.kind.counter = some true then c.ld + 1 else c.ld
    st := if a.kind.counter = some false then c.st + 1 else c.st }
  match a.kind.dest with
  | some d => c.setPend d true
  | none => c

/-- The location of an access: the core's own scratchpad, a physical address, or one that does not translate. -/
def State.accLoc (s : State) (n : Nat) (a : Access) : Nat × Nat :=
  if a.sp then
    match (s.core n).tileSp a.addr with
    | some t => (1, t.pa + (a.addr - t.off))
    | none => (0, a.addr)
  else
    match s.walk (s.core n).region a.addr with
    | .ok p => (1, p.pa + a.addr % 2 ^ p.lg)
    | .error _ => (2, a.addr)

/-- The route of a CC access is held at its source (R347, R359). -/
def State.accHeld (s : State) (n : Nat) (a : Access) : Bool :=
  let l := s.accLoc n a
  l.1 == 1 && s.routePa n l.2 == .hold

/-- Issue an access, unless its counter stands at 255 (R27). RSPLIM as it stands rules the request (R325). -/
def State.issueAcc (s : State) (a : Access) : Res :=
  let full : Bool := match a.kind.counter with
    | some true => decide (255 ≤ s.me.ld)
    | some false => decide (255 ≤ s.me.st)
    | none => false
  if full then .next (s.stallS .waitc) else .next (s.issueS 1 fun c =>
      c.send { a with at_ := s.frameClk, lim := s.dev.rsplim.toNat, atSrc := s.accHeld s.cur a })

/-- A scalar access after the checks of R122; a guarded scratchpad range stalls the bundle (R196). -/
def State.scalarAcc (s : State) (k : AccKind) (sp : Bool) (ea : Nat) (size : Nat) (scope : Scope) (wr : Bool) : Res :=
  match addrFault sp ea size size with
  | some c => .next (s.sFault c (addr := w64 ea) (wr := wr))
  | none =>
    if sp && s.me.guarded 3 ea size then .next (s.stallS .wait)
    else s.issueAcc { kind := k, sp := sp, addr := ea, size := size, scope := scope }

/-- Effective address of the M format (R100, R135). -/
def State.ea (s : State) (base : BitVec 5) (off : BitVec 13) : Nat := (s.me.reg base.toNat + sx off).toNat

def execLd (d base : BitVec 5) (off : BitVec 13) (sz : BitVec 2) (sp : Bool) (s : State) : Res :=
  s.scalarAcc (.load d.toNat true) sp (s.ea base off) (2 ^ sz.toNat) .pod false

def execLdU (d base : BitVec 5) (off : BitVec 13) (sz : BitVec 2) (sp : Bool) (s : State) : Res :=
  s.scalarAcc (.load d.toNat false) sp (s.ea base off) (2 ^ sz.toNat) .pod false

def execSt (d base : BitVec 5) (off : BitVec 13) (sz : BitVec 2) (sp : Bool) (s : State) : Res :=
  s.scalarAcc (.store ((s.me.reg d.toNat).toNat % 2 ^ (8 * 2 ^ sz.toNat))) sp (s.ea base off) (2 ^ sz.toNat) .pod true

/-- PREF (R136): dropped, and complete at issue, when its address fails, its page has no translation at hand or its
offset lies outside every window. -/
def execPref (cnt base : BitVec 5) (off : BitVec 13) (sp : Bool) (s : State) : Res :=
  let ea := s.ea base off
  let c := s.me
  let ok := if sp then ea < 0x200000 && (c.tileSp ea).isSome
    else ea < 2 ^ 56 && (tlbHit c.tlb c.region ea).isSome
  if 255 ≤ c.ld then .next (s.stallS .waitc)
  else if ok && c.uc.isNone then s.issueAcc { kind := .pref cnt.toNat, sp := sp, addr := ea, size := 1 }
  else .next (s.issueS 1 id)

/-- An atomic (R137): the check of its address, then the request. -/
def State.atomic (s : State) (k : AccKind) (a : Src) (w : Bool) (sc : Scope) : Res :=
  s.notUc (s.scalarAcc k false (s.sval a).toNat (if w then 4 else 8) sc true)

/-- The operand of an atomic: 32 or 64 bits. -/
def State.amoVal (s : State) (b : Src) (w : Bool) : Nat := (s.sval b).toNat % 2 ^ (if w then 32 else 64)

def execAmoAdd (d : BitVec 5) (a b : Src) (w : Bool) (sc : Scope) (s : State) : Res :=
  s.atomic (.amo d.toNat 0 false (s.amoVal b w)) a w sc
def execAmoMin (d : BitVec 5) (a b : Src) (u w : Bool) (sc : Scope) (s : State) : Res :=
  s.atomic (.amo d.toNat 1 u (s.amoVal b w)) a w sc
def execAmoMax (d : BitVec 5) (a b : Src) (u w : Bool) (sc : Scope) (s : State) : Res :=
  s.atomic (.amo d.toNat 2 u (s.amoVal b w)) a w sc
def execAmoAnd (d : BitVec 5) (a b : Src) (w : Bool) (sc : Scope) (s : State) : Res :=
  s.atomic (.amo d.toNat 3 false (s.amoVal b w)) a w sc
def execAmoOr (d : BitVec 5) (a b : Src) (w : Bool) (sc : Scope) (s : State) : Res :=
  s.atomic (.amo d.toNat 4 false (s.amoVal b w)) a w sc
def execAmoXor (d : BitVec 5) (a b : Src) (w : Bool) (sc : Scope) (s : State) : Res :=
  s.atomic (.amo d.toNat 5 false (s.amoVal b w)) a w sc
def execAmoSwap (d : BitVec 5) (a b : Src) (w : Bool) (sc : Scope) (s : State) : Res :=
  s.atomic (.amo d.toNat 6 false (s.amoVal b w)) a w sc
def execCas (d : BitVec 5) (a b : Src) (w : Bool) (sc : Scope) (s : State) : Res :=
  s.atomic (.cas d.toNat ((s.me.reg d.toNat).toNat % 2 ^ (if w then 32 else 64)) (s.amoVal b w)) a w sc

/-- WQUERY (R226): the check at issue; the home's reply comes later. -/
def execWquery (d : BitVec 5) (a b : Src) (s : State) : Res :=
  let win := (s.sval a).toNat
  match vget s.me.win none win with
  | none => .next (s.sFault .winCfg (addr := s.sval a))
  | some w =>
    if (s.sval b).toNat ≥ w.size / w.tile then .next (s.sFault .winCfg (addr := s.sval a))
    else s.issueAcc { kind := .wquery d.toNat win (s.sval b).toNat }

/-! ## Completion -/

/-- The new value of an atomic (R137). -/
def amoNew (op : Nat) (u : Bool) (size old b : Nat) : Nat :=
  let n := 8 * size
  let lt := if u then decide (old < b) else decide (sextNat n old < sextNat n b)
  match op with
  | 0 => (old + b) % 2 ^ n
  | 1 => if lt then old else b
  | 2 => if lt then b else old
  | 3 => Nat.land old b
  | 4 => Nat.lor old b
  | 5 => Nat.xor old b
  | _ => b

/-- What an access that is served at a home does there: the value read and the bytes to write, if any. -/
def Access.atHome (a : Access) (old : Nat) : Option Nat :=
  match a.kind with
  | .store v => some v
  | .amo _ op u b => some (amoNew op u a.size old b)
  | .cas _ e b => if old = e then some b else none
  | _ => none

/-- A register stays pending while another access or an HU word is still to write it (R241). -/
def Core.stillPending (c : Core) (d : Nat) : Bool :=
  c.inflight.any (fun a => a.kind.dest == some d)
    || (c.hu.queue ++ c.hu.cur.toList).any (fun e => huDest e.word == some d)

/-- The register result of a later completion (R121, R241). -/
def Core.lateWrite (c : Core) (d : Nat) (v : Word) (skip : Bool) : Core :=
  let c := if skip then c else c.setReg d v
  if c.stillPending d then c else c.setPend d false

/-- The value that a load or an atomic returns. -/
def Access.result (a : Access) (v : Nat) : Word :=
  match a.kind with
  | .load _ true => BitVec.ofInt 64 (sextNat (8 * a.size) v)
  | _ => w64 v

/-- Access `k` of core `n` completes with a value: its counter falls and its register is written (R27). -/
def State.finishAcc (s : State) (n k : Nat) (a : Access) (v : Nat) : State :=
  s.updCore n fun c =>
    let c := { c with
      inflight := listDel c.inflight k
      ld := if a.kind.counter = some true then c.ld - 1 else c.ld
      st := if a.kind.counter = some false then c.st - 1 else c.st }
    match a.kind.dest with
    | some d => c.lateWrite d (a.result v) a.hWins
    | none => c

/-- A write-class access fails (R92, R321): the record, and 0 for an atomic. FIRST_VA is VA[55:8] (Table 3-6); of a write
made by scratchpad offset inside a window the spec does not say which address that is: the record takes the offset that
the access names (DESIGN CHOICE, assumption 65). -/
def State.failAcc (s : State) (n k : Nat) (a : Access) (cause : FailCause) : State :=
  let cause := if a.kind.dest.isSome then FailCause.atomicUnknown else cause
  (s.updCore n fun c => c.recordFail cause a.addr).finishAcc n k a 0

/-- A message that no route carries is refused at its source (R342): the record, and 0 for an atomic. -/
def State.refuseAcc (s : State) (n k : Nat) (a : Access) : State :=
  (s.updCore n fun c => c.recordFail .refused a.addr).finishAcc n k a 0

/-- A read is issued again once under a new tag; the retired tag's generation advances (R321). -/
def State.retag (s : State) (n k : Nat) (a : Access) : State :=
  s.updCore n fun c =>
    let c := c.retireTag a s.frameClk (s.frameClk - 16 * s.dev.rsplim.toNat)
    let t := c.freeTag 4096 c.nextTag
    { c with
      inflight := listSet c.inflight k { a with
        tag := t, gen := tabGet 0 c.gens t, at_ := s.frameClk, lim := s.dev.rsplim.toNat, retried := true, err := none
        sent := false, wants := false, applied := false }
      nextTag := (t + 1) % 4096 }

/-- A read that has failed twice (R321): its destination is undefined and its observer faults. A prefetch just ends. -/
def State.readTimeout (s : State) (n k : Nat) (a : Access) : State :=
  match a.kind with
  | .pref _ => s.finishAcc n k a 0
  | _ =>
    let d := s.draw
    (d.2.finishAcc n k a (Config.freeWord d.1).toNat).faultOn n
      { cause := .rdTimeout, obs := 3, addr := w64 a.addr, rpc := (s.core n).pc }

/-- A request leaves its core at the end of a hold: it takes its tag, its generation and its deadline now (R359). -/
def State.leaveHold (s : State) (n k : Nat) (a : Access) : Access × State :=
  let c := s.core n
  let t := c.freeTag 4096 c.nextTag
  let a := { a with tag := t, gen := tabGet 0 c.gens t, at_ := s.frameClk, lim := s.dev.rsplim.toNat, atSrc := false }
  (a, s.updCore n fun c => { c with inflight := listSet c.inflight k a, nextTag := (t + 1) % 4096 })

/-- An access stays at its core. -/
def State.stayHeld (s : State) (n k : Nat) (a : Access) : State :=
  if a.atSrc then s else s.updCore n fun c => { c with inflight := listSet c.inflight k { a with atSrc := true } }

/-- The deadline of a request is spent: its home drops it without applying it (R321). -/
def Access.spent (a : Access) (clk : Nat) : Bool := decide (a.at_ + a.lim / 2 ≤ clk)

/-- An earlier access of the CC to an overlapping location is still to be performed (R82); of two loads that wait for the
data of one tile, both are served with it (Table 12-4, R282). -/
def State.accBlocked (s : State) (n k : Nat) (a : Access) : Bool :=
  let l := s.accLoc n a
  ((s.core n).inflight.take k).any fun b =>
    let m := s.accLoc n b
    !((s.core n).buf.any fun w => w.tag == some b.tag)
      && !(b.wants && b.kind.counter == some true && a.kind.counter == some true) && m.1 == l.1 && decide (m.2 < l.2 + a.size ∧ l.2 < m.2 + b.size)

/-- A GR or GW of a CC access goes to the home (R251). -/
def State.askHome (s : State) (n k : Nat) (a : Access) (kind : MsgKind) (dom pa : Nat) : State :=
  let s := s.updCore n fun c => { c with inflight := listSet c.inflight k { a with sent := true } }
  { s with msgs := s.msgs ++
      [{ kind := kind, src := n, dst := 88, dom := dom, pa := pa, req := n, tag := a.tag, gen := a.gen }] }

/-- A CC access waits for the data of its tile (Table 12-4). -/
def State.waitTile (s : State) (n k : Nat) (a : Access) : State :=
  s.updCore n fun c => { c with inflight := listSet c.inflight k { a with wants := true } }

/-- RS, RX or UP for a tile of core `n`, whose copy awaits the data from now on (R250). -/
def State.askTile (s : State) (n : Nat) (kind : MsgKind) (dom pa : Nat) (st : TileSt) : State :=
  let s := s.updTile n dom pa fun t => { t with st := st }
  { s with msgs := s.msgs ++ [{ kind := kind, src := n, dst := 88, dom := dom, pa := pa, req := n }] }

/-- A failed attempt: a fault is raised and the access is held (R122). -/
def State.holdAcc (s : State) (n k : Nat) (a : Access) (wr : Bool) (e : AccErr) : State :=
  match e with
  | .walk _ _ =>
    (s.updCore n fun c => { c with inflight := listSet c.inflight k { a with held := true } }).accFail n 3 wr e
  | _ => s.accFail n 3 wr e

/-- A DROP of the core for the tile is on its way: a new request for the tile waits until the home has it, so that it
finds what the DROP has written back (R267, R94, notes/assumptions/65.md). -/
def State.dropping (s : State) (n : Nat) (t : TileCopy) : Bool :=
  s.msgs.any fun m => m.kind == .drop && m.src == n && m.dom == t.dom && m.pa == t.pa

/-- The route on which this package asks for a tile that is in no core's copy in the mode that an access needs (R262,
R342). -/
def State.tileRoute (s : State) (n : Nat) (e : DirEnt) (wr : Bool) : Route :=
  if e.st != .i then .here
  else if s.away e && (e.rep == some true || (!wr && e.rep.isSome)) then .here
  else s.routePa n e.pa

/-- A CC access by a declaring core to its tile (R250). `off` is the offset in the tile. -/
def State.tileAcc (s : State) (n k : Nat) (a : Access) (t : TileCopy) (off : Nat) : State :=
  match a.kind with
  | .load .. =>
    if t.st.valid then
      if t.bad then (s.ownerError n t).poisonFail n else s.finishAcc n k a ((s.core n).spad.rdN (t.off + off) a.size)
    else if t.st = .i then if s.dropping n t then s else (s.waitTile n k a).askTile n .rs t.dom t.pa .isd
    else s.waitTile n k a
  | .store v =>
    match t.st with
    | .m | .e => (s.wrOwn n t off (leBytes a.size v)).finishAcc n k a 0
    | .s | .o => (s.waitTile n k a).askTile n .up t.dom t.pa .sma
    | .i => if s.dropping n t then s else (s.waitTile n k a).askTile n .rx t.dom t.pa .imd
    | _ => s.waitTile n k a
  | .pref _ =>
    if t.st = .i then if s.dropping n t then s else (s.askTile n .rs t.dom t.pa .isd).finishAcc n k a 0
    else s.finishAcc n k a 0
  | _ => s.askHome n k a .gw t.dom t.pa

/-- A prefetch outside windows (R136, R256): a line that is not present is filled, with the count; a present one stays
as it is. -/
def State.prefLine (s : State) (dom pa cnt : Nat) : State :=
  if (s.line? dom (pa / 128)).isSome then s
  else (s.fill dom (pa / 128)).updLine dom (pa / 128) fun l => { l with rc := if cnt = 0 then none else some cnt }

/-- An access that no route carries (R342): a write is refused, and a read fails at once; a second time it is
RD_TIMEOUT (R321). -/
def State.noRoute (s : State) (n k : Nat) (a : Access) : State :=
  if a.kind.counter = some false then s.refuseAcc n k a
  else if a.retried then s.readTimeout n k a
  else s.retag n k a

/-- An access served outside every window, by the copy of its domain (R77, R237). -/
def State.plainAcc (s : State) (n k : Nat) (a : Access) (pa : Nat) (page : Scope) : State :=
  let die := dieOf n
  let dom := domOf (s.locReach pa page) die
  let wr := a.kind.counter == some false
  let rt := s.routePa n pa
  if rt = .hold then s.stayHeld n k a
  else if rt = .none then s.noRoute n k a
  else
    match a.kind with
    | .pref cnt =>
      if s.lineBlocks pa a.size false then s.askLine pa a.size false
      else (if s.isPoisoned pa a.size then s else s.prefLine dom pa cnt).finishAcc n k a 0
    | _ =>
      if a.spent s.frameClk then s
      else if s.lineBlocks pa a.size wr then s.askLine pa a.size wr
      else if s.isPoisoned pa a.size then
        if wr then s.failAcc n k a .poison else s.poisonFail n
      else
        match a.kind with
        | .load .. =>
          let s := s.expose n die dom pa a.size false
          if !s.exposed n die dom pa a.size false then s
          else
            let v := leNat ((s.core n).seen dom pa (s.phRead dom pa a.size))
            (s.touch n dom pa a.size false).finishAcc n k a v
        | .store v =>
          if (s.core n).hold then
            (s.updCore n fun c => { c with inflight := listSet c.inflight k { a with sent := true } }).stopAtCore
              n 3 dom pa (leBytes a.size v) (some a.tag)
          else
            let s := s.expose n die dom pa a.size true
            if !s.exposed n die dom pa a.size true then s
            else (((s.phWrite dom pa (leBytes a.size v)).touch n dom pa a.size true).markStale pa a.size).finishAcc n k a 0
        | _ =>
          let s := s.expose n die dom pa a.size true
          if !s.exposed n die dom pa a.size true then s
          else
            let old := s.phNat dom pa a.size
            let s := match a.atHome old with
              | some v => (s.homePut n dom pa (leBytes a.size v)).markStale pa a.size
              | none => if (s.line? dom (pa / 128)).isSome then s.touch n dom pa a.size true else s
            s.finishAcc n k a old

/-- An access of a declaring core, or a GR or GW, to a window tile. -/
def State.windowAcc (s : State) (n k : Nat) (a : Access) (e : DirEnt) (pa : Nat) : State :=
  let wr := a.kind.counter == some false
  let rt := s.tileRoute n e wr
  if s.isPoisoned pa a.size (dieOf n) && !a.kind.isPref then
    if wr then s.failAcc n k a .poison else s.poisonFail n
  else if rt = .hold then s.stayHeld n k a
  else if rt = .none then s.noRoute n k a
  else
    match s.copyOf n e with
    | some t => s.tileAcc n k a t (pa - e.pa)
    | none =>
      match a.kind with
      | .pref _ => s.finishAcc n k a 0
      | _ => s.askHome n k a (if wr then .gw else .gr) e.dom e.pa

/-- Attempt access `k` of core `n`, which has left its core. -/
def State.tryNow (s : State) (n k : Nat) (a : Access) : State :=
  let wr := a.kind.counter == some false
  if (s.core n).uc.isSome then
    match a.kind with
    | .store v =>
      match s.wrA n 3 a.sp a.addr (leBytes a.size v) with
      | .ok _ s => s.finishAcc n k a 0
      | .wait s => s
      | .err e => s.accFail n 3 true e
    | .load .. =>
      match s.rdA n 3 a.sp a.addr a.size with
      | .ok b s => s.finishAcc n k a (leNat b)
      | .wait s => s
      | .err e => s.accFail n 3 false e
    | _ => s.finishAcc n k a 0
  else if a.sp then
    match (s.core n).tileSp a.addr with
    | some t =>
      if wr && s.tileRo n t then s.holdAcc n k a true (.walk ⟨.permission, 0, 0⟩ a.addr)
      else
        match s.entAt t.dom t.pa with
        | some e => s.windowAcc n k a e (t.pa + (a.addr - t.off))
        | none => s.tileAcc n k a t (a.addr - t.off)
    | none =>
      match a.kind with
      | .store v =>
        (s.updCore n fun c => { c with spad := c.spad.wrBytes a.addr (leBytes a.size v) }).finishAcc n k a 0
      | _ => s.finishAcc n k a ((s.core n).spad.rdN a.addr a.size)
  else
    match s.tr n 3 a.addr wr with
    | .err e =>
      match a.kind with
      | .pref _ => s.finishAcc n k a 0
      | _ => s.holdAcc n k a wr e
    | .wait s => s
    | .ok p s =>
      match s.entFor (dieOf n) p.1 with
      | none => s.plainAcc n k a p.1 p.2
      | some e => s.windowAcc n k a e p.1

/-- Attempt access `k` of core `n`: unless it is held, at its home, or reported as failed; and not before an earlier one to
its bytes (R82). -/
def State.tryAcc (s : State) (n k : Nat) (a : Access) : State :=
  if a.held || a.sent || a.err.isSome then s
  else if s.accBlocked n k a || (a.atSrc && s.accHeld n a) then s.stayHeld n k a
  else if a.atSrc then
    let x := s.leaveHold n k a
    x.2.tryNow n k x.1
  else s.tryNow n k a

/-- LOAD_COMPLETION (R27, R121). -/
def execLoadCompletion (n k : Nat) (s : State) : Res :=
  match (s.core n).inflight[k]? with
  | some a => if a.kind.counter = some true then .next (s.tryAcc n k a) else .next s
  | none => .next s

/-- WRITE_PERFORMED (R27): a store or an atomic of the CC; a store that has stopped at a narrower scope is performed at
its reach, and the earlier writes of the core with it. -/
def execWritePerformed (n k : Nat) (s : State) : Res :=
  match (s.core n).inflight[k]? with
  | some a =>
    match listFind (fun (w : BufW) => w.tag == some a.tag) (s.core n).buf 0 with
    | some j => .next (performFirst n (j + 1) s)
    | none => if a.kind.counter = some false then .next (s.tryAcc n k a) else .next s
  | none => .next s

/-- STATE of Table 10-6. -/
def TileSt.code : TileSt → Nat
  | .i => 0
  | .s => 1
  | .e => 2
  | .o => 3
  | .m => 4
  | _ => 5

/-- The snapshot of Table 10-6. That REMOTE reads 1 for an entry with COARSE = 1, whose remote holders stand in the snoop
filter's group vector, is the model's choice (DESIGN CHOICE, notes/assumptions/65.md). -/
def State.tileQuery (s : State) (t : TileCopy) : Nat :=
  match s.entAt t.dom t.pa with
  | none => 0
  | some e =>
    let local_ := t.st == .s || t.st == .e || t.st == .m || t.st == .o
    (if e.busy = 0 then e.st.code else 5) + 8 * local_.toNat + 16 * (e.owner.getD 0) + 2048 * e.owner.isSome.toNat
      + 4096 * e.sharers.length + 2 ^ 19 * (!e.rem.isEmpty || e.coarse).toNat

/-- WQUERY_REPLY (R226): the home's snapshot arrives. -/
def execWqueryReply (n k : Nat) (s : State) : Res :=
  match (s.core n).inflight[k]? with
  | some a =>
    match a.kind with
    | .wquery _ w b =>
      match vget (s.core n).win none w with
      | none => .next (s.finishAcc n k a 0)
      | some x =>
        match (s.core n).tileSp (x.spad + b * x.tile) with
        | none => .next (s.finishAcc n k a 0)
        | some t => .next (s.finishAcc n k a (s.tileQuery t))
    | _ => .next s
  | none => .next s

end Sys2Proof.Machine
end

