-- ==== Sys2Proof/Machine/Directory.lean ====
section
/-! DEFINITION. The tile directory message by message (Tables 12-3, 12-4), remote holders (Table 12-5), poison and
migration of lines (R254, R257-R265, R370). -/

namespace Sys2Proof.Machine

/-- The three classes of R258: requests, forwards, responses. -/
def MsgKind.cls : MsgKind → Nat
  | .rs | .rx | .up | .gr | .gw => 0
  | .fwd | .fwdInv | .inv | .recall | .bi => 1
  | _ => 2

/-- An end of a message: a core, or the home slice of the tile (R253, R258). -/
def Msg.ends (m : Msg) : Nat × Nat :=
  let h := fun k => if k < 88 then k else 100 + homeSlice m.dom m.pa
  (h m.src, h m.dst)

/-- Message `k` has the kind and is the next of its class between its ends (R258). -/
def State.arrives (s : State) (k : Nat) (kind : MsgKind) : Option Msg :=
  match s.msgs[k]? with
  | none => none
  | some m =>
    if m.kind != kind || (s.msgs.take k).any (fun x => x.ends == m.ends && x.kind.cls == m.kind.cls) then none
    else some m

def State.takeMsg (s : State) (k : Nat) : State := { s with msgs := listDel s.msgs k }

def State.post (s : State) (ms : List Msg) : State := { s with msgs := s.msgs ++ ms }

/-- A message of the home about an entry. -/
def DirEnt.msg (e : DirEnt) (kind : MsgKind) (dst : Nat) (req : Nat := 88) (grant : TileSt := .i) (tag : Nat := 0)
    (bytes : List Byte := []) (gen : Nat := 0) : Msg :=
  { kind := kind, src := 88, dst := dst, dom := e.dom, pa := e.pa, req := req, bytes := bytes, grant := grant
    tag := tag, gen := gen, poison := e.poisoned }

/-! ## At the home -/

/-- The CC access of a core that a tag and its generation name, that has not been reported as failed, and whose deadline
is not spent (R93, R321). -/
def Core.access (c : Core) (tag gen clk : Nat) : Option Access :=
  c.inflight.find? fun a => a.tag == tag && a.gen == gen && a.err.isNone && !a.spent clk

/-- The access that a GR or GW serves, by its tag and generation; one that has been reported as failed, or whose deadline
is spent, is none (R93, R321). -/
def Msg.access (m : Msg) (s : State) : Option Access := (s.core m.src).access m.tag m.gen s.frameClk

/-- A home has applied an access of the CC. -/
def Core.setApplied (c : Core) (tag gen : Nat) : Core :=
  { c with inflight := c.inflight.map fun a => if a.tag = tag ∧ a.gen = gen then { a with applied := true } else a }

/-- A GW once every copy is gone: the access is applied at the home, and the reply sent (R90, R251). -/
def State.applyGw (s : State) (e : DirEnt) (m : Msg) : State :=
  if m.src ≥ 88 then
    if e.poisoned then s else (s.phWrite e.home (e.pa + m.tag) m.bytes).markStale (e.pa + m.tag) m.bytes.length
  else
    match m.access s with
    | none => s
    | some a =>
      if e.poisoned then s.post [e.msg .data m.src m.src .i m.tag [] m.gen]
      else
        let pa := (s.accLoc m.src a).2
        let old := s.phNat e.home pa a.size
        let s := match a.atHome old with
          | some v => (s.phWrite e.home pa (leBytes a.size v)).markStale pa a.size
          | none => s
        (s.updCore m.src fun c => c.setApplied m.tag m.gen).post [e.msg .data m.src m.src .i m.tag (leBytes a.size old) m.gen]

/-- A GR's reply: the bytes of the access (R251). -/
def State.grReply (s : State) (e : DirEnt) (m : Msg) (src : Nat) (tile : List Byte) : State :=
  match m.access s with
  | none => s
  | some a =>
    let off := (s.accLoc m.src a).2 - e.pa
    s.post [{ e.msg .data m.src m.src .i m.tag ((tile.drop off).take a.size) m.gen with src := src }]

/-- Ownership of a request's core at the home. -/
def DirEnt.holds (e : DirEnt) (c : Nat) : Bool := e.owner == some c || e.sharers.contains c

/-- `c` := M: the grant of an RX or UP, with data unless it is an UP of a core that holds the tile (Table 12-3). -/
def State.grantM (s : State) (e : DirEnt) (c : Nat) (up : Bool) : State :=
  let bytes := if up && e.holds c then [] else s.phRead e.home e.pa e.tile
  (s.post [e.msg .data c c .m 0 bytes]).setEnt
    { e with st := .m, owner := some c, sharers := [], busy := 0, acks := 0, cur := none }

/-- The dirty bytes of a replica's lines in a range: they leave with the acknowledgement of the BI that takes it (R264). -/
def State.takeDirty (s : State) (pa n : Nat) : State :=
  let ls := s.lines.filter fun l => l.dom == 3 && l.dirty != 0 && decide (128 * l.line < pa + n ∧ pa < 128 * l.line + 128)
  { s with fab := { s.fab with biData := s.fab.biData ++ ls.map fun l =>
      (128 * l.line, l.data, (List.range 128).map fun i => l.dirty.getLsbD i) } }

/-- A BI has recalled this package's replica: its dirty bytes leave with the acknowledgement (R264). -/
def State.dropReplica (s : State) (e : DirEnt) : State :=
  ((s.takeDirty e.pa e.tile).dropCopy 3 e.pa e.tile).setEnt { e with rep := none }

/-- The reads of Table 12-3 at an idle entry. -/
def State.serveRead (s : State) (e : DirEnt) (m : Msg) : State :=
  let c := m.src
  match e.owner with
  | some o =>
    (s.post [if m.kind = .rs then e.msg .fwd o c .s else e.msg .fwd o c .i m.tag [] m.gen]).setEnt
      { e with busy := 1, cur := some m }
  | none =>
    let bytes := s.phRead e.home e.pa e.tile
    if m.kind ≠ .rs then (s.grReply e m 88 bytes).setEnt e
    else if e.st = .i ∧ e.mayE then (s.post [e.msg .data c c .e 0 bytes]).setEnt { e with st := .e, owner := some c }
    else (s.post [e.msg .data c c .s 0 bytes]).setEnt { e with st := .s, sharers := c :: e.sharers }

/-- RX and UP of Table 12-3: INV to every other sharer, FWD-INV to the owner and BI to remote holders at once, and the
grant when all have answered. -/
def State.serveOwn (s : State) (e : DirEnt) (m : Msg) (hs : List (Nat × Bool)) : State :=
  let c := m.src
  let invs := (e.sharers.filter fun k => k != c).map fun k => e.msg .inv k c
  let owner := e.owner.toList.filter fun o => o != c
  let more := !(invs.isEmpty && hs.isEmpty)
  let own := owner.map fun o =>
    e.msg .fwdInv o c (if e.sharers.contains c then .s else .m) (if more then 1 else 0)
  if !more && own.isEmpty then s.grantM e c (m.kind == .up)
  else
    ((s.sendBis e.pa hs).post (invs ++ own)).setEnt
      { e with
        busy := if more || e.st != .e then 2 else 1, acks := invs.length + own.length + hs.length, cur := some m
        two := more && !own.isEmpty, passed := false }

/-- GW of Table 12-3, and a BI at a replica: every copy goes, the owner's bytes to the home. -/
def State.serveGw (s : State) (e : DirEnt) (m : Msg) (hs : List (Nat × Bool)) : State :=
  let invs := e.sharers.map fun k => e.msg .inv k m.src
  let rec_ := e.owner.toList.map fun o => e.msg .recall o m.src
  if invs.isEmpty && rec_.isEmpty && hs.isEmpty then
    if m.kind = .bi then s.dropReplica e else (s.setEnt e).applyGw e m
  else
    ((s.sendBis e.pa hs).post (invs ++ rec_)).setEnt
      { e with
        busy := if rec_.isEmpty then 2 else 3, acks := invs.length + rec_.length + hs.length, cur := some m
        passed := false }

/-- Serve a request at an idle entry (Tables 12-3, 12-5): a holder in X is back-invalidated first. -/
def State.homeServe (s : State) (e : DirEnt) (m : Msg) : State :=
  let wr := m.kind == .rx || m.kind == .up || m.kind == .gw
  let hs := s.tileHolders e
  if hs.any fun h => h.2 then
    (s.sendBis e.pa hs).setEnt { e with busy := 2, acks := hs.length, cur := some m, two := false, passed := false }
  else
    let e := if m.kind = .bi then e else s.replicate e wr
    match m.kind with
    | .rs | .gr => s.serveRead e m
    | .rx | .up => s.serveOwn e m hs
    | .gw => s.serveGw e m hs
    | .bi => s.serveGw e m []
    | _ => s

/-- The snoop filter of a home slice has an entry for a record, or room for one (R263). -/
def State.snoopRoom (s : State) (pa : Nat) : Bool :=
  decide (s.snoop.length < 8192) || (s.snoopAt pa).isSome
    || decide ((s.snoop.filter fun x => homeSlice 3 x.pa == homeSlice 3 pa).length < 8192)

/-- The oldest entry of a full snoop filter is to be used anew: its holders are back-invalidated first (R263). -/
def State.snoopReuse (s : State) (pa : Nat) : State :=
  match s.snoop.find? fun x => homeSlice 3 x.pa == homeSlice 3 pa with
  | some x => s.sendBis x.pa (s.entHolders x)
  | none => s

/-- The lines of a tile whose remote holders find no room in the snoop filter when its entry is freed. -/
def State.snoopFull (s : State) (e : DirEnt) : List Nat :=
  if e.rem.isEmpty && !e.coarse then []
  else ((List.range (e.tile / 128)).map fun k => e.pa + 128 * k).filter fun pa => !s.snoopRoom pa

/-- An entry is freed when no core declares it and nothing is under way; what remote packages hold stays in the snoop
filter, once it has room, and poison goes (R257, R263, R268). -/
def State.freeEnt (s : State) (e : DirEnt) : State :=
  if !(e.decl.isEmpty && e.busy == 0 && e.queue.isEmpty) then s
  else if !(s.snoopFull e).isEmpty then (s.snoopFull e).foldl (fun s pa => s.snoopReuse pa) s
  else
    let rest := s.snoop.filter fun x => !(e.coarse && x.pa == e.pa)
    let groups := if e.coarse then (s.snoopAt e.pa).elim [] (·.groups) else []
    let lines := if e.rem.isEmpty && !e.coarse then []
      else (List.range (e.tile / 128)).map fun k => ({ pa := e.pa + 128 * k, holders := e.rem, groups := groups } : SnoopEnt)
    { s with
      dir := s.dir.filter fun x => !(x.dom == e.dom && x.pa == e.pa)
      snoop := rest ++ lines
      poison := s.poison.filter fun p => !(e.poisoned && e.dom == 2 && p.1 == e.pa) }

/-- Entries that no core declares any more and that waited for room in the snoop filter are freed. -/
def State.freeLeft (s : State) : State := (s.dir.filter fun e => e.decl.isEmpty).foldl (fun s e => s.freeEnt e) s

/-- Serve queued requests in arrival order while the entry is idle (R258). -/
def serveQueue (dom pa : Nat) : Nat → State → State
  | 0, s => s
  | f + 1, s =>
    match s.entAt dom pa with
    | none => s
    | some e =>
      if e.busy ≠ 0 then s
      else
        match e.queue with
        | [] => s.freeEnt e
        | m :: r => serveQueue dom pa f ((s.setEnt { e with queue := r }).homeServe { e with queue := r } m)

/-- The queue of an entry goes on. -/
def State.goOn (s : State) (e : DirEnt) : State := serveQueue e.dom e.pa (e.queue.length + 1) s

/-- The entry becomes idle: the queue goes on. -/
def State.idle (s : State) (e : DirEnt) : State :=
  (s.setEnt { e with busy := 0, acks := 0, cur := none, two := false }).goOn e

/-- The request in hand is served afresh. -/
def State.again (s : State) (e : DirEnt) (m : Msg) : State :=
  let e := { e with busy := 0, acks := 0, cur := none, two := false }
  ((s.setEnt e).homeServe e m).goOn e

/-- A request reaches its home (R258): served, or queued behind a busy entry. A GR or GW of a tile that is no window
any more is made as an ordinary access. -/
def State.requestAt (s : State) (k : Nat) (kind : MsgKind) : Res :=
  match s.arrives k kind with
  | none => .next s
  | some m =>
    let s := s.takeMsg k
    match s.entAt m.dom m.pa with
    | none =>
      if m.src ≥ 88 then .next (s.phWrite (if m.dom = 2 then 2 else m.dom) (m.pa + m.tag) m.bytes)
      else
        .next (s.updCore m.src fun c =>
          { c with inflight := c.inflight.map fun a =>
              if a.tag = m.tag ∧ a.gen = m.gen then { a with sent := false } else a })
    | some e =>
      if e.busy ≠ 0 ∨ !e.queue.isEmpty then .next (s.setEnt { e with queue := e.queue ++ [m] })
      else .next (s.homeServe e m)

/-- Every reply of a busy entry has arrived: what was asked for happens. -/
def State.replied (s : State) (e : DirEnt) (clean : Bool) (from_ : Nat) : State :=
  match e.cur with
  | none => s.idle e
  | some m =>
    let c := m.src
    match m.kind with
    | .rs =>
      if clean then
        s.idle { e with st := .s, owner := none, sharers := c :: from_ :: e.sharers.filter fun k => k != from_ }
      else s.idle { e with st := .o, sharers := c :: e.sharers }
    | .rx | .up =>
      if e.passed then
        let s := if e.two then s.post [e.msg .data c c .m 1] else s
        s.idle { e with st := .m, owner := some c, sharers := [] }
      else (s.grantM e c (m.kind == .up)).goOn e
    | .gw =>
      let e := { e with st := .i, owner := none, sharers := [] }
      (s.applyGw e m).idle e
    | .bi =>
      let e := { e with st := .i, owner := none, sharers := [] }
      (s.dropReplica e).idle { e with rep := none }
    | _ => s.idle e

/-- What an answer says of the core that gave it: it holds the tile no more, and, to a FWD-INV (`grant` M), it has
handed it on. -/
def DirEnt.gave (e : DirEnt) (grant : TileSt) (from_ : Nat) : DirEnt :=
  match e.cur with
  | none => e
  | some m =>
    if m.kind = .rs ∨ m.kind = .gr ∨ from_ ≥ 88 then e
    else
      { e with
        sharers := e.sharers.filter fun k => k != from_
        owner := if e.owner = some from_ ∧ from_ ≠ m.src then none else e.owner
        passed := e.passed || grant == .m }

/-- One answer to a busy entry: a core's, or a remote holder's. -/
def State.answered (s : State) (e : DirEnt) (grant : TileSt) (from_ : Nat) : State :=
  if e.busy = 0 then s
  else
    let e := e.gave grant from_
    if e.acks ≤ 1 then
      match e.cur with
      | some m =>
        -- a holder in X has gone: the request is served as Table 12-3 gives
        if from_ ≥ 88 ∧ (m.kind = .rs ∨ m.kind = .gr) then s.again e m
        else s.replied { e with acks := 0 } (grant == .s) from_
      | none => s.idle e
    else s.setEnt { e with acks := e.acks - 1 }

/-- ACK (R259): the answer of a core to INV, FWD, FWD-INV or RECALL; a recalled tile's bytes go to the home copy. -/
def execAck (k : Nat) (s : State) : Res :=
  match s.arrives k .ack with
  | none => .next s
  | some m =>
    let s := s.takeMsg k
    match s.entAt m.dom m.pa with
    | none => .next s
    | some e => .next ((s.recallTo e.home e.pa m.bytes m.mask).answered e m.grant m.src)

/-- GONE (R260): the DROP came first. A read is served again from what the entry holds; of the answers that an RX, UP,
GW or BI waits for it is one. -/
def execGone (k : Nat) (s : State) : Res :=
  match s.arrives k .gone with
  | none => .next s
  | some m =>
    let s := s.takeMsg k
    match s.entAt m.dom m.pa with
    | none => .next s
    | some e =>
      match e.cur with
      | none => .next s
      | some r => .next (if r.kind = .rs ∨ r.kind = .gr then s.again e r else s.answered e .i m.src)

/-- EM (R259). -/
def execEm (k : Nat) (s : State) : Res :=
  match s.arrives k .em with
  | none => .next s
  | some m =>
    let s := s.takeMsg k
    match s.entAt m.dom m.pa with
    | some e => .next (if e.owner = some m.src ∧ e.st = .e then s.setEnt { e with st := .m } else s)
    | none => .next s

/-- What a DROP leaves of an entry. -/
def DirEnt.drop (e : DirEnt) (c : Nat) : DirEnt :=
  if e.owner = some c then
    { e with st := if e.sharers.isEmpty then .i else .s, owner := none }
  else if e.sharers.contains c then
    let sh := e.sharers.filter fun k => k != c
    { e with
      sharers := sh
      st := if sh.isEmpty then (if e.st = .o then .m else if e.owner.isNone then .i else e.st) else e.st }
  else e

/-- DROP (R259): the write-back to memory, then the core leaves; with `tag` 1 its declaration ends (R225, R257). -/
def execDrop (k : Nat) (s : State) : Res :=
  match s.arrives k .drop with
  | none => .next s
  | some m =>
    let s := s.takeMsg k
    match s.entAt m.dom m.pa with
    | none => .next s
    | some e =>
      let s := if e.holds m.src then s.writeBackTo e.home e.pa m.bytes m.mask else s
      let e := e.drop m.src
      let e := if m.tag = 1 then { e with decl := e.decl.erase m.src, ro := e.ro.erase m.src } else e
      .next ((s.setEnt e).freeEnt e)

/-- FLUSH (R259): the write-back to memory; the copy stays held. -/
def execFlush (k : Nat) (s : State) : Res :=
  match s.arrives k .flush with
  | none => .next s
  | some m =>
    let s := s.takeMsg k
    match s.entAt m.dom m.pa with
    | none => .next s
    | some e =>
      if e.owner = some m.src then
        let s := s.writeBackTo e.home e.pa m.bytes m.mask
        if e.st = .o then .next (s.setEnt { e with st := .s, owner := none, sharers := m.src :: e.sharers })
        else .next (s.setEnt { e with st := .e })
      else .next s

def execRs (k : Nat) (s : State) : Res := s.requestAt k .rs
def execRx (k : Nat) (s : State) : Res := s.requestAt k .rx
def execUp (k : Nat) (s : State) : Res := s.requestAt k .up
def execGr (k : Nat) (s : State) : Res := s.requestAt k .gr
def execGw (k : Nat) (s : State) : Res := s.requestAt k .gw

/-! ## At a core -/

/-- An answer of a core to the home. -/
def Msg.answer (m : Msg) (kind : MsgKind) (bytes : List Byte := []) (mask : List Nat := []) (grant : TileSt := .i) :
    Msg :=
  { kind := kind, src := m.dst, dst := 88, dom := m.dom, pa := m.pa, req := m.req, bytes := bytes, mask := mask
    grant := grant }

/-- Data that a core sends for a forward: `tag` and `gen` those of the access it serves; `bad`: the error that struck the
copy goes with it (R268). -/
def Msg.forward (m : Msg) (bytes : List Byte) (mask : List Nat) (grant : TileSt) (tag : Nat := 0) (gen : Nat := 0)
    (bad : Bool := false) : Msg :=
  { kind := .data, src := m.dst, dst := m.req, dom := m.dom, pa := m.pa, req := m.req, bytes := bytes, mask := mask
    grant := grant, tag := tag, gen := gen, poison := m.poison || bad }

/-- A forward meets a copy that is not awaiting data (Table 12-4). The grant of an owner's data is IM_D where the home's
own grant is still to come. -/
def State.serveFwd (s : State) (t : TileCopy) (m : Msg) : State :=
  let c := m.dst
  let bytes := (s.core c).tileBytes t
  let found := s.readCopy c t
  let set := fun (s : State) (st : TileSt) (mask : List Nat) =>
    s.updTile c t.dom t.pa fun t => { t with st := st, mask := mask, bad := t.bad && st.valid }
  let away : TileSt := if t.st = .sma then .imd else .i
  match m.kind with
  | .inv =>
    match t.st with
    | .isd => (s.updTile c t.dom t.pa fun t => { t with inval := true }).post [m.answer .ack]
    | .imd => s.post [m.answer .ack]
    | _ => (set s away []).post [m.answer .ack]
  | .fwd =>
    if !t.st.valid then s.post [m.answer .gone]
    else if m.grant = .s then
      let dirty := !t.mask.isEmpty
      let st : TileSt := if t.st = .sma then .sma else if dirty then .o else .s
      (set found st t.mask).post [m.forward bytes [] .s (bad := t.bad), m.answer .ack [] [] (if dirty then .o else .s)]
    else
      match (s.core m.req).access m.tag m.gen s.frameClk with
      | none => s.post [m.answer .ack]
      | some a =>
        let off := (s.accLoc m.req a).2 - m.pa
        found.post [m.forward ((bytes.drop off).take a.size) [] .i m.tag m.gen t.bad, m.answer .ack]
  | .fwdInv =>
    if !t.st.valid then s.post [m.answer .gone]
    else
      (set found away []).post
        [m.forward (if m.grant = .s then [] else bytes) t.mask (if m.tag = 1 then .imd else .m) (bad := t.bad),
         m.answer .ack [] [] .m]
  | .recall =>
    if !t.st.valid then s.post [m.answer .gone]
    else (set found away []).post [m.answer .ack bytes t.mask]
  | _ => s

/-- A forward reaches a core: held while the core awaits the data (Table 12-4), else served. -/
def State.forwardAt (s : State) (k : Nat) (kind : MsgKind) : Res :=
  match s.arrives k kind with
  | none => .next s
  | some m =>
    if (s.core m.dst).inStep then .next s
    else
    let s := s.takeMsg k
    match (s.core m.dst).tiles.find? fun t => t.dom == m.dom && t.pa == m.pa with
    | none => .next (s.post [m.answer (if kind = .inv then .ack else .gone)])
    | some t =>
      if kind != .inv && (t.st == .isd || t.st == .imd) then
        .next (s.updTile m.dst m.dom m.pa fun t => { t with held := t.held ++ [m] })
      else .next (s.serveFwd t m)

def execFwd (k : Nat) (s : State) : Res := s.forwardAt k .fwd
def execFwdInv (k : Nat) (s : State) : Res := s.forwardAt k .fwdInv
def execInv (k : Nat) (s : State) : Res := s.forwardAt k .inv
def execRecall (k : Nat) (s : State) : Res := s.forwardAt k .recall

/-- Whether an access waits for the data of a tile (Table 12-4). -/
def State.accOn (s : State) (n : Nat) (a : Access) (pa size : Nat) : Bool :=
  let l := s.accLoc n a
  a.wants && l.1 == 1 && decide (pa ≤ l.2 ∧ l.2 < pa + size)

/-- An access that waited for its tile's data is made, or meets the poison that came with it (R268). -/
def State.serveWaiter (s : State) (n : Nat) (poison : Bool) (tag : Nat) : State :=
  match listFind (fun (a : Access) => a.tag == tag) (s.core n).inflight 0 with
  | none => s
  | some k =>
    match (s.core n).inflight[k]? with
    | none => s
    | some a =>
      if poison then
        if a.kind.counter = some false then s.failAcc n k a .poison else s.poisonFail n
      else
        let a := { a with wants := false }
        (s.updCore n fun c => { c with inflight := listSet c.inflight k a }).tryAcc n k a

/-- The accesses of core `n` that wait for a tile, by tag, the oldest first; reads only, or all. -/
def State.waiters (s : State) (n pa size : Nat) (reads : Bool) : List Nat :=
  ((s.core n).inflight.filter fun a => s.accOn n a pa size && (!reads || a.kind.counter == some true)).map (·.tag)

/-- A reply that matches no request is dropped and counted (R321). -/
def State.lateReply (s : State) : State :=
  let v := s.dev.lateDrop
  { s with dev := { s.dev with lateDrop := if v = BitVec.allOnes 32 then v else v + 1 } }

/-- The reply of a GR or GW (R251): its access completes. -/
def State.replyAt (s : State) (m : Msg) : State :=
  let n := m.dst
  match listFind (fun (a : Access) => a.tag == m.tag && a.gen == m.gen && a.err.isNone) (s.core n).inflight 0 with
  | none => s.lateReply
  | some i =>
    match (s.core n).inflight[i]? with
    | none => s
    | some a =>
      if m.poison then (if a.kind.counter = some false then s.failAcc n i a .poison else s.poisonFail n)
      else s.finishAcc n i a (leNat m.bytes)

/-- A core has left while a request was out: the tile is dropped once that is settled (R370). -/
def State.leaveNow (s : State) (n dom pa : Nat) : State :=
  match (s.core n).tiles.find? fun t => t.dom == dom && t.pa == pa with
  | some t => if t.leave && t.settled then s.sendDrop n true t else s
  | none => s

/-- The engines of core `n` whose read waits for bytes of a tile are served with them, although an invalidation has come
first (R282). -/
def State.handOver (s : State) (n : Nat) (t : TileCopy) : State :=
  let units : List Unit8 := [.ve, .hu] ++ (List.range 8).map fun k => .ch (BitVec.ofNat 3 k)
  units.foldl (fun s u =>
    match ((s.core n).eng u).ask with
    | some q =>
      let pa := if q.sp then some (t.pa + q.addr - t.off) else
        match s.xlate n (unitObs u) q.addr false with
        | .ok x => some x.1
        | .error _ => none
      match pa with
      | some p =>
        if q.wr || q.data.isSome || q.dead || !(decide (t.pa ≤ p ∧ p + q.len ≤ t.pa + t.size)) then s
        else
          s.updEng n u fun e =>
            { e with ask := some { q with data := some ((s.core n).spad.rdBytes (t.off + (p - t.pa)) q.len) } }
      | none => s
    | none => s) s

/-- A tile's copy has its data and its state: the accesses that waited are served, an invalidation that came first
drops the copy, and held forwards are served (Table 12-4). -/
def State.granted (s : State) (n dom pa : Nat) (t : TileCopy) (poison : Bool) : State :=
  let serve := fun (s : State) (reads : Bool) =>
    (s.waiters n pa t.size reads).foldl (fun s tag => s.serveWaiter n poison tag) s
  let s := if t.inval then
      (serve (((serve s true).handOver n t).updTile n dom pa fun t => { t with st := .i, mask := [], inval := false }) false)
    else serve s false
  let s := s.updTile n dom pa fun t => { t with held := [] }
  let s := t.held.foldl (fun s h =>
    match (s.core n).tiles.find? fun t => t.dom == dom && t.pa == pa with
    | some t => s.serveFwd t h
    | none => s) s
  s.leaveNow n dom pa

/-- DATA (R260): the reply of an access served at the home, or a tile. Where the owner's data and the home's grant come
apart, the copy is M when both have. -/
def execData (k : Nat) (s : State) : Res :=
  match s.arrives k .data with
  | none => .next s
  | some m =>
    let s := s.takeMsg k
    let n := m.dst
    if m.grant = .i then .next (s.replyAt m)
    else
      match (s.core n).tiles.find? fun t => t.dom == m.dom && t.pa == m.pa with
      | none => .next s
      | some t =>
        let half := if m.grant = .imd then 1 else if m.tag = 1 then 2 else 0
        let whole : Bool := half == 0 || t.part + half == 3
        let s := s.updCore n fun c =>
          { c with spad := if m.bytes.isEmpty then c.spad else c.spad.wrBytes t.off m.bytes }.updTile m.dom m.pa fun t =>
            { t with
              st := if whole then (if half = 0 then m.grant else .m) else t.st
              mask := (if m.bytes.isEmpty then t.mask else []) ++ m.mask
              part := if whole then 0 else half }
        .next (if whole then s.granted n m.dom m.pa t m.poison else s)

/-! ## Remote holders (R262-R265) -/

/-- The home package's entry of a tile of reach POD that covers an address. -/
def State.podEnt (s : State) (pa : Nat) : Option DirEnt := s.dir.find? fun e => e.covers pa && e.reach == .pod

/-- What an address's record of remote holders stands under: the tile, or the line. -/
def State.recOf (s : State) (pa : Nat) : Nat :=
  match s.podEnt pa with
  | some e => e.pa
  | none => pa / 128 * 128

/-- The recorded holders of a tile or line. -/
def State.holdersOf (s : State) (pa : Nat) : List (Nat × Bool) :=
  match s.podEnt pa with
  | some e => s.tileHolders e
  | none => (s.snoopAt (pa / 128 * 128)).elim [] s.entHolders

/-- A device leaves a list of holders; the group of a vector leaves when the last of its devices has answered. -/
def SnoopEnt.leave (x : SnoopEnt) (dev : Nat) (last : Bool) : SnoopEnt :=
  { x with
    holders := x.holders.filter fun h => h.1 != dev
    groups := if last then x.groups.filter fun g => g != dev / 32 else x.groups }

/-- A remote holder of a tile or of a line is gone: its answer to a back-invalidation, or a notice (Table 12-5). -/
def State.dropHolder (s : State) (dev pa : Nat) : State :=
  let at_ := s.recOf pa
  let asked := s.bis.any fun b => b.pa == at_ && b.dev == dev
  let s := { s with bis := s.bis.filter fun b => !(b.pa == at_ && b.dev == dev) }
  let last := asked && !(s.bis.any fun b => b.pa == at_ && b.dev / 32 == dev / 32)
  let s := { s with snoop := (s.snoop.map fun (x : SnoopEnt) => if x.pa = at_ then x.leave dev last else x).filter fun x =>
    !(x.pa == at_ && x.holders.isEmpty && x.groups.isEmpty) }
  match s.podEnt pa with
  | none => s.freeLeft
  | some e =>
    let e := { e with rem := e.rem.filter fun r => r.1 != dev, coarse := e.coarse && (s.snoopAt e.pa).isSome }
    let s := s.setEnt e
    (if asked then s.answered e .i (88 + dev) else s).freeLeft

/-- One holder more in a list of up to four, or the groups of all of them (R263). -/
def putHolder (holders : List (Nat × Bool)) (groups : List Nat) (dev : Nat) (x : Bool) : List (Nat × Bool) × List Nat :=
  let hs := (holders.filter fun h => h.1 != dev) ++ [(dev, x)]
  if groups.isEmpty && decide (hs.length ≤ 4) then (hs, [])
  else ([], (groups ++ hs.map fun (h : Nat × Bool) => h.1 / 32).eraseDups)

/-- Record a remote holder. -/
def State.addHolder (s : State) (dev pa : Nat) (x : Bool) : State :=
  let at_ := s.recOf pa
  let groups := (s.snoopAt at_).elim [] (·.groups)
  let put := fun (s : State) (r : List (Nat × Bool) × List Nat) =>
    { s with snoop := (s.snoop.filter fun y => y.pa != at_) ++ [{ pa := at_, holders := r.1, groups := r.2 }] }
  match s.podEnt pa with
  | some e =>
    let r := putHolder e.rem groups dev x
    if r.2.isEmpty then s.setEnt { e with rem := r.1 } else put (s.setEnt { e with rem := [], coarse := true }) r
  | none => put s (putHolder ((s.snoopAt at_).elim [] (·.holders)) groups dev x)

/-- One holder more needs an entry of the snoop filter that is not there yet (R263). -/
def State.needsSnoop (s : State) (dev pa : Nat) : Bool :=
  match s.podEnt pa with
  | some e => !e.coarse && decide (4 ≤ (e.rem.filter fun r => r.1 != dev).length)
  | none => (s.snoopAt (s.recOf pa)).isNone

/-- A remote request meets what must end first: a tile under way, holders of other packages, which are
back-invalidated, or a full snoop filter. None when nothing stands in its way. -/
def State.remoteWaits (s : State) (dev pa : Nat) (x : Bool) : Option State :=
  let at_ := s.recOf pa
  let hs := (s.holdersOf pa).filter fun h => h.1 != dev && (x || h.2)
  let busy : Bool := match s.podEnt pa with
    | some e => !s.quiet e
    | none => false
  if busy then some s
  else if !hs.isEmpty then some (s.sendBis at_ hs)
  else if s.needsSnoop dev pa && !s.snoopRoom at_ then some (s.snoopReuse at_) else none

/-- What another device reads at this home (R79): a tile's or a line's lines, from the local owner or the home copy. -/
def State.homeLines (s : State) (pa : Nat) : List (Nat × List Byte) :=
  match s.podEnt pa with
  | some e => (List.range (e.tile / 128)).map fun k => (e.pa + 128 * k, ((s.tileData e).1.drop (128 * k)).take 128)
  | none => let a := pa / 128 * 128; [(a, s.phRead 3 a 128)]

/-- A response to a request (R331). -/
def State.respond (s : State) (m : FMsg) (code err : Nat) (bytes : List Byte) (poison : Bool) : FMsg :=
  { m with
    code := code, cls := 1, ddev := m.sdev, ddie := m.sdie, sdev := s.fab.fabId, sdie := m.ddie, err := err
    bytes := bytes, size := bytes.length, poison := poison, info := 0
    deadline := Nat.min (s.dev.rsplim.toNat / 2 / 512) 127 }

/-- LDATA to a device: one line (R332, Table 12-5). -/
def State.lineReply (s : State) (dev die tag gen port : Nat) (l : Nat × List Byte) : FMsg :=
  { code := 0x21, cls := 1, tc := 0, tag := tag, gen := gen, ddev := dev, ddie := die, sdev := s.fab.fabId
    sdie := 2 + paOff l.1 / 4096 % 8, sport := port, poison := s.isPoisoned l.1 128
    deadline := Nat.min (s.dev.rsplim.toNat / 2 / 512) 127, pa := l.1, size := 128, err := 0, info := 0, bytes := l.2
    mask := List.replicate 128 true, port := 95, vc := 1, at_ := s.frameClk }

/-- A remote read, or an exclusive request, is served at its home (Table 12-5): P is recorded, and the data goes to P. For
an exclusive request the local copies are recalled first. -/
def State.serveRemote (s : State) (dev pa : Nat) (x : Bool) (die tag gen port : Nat) : State :=
  let s := if x then
      match s.podEnt pa with
      | some e => s.gwNow e
      | none => s
    else s
  let data := (s.homeLines pa).map fun l => s.lineReply dev die tag gen port l
  let s := s.addHolder dev pa x
  { s with fab := { s.fab with owed := s.fab.owed ++ data } }

/-- REMOTE_READ (Table 12-5): served once no other package holds X; P is recorded in mode S. -/
def execRemoteRead (dev tile : Nat) (s : State) : Res :=
  .next ((s.remoteWaits dev tile false).getD (s.serveRemote dev tile false 0 0 0 0x58))

/-- REMOTE_EXCLUSIVE (Table 12-5): every other remote holder is gone, local copies are recalled, P holds X. -/
def execRemoteExclusive (dev tile : Nat) (s : State) : Res :=
  .next ((s.remoteWaits dev tile true).getD (s.serveRemote dev tile true 0 0 0 0x58))

/-- The dirty bytes of a holder in X: for a BI-D into the home copy, and with a notice as a write-back (Table 12-5). -/
def State.holderBack (s : State) (dev tile : Nat) (data : List (Nat × Byte)) : State :=
  let x := (s.holdersOf tile).any fun h => h.1 == dev && h.2
  let asked := s.bis.any fun b => b.pa == s.recOf tile && b.dev == dev
  let put := fun (s : State) (p : Nat × Byte) =>
    if asked then (s.phWrite 3 p.1 [p.2]).markStale p.1 1 else (s.writeBackTo 3 p.1 [p.2] [0]).markStale p.1 1
  if x then data.foldl put s else s

/-- REPLICA_DROP (Table 12-5, R264): the answer to a back-invalidation, with the data that a BI-D asks for into the home
copy; or a notice, from a holder in X with a write-back. -/
def execReplicaDrop (dev tile : Nat) (data : List (Nat × Byte)) (s : State) : Res :=
  .next ((s.holderBack dev tile data).dropHolder dev tile)

/-- BI_TIMEOUT (R265): a back-invalidation has found no answer within the response limit. The holder is removed, and
the line or tile is poisoned. A link that is only held or trains again is no failure (R93): the limit does not run. -/
def execBiTimeout (dev tile : Nat) (s : State) : Res :=
  let late := s.bis.any fun b => b.pa == s.recOf tile && b.dev == dev &&
    (match b.at_ with
      | some t => decide (t + s.dev.rsplim.toNat ≤ s.frameClk) && s.route 0 dev != .hold
      | none => false)
  .next (if late then (s.poisonAt tile).dropHolder dev tile else s)

/-- A back-invalidation at this package (R264): every local copy goes to I and its dirty bytes leave with the
acknowledgement, in its turn at a busy entry, before every request that waits there. A line that is no window leaves
the L2. -/
def State.backInv (s : State) (pa : Nat) : State :=
  if paDev pa = s.fab.fabId then s
  else
    match s.podEnt pa with
    | none => (s.takeDirty (pa / 128 * 128) 128).evict 3 (pa / 128)
    | some e =>
      let m : Msg := { kind := .bi, src := 88, dst := 88, dom := e.dom, pa := e.pa }
      if e.busy ≠ 0 then s.setEnt { e with queue := m :: e.queue } else (s.homeServe e m).goOn e

def execBi (tile : Nat) (s : State) : Res := .next (s.backInv tile)
def execBiD (tile : Nat) (s : State) : Res := .next (s.backInv tile)

/-! ## Migration (R254) -/

/-- The home slice makes room for a forwarding entry: the line of its oldest one goes home (R254). -/
def State.roomAt (s : State) (h : Nat) : State :=
  let away := fun (l : LineSt) => homeSlice l.dom (128 * l.line) == h && l.slice != h
  let out := s.lines.filter away
  if out.length < 4096 then s
  else
    let oldest := out.foldl (fun m l => Nat.min m l.movedAt) s.frameClk
    match out.find? fun l => l.movedAt == oldest with
    | none => s
    | some l => (s.way h l.line).updLine l.dom l.line fun l => { l with slice := h, movedAt := s.frameClk }

/-- A line that moves now (R254): its core has just made its 8th or a later consecutive access, from another slice than
its own, 4,096 cycles after the last move; neither counted nor a window's nor held remotely nor a replica. -/
def State.migrates (s : State) (l : LineSt) : Bool :=
  decide (8 ≤ l.run ∧ l.lastCore < 88 ∧ l.usedAt = s.frameClk ∧ nearSlice l.lastCore ≠ l.slice
      ∧ l.movedAt + 4096 ≤ s.frameClk)
    && l.rc.isNone && !(s.dir.any fun e => e.covers (128 * l.line)) && !(s.snoop.any fun x => x.pa == 128 * l.line)
    && !(l.dom == 3 && paDev (128 * l.line) != s.fab.fabId)

/-- LINE_MIGRATION (R254): the line moves to the slice nearest the core that has just accessed it. -/
def execLineMigration (line : Nat) (s : State) : Res :=
  match s.lines.find? fun l => l.line == line && s.migrates l with
  | none => .next s
  | some l =>
    let to_ := nearSlice l.lastCore
    let home := homeSlice l.dom (128 * line)
    -- a forwarding entry is needed for a line that has none and does not move home
    let s := (if l.slice = home ∧ to_ ≠ home then s.roomAt home else s).way to_ line
    let s := s.updLine l.dom line fun x => { x with slice := to_, movedAt := s.frameClk }
    .next (s.updCore l.lastCore fun c =>
      { c with locator := ((line, to_) :: c.locator.filter fun p => p.1 != line).take 64 })

end Sys2Proof.Machine
end

