-- ==== Sys2Proof/Machine/Engine.lean ====
section
/-! DEFINITION. What every engine's step shares: the entry being executed and its captured registers, progress of a
macro entry, the faults of an engine, and reads and writes of lists of byte runs (R21, R22, R27, R81, R368). -/

namespace Sys2Proof.Machine

/-- The engine of the current core. -/
def State.eng (s : State) (u : Unit8) : Engine := s.me.eng u

/-- A captured register of the entry being executed (R21). -/
def State.cap (s : State) (u : Unit8) (r : Nat) : Word :=
  match (s.eng u).cur with
  | some e => regOf e.regs r
  | none => 0

/-- A source of an engine's word: the captured value (R99, R169). -/
def State.ev (s : State) (u : Unit8) (a : Src) : Word := a.ival (s.cap u)

/-- The micro-PC of an engine that has taken an entry and not yet started it. -/
def noUpc : Nat := 4096

/-- The entry is a run word (R22): VRUN, MRUN or XRUN. -/
def isRunWord (w : Nat) : Bool := bitsOf w 26 6 == 0x3E || bitsOf w 26 6 == 0x1E

/-- Whether the engine stands in a micro-program. -/
def Engine.inProg (e : Engine) : Bool := e.upc != noUpc

/-- A step stands where it is: it starts again in a later cycle, once the core is live (R309). -/
def State.unitStand (s : State) (u : Unit8) : State :=
  s.updEng s.cur u fun e => { e with due := none, ready := Nat.max e.ready (s.me.sched + 1), ask := none }

/-- A fault of an engine's step of the current core: the step stands at its faulting point (R309). On a core that is
already to freeze the fault is held, and raised after the resume (R368). -/
def State.unitFault (s : State) (u : Unit8) (cause : Cause) (addr : Word := 0) (info0 : Word := 0) (info1 : Word := 0)
    (info2 : Word := 0) (sub : Nat := 0) (slot : Nat := 0) (wr : Bool := false) (elem : Option Nat := none) : State :=
  let s := s.unitStand u
  let r : FaultRec := { cause := cause, obs := (unitObs u), sub := sub, slot := slot, wr := wr, addr := addr, info0 := info0
                        info1 := info1, info2 := info2, rpc := s.me.pc, elem := elem }
  if s.me.live s.frameClk || s.me.uc.isSome then s.faultOn s.cur r
  else s.upd fun c => { c with heldFaults := c.heldFaults ++ [r] }

/-- The bundle slot of a direct step of an engine (Table 18-2, SLOT). -/
def unitSlot (u : Unit8) : Nat :=
  match u with
  | .ve => 1
  | .me => 2
  | .hu => 3
  | .ch _ => 2

/-- An illegal word met by an engine (R22, R97). -/
def State.unitIllegal (s : State) (u : Unit8) (w : Nat) : State :=
  s.unitFault u .illegalInsn (info0 := w64 w) (slot := unitSlot u)

/-- The word that the engine executes: in its section, or the entry's own. -/
def sectBase (u : Unit8) : Nat :=
  match u with
  | .ve => 0x20000
  | .me => 0x28000
  | _ => 0x24000

def Core.unitWord (c : Core) (u : Unit8) : Nat :=
  let e := c.eng u
  if e.inProg then c.imem.rdN (sectBase u + 4 * e.upc) 4
  else
    match e.cur with
    | some x => x.word
    | none => 0

/-- The instruction that an engine executes, in its section or as a direct step. -/
def Core.unitInstr (c : Core) (u : Unit8) : Except DecErr Instr :=
  let w := c.unitWord u
  match u with
  | .ve => decodeIn (if (c.eng u).inProg then .vsec else .v) w
  | .me => decodeIn (if (c.eng u).inProg then .msec else .x) w
  | .hu => decodeIn .h w
  | .ch _ => decodeIn (if (c.eng u).inProg then .xsec else .x) w

/-- The walk of a channel over cards, if it is on one. -/
def Core.chainOf (c : Core) (u : Unit8) : Option ChainSt :=
  match u with
  | .ch k => (vget c.ch .zero k.toNat).chain
  | _ => none

/-- The whole entry is done (R27). -/
def Engine.finish (e : Engine) (fl : BitVec 64) : Engine :=
  { e with
    finished := true
    due := none
    elem := 0
    flags := e.flags ||| fl
    outs := none
    parts := []
    limit := none
    read := false
    ask := none
    hit := false
    fails := [] }

/-- The micro-PC of an engine that has done word 4,095 of its section: its next word is an illegal instruction. -/
def pastEnd : Nat := 4097

/-- The next word of a micro-program, after a word whose flags are `fl`. -/
def Engine.nextWord (e : Engine) (fl : BitVec 64) : Engine :=
  { e with
    upc := if 4095 ≤ e.upc then pastEnd else e.upc + 1
    due := none
    elem := 0
    flags := e.flags ||| fl
    outs := none
    parts := []
    limit := none
    read := false
    ask := none
    hit := false
    fails := [] }

/-- The step in progress of an engine of the current core is done: the next word of its micro-program, or the end of
the entry. A micro-PC past word 4,095 is an illegal instruction when its word would start (R22). -/
def State.unitDone (s : State) (u : Unit8) (fl : BitVec 64 := 0) : State :=
  s.updEng s.cur u fun e => if e.inProg then e.nextWord fl else e.finish fl

/-- A step has come to element or segment `j` at SCHED_CLK `clk`. -/
def Engine.goOn (e : Engine) (j clk : Nat) : Engine :=
  if e.elem = j then e else { e with elem := j, ready := Nat.max e.ready clk }

/-- What a failed access of an engine of the current core does: the step stands. -/
def State.unitAccFail (s : State) (u : Unit8) (wr : Bool) (e : AccErr) : State :=
  let s := s.unitStand u
  if s.me.live s.frameClk then s.accFail s.cur (unitObs u) wr e
  else
    match e with
    | .walk _ _ => s
    | _ => s.accFail s.cur (unitObs u) wr e

/-- What a step that waits has done: asked remote holders to let go (R264), and sent its request (R321). -/
def State.waits (s t : State) (u : Unit8) : State :=
  if (s.eng u).ask = (t.eng u).ask then { s with bis := t.bis }
  else { s with bis := t.bis }.updEng s.cur u fun e => { e with ask := (t.eng u).ask }

/-- Go on with what an attempt gave. -/
def State.unitTry {α : Type} (s : State) (u : Unit8) (wr : Bool) (t : Try α) (f : α → State → Res) : Res :=
  match t with
  | .ok a s => f a s
  | .wait t => .next (s.waits t u)
  | .err e => .next (s.unitAccFail u wr e)

/-- The fault that a step of the current core raises when tried, if it raises one. -/
def State.probe (s : State) (f : State → Res) : Option State :=
  match f (s.upd fun c => { c with status := .running, call := none }) with
  | .next t =>
    if t.me.status ≠ .running ∨ t.me.uc ≠ s.me.uc then
      match f s with
      | .next t => some t
      | _ => none
    else none
  | _ => none

/-- Read byte runs one after another: address and length. -/
def readRuns (n obs : Nat) (sp : Bool) : List (Nat × Nat) → List Byte → State → Try (List Byte)
  | [], acc, s => .ok acc s
  | (a, l) :: r, acc, s =>
    match s.rdA n obs sp a l with
    | .ok b s => readRuns n obs sp r (acc ++ b) s
    | .wait s => .wait s
    | .err e => .err e

/-- The failure that has been reported for a write of the step in progress (R92). -/
def Engine.failOf (e : Engine) (sp : Bool) (a : Nat) : Option FailCause :=
  (e.fails.find? fun f => f.1 == sp && f.2.1 == a).map (·.2.2)

/-- A write of an engine of the current core: as any observer's, unless its response is missing or lost (R92). -/
def State.unitWr (s : State) (u : Unit8) (sp : Bool) (a : Nat) (bs : List Byte) : Try (Option (FailCause × Nat)) :=
  match (s.eng u).failOf sp a with
  | some c => .ok (some (c, a)) s
  | none => s.wrF s.cur (unitObs u) sp a bs

/-- An atomic update of an engine of the current core likewise. -/
def State.unitRmw (s : State) (u : Unit8) (sp : Bool) (a size : Nat) (f : Nat → Nat) : Try (Option (FailCause × Nat)) :=
  match (s.eng u).failOf sp a with
  | some c => .ok (some (c, a)) s
  | none => s.rmwA s.cur (unitObs u) sp a size f

/-- The failure of a write enters the failure record. -/
def State.noteFail (s : State) (f : Option (FailCause × Nat)) : State :=
  match f with
  | none => s
  | some f => s.upd fun c => c.recordFail f.1 f.2

/-- How the writes of a step end: an error names the write, after those before it. -/
inductive OutEnd
  | done (s : State)
  | wait (s : State)
  | err (k : Nat) (s : State) (e : AccErr)

/-- The writes of a step, one after another; a failed one enters the failure record (R92). -/
def writeOuts (u : Unit8) : List (Bool × Nat × List Byte) → Nat → State → OutEnd
  | [], _, s => .done s
  | (sp, a, bs) :: r, k, s =>
    match s.unitWr u sp a bs with
    | .ok f s => writeOuts u r (k + 1) (s.noteFail f)
    | .wait s => .wait s
    | .err e => .err k s e

/-- Byte runs of the scratchpad with their bytes, as writes. -/
def outsOf : List (Nat × Nat) → List Byte → List (Bool × Nat × List Byte)
  | [], _ => []
  | (a, l) :: r, bs => (true, a, bs.take l) :: outsOf r (bs.drop l)

/-- The writes that wait are kept for the next try: the step has performed its reads (R85), and its core serves no
forwarded request until it has written (R250). One that writes window tiles keeps nothing: it is made as a whole once every
tile can be had, so that no two cores wait for each other's steps; nor does one that a freeze stops part-way. -/
def State.keepOuts (s t : State) (u : Unit8) (o : OutW) (keep : Bool) : State :=
  let s := s.waits t u
  if !keep || (s.eng u).limit.isSome || o.ws.any fun w => s.meetsDir s.cur (unitObs u) w.1 w.2.1 w.2.2.length then s
  else s.updEng s.cur u fun e => { e with outs := some o, read := true }

/-- A step's writes, once its sources are read (R81). `elem`: a fault stands at the element of its write, of which the
first is given, and the lower ones are done (R171). `keep`: they end the step. -/
def State.unitOut (s : State) (u : Unit8) (o : OutW) (f : State → Res) (elem : Option Nat := none) (keep : Bool := true) :
    Res :=
  match writeOuts u o.ws 0 s, elem with
  | .done t, _ => f t
  | .wait t, _ => .next (s.keepOuts t u o keep)
  | .err _ _ e, none => .next (s.unitAccFail u true e)
  | .err k t e, some j => .next ((t.updEng t.cur u fun x => { x with elem := j + k }).unitAccFail u true e)

/-- A run word takes effect at the head of its queue (R22). -/
def State.enterProg (s : State) (u : Unit8) (entry : Nat) : State :=
  s.updEng s.cur u fun e => { e with upc := entry, idx := Vector.replicate 6 0, due := none, elem := 0 }

/-! ## Loop nests (R24, R25) -/

/-- The trip count of a level: a COUNT of 0 counts as 1. -/
def tripOf (w : Word) : Nat := Nat.max 1 (fld w 0 16)

/-- The next index vector of a nest, or none after the last iteration. -/
def nextIdx (trips : List Nat) : List Nat → Option (List Nat)
  | [] => none
  | i :: r =>
    match trips with
    | [] => none
    | t :: ts => if i + 1 < t then some ((i + 1) :: r) else (nextIdx ts r).map fun l => 0 :: l

/-- The end of a body (R25): the next iteration from the entry, or the end of the run word. -/
def State.endBody (s : State) (u : Unit8) (loops : Vector Word 6) : State :=
  let e := s.eng u
  let entry := match e.cur with
    | some x => bitsOf x.word 0 12
    | none => 0
  match nextIdx (loops.toList.map tripOf) e.idx.toList with
  | none => s.updEng s.cur u fun e => e.finish 0
  | some l =>
    let v : Vector Nat 6 := Vector.ofFn fun k : Fin 6 => l.getD k.val 0
    s.updEng s.cur u fun e => { e with upc := entry, idx := v, due := none, elem := 0 }

end Sys2Proof.Machine
end

