-- ==== Sys2Proof/Machine/Vdie.lean ====
section
/-! DEFINITION. Virtual dies and hop distances (R41, R42). -/

namespace Sys2Proof.Machine

/-- What the virtual-die table gives for a number. -/
inductive VEnt
  /-- Bound: device and die. -/
  | bound (dev die : Nat)
  | unbound
  /-- The table could not be read. -/
  | err (e : WalkErr) (va : Nat)
  deriving DecidableEq, Repr

/-- The raw 32-bit entry of a virtual die in the running CR's region, read in the region whose RCB gives the table (R325,
assumption 69). -/
def State.vdtEntry (s : State) (n v : Nat) : Except (WalkErr × Nat) Nat :=
  let rg := (s.core n).region
  match s.region? rg with
  | none => .ok 0
  | some r =>
    let va := s.rVdt r + 4 * v
    match s.cpRd (s.grp 11 r).num va 4 (dieOf n) with
    | .error e => .error (e, va)
    | .ok b => .ok (leNat b)

/-- An entry is bound (R41). -/
def vdtBound (e : Nat) : Bool := bitsOf e 31 1 == 1 && bitsOf e 19 12 == 0 && decide (bitsOf e 14 5 < 21)

/-- A virtual die (R41); a number above 1,023 is unbound. -/
def State.vdie (s : State) (n v : Nat) : VEnt :=
  if v > 1023 then .unbound
  else
    match s.vdtEntry n v with
    | .error (e, a) => .err e a
    | .ok e => if vdtBound e then .bound (bitsOf e 0 14) (bitsOf e 14 5) else .unbound

/-- Rounds of widening until a die is reached: the number of die links (R42). -/
def hopsFrom (ls : List (Nat × Nat)) (a b : Nat) : Nat → Nat → List Nat → Option Nat
  | 0, _, _ => none
  | f + 1, k, ds =>
    if ds.contains b then some k
    else
      let one := ls.foldl (fun acc l =>
        let r := fun d => (d == a || decide (d ≤ 9)) && ds.contains d
        let acc := if r l.1 && !(ds ++ acc).contains l.2 then l.2 :: acc else acc
        if r l.2 && !(ds ++ acc).contains l.1 then l.1 :: acc else acc) []
      hopsFrom ls a b f (k + 1) (ds ++ one)

/-- Hops between two dies of one device; a D-die stands one hop behind its M-die. -/
def dieHops (ls : List (Nat × Nat)) (a b : Nat) : Option Nat :=
  if a = b then some 0
  else
    let up := fun d => if d ≥ 13 then (d - 11, 1) else (d, 0)
    (hopsFrom ls (up a).1 (up b).1 8 0 [(up a).1]).map fun k => k + (up a).2 + (up b).2

/-- Fabric links of the route from this device to another (R42, R346), for a requester of a C-die. -/
def State.fabLinks (s : State) (die tc dev : Nat) : Option Nat :=
  let me := s.fab.fabId
  match s.route tc dev die with
  | .go _ =>
    if dev / 32 = me / 32 then some 1
    else
      let live := (s.candidates (dev / 32)).filter fun c =>
        match s.candRoute die tc c with
        | .go _ => true
        | _ => false
      live[Nat.xor me dev % live.length]?.map fun c =>
        1 + (if c.1 = me % 32 then 0 else 1) + (if c.2.2 = dev % 32 then 0 else 1)
  | _ => none

/-- Fabric links between two other devices: one within a group; across groups at most three, by routes of which this
device holds no table: a free value, 0 for no route (assumption 66). -/
def State.farLinks (s : State) (a b : Nat) : Option Nat :=
  if a / 32 = b / 32 then some 1
  else
    match (Config.freeWord s.draws).toNat % 4 with
    | 0 => none
    | k => some k

/-- Fabric links of the minimal route between two devices, for a requester of core `n` (R42). -/
def State.linksBetween (s : State) (n a b : Nat) : Option Nat :=
  if a = s.fab.fabId then s.fabLinks (dieOf n) (s.tcOf n) b
  else if b = s.fab.fabId then s.fabLinks (dieOf n) (s.tcOf n) a
  else s.farLinks a b

def optMin (a b : Option Nat) : Option Nat :=
  match a, b with
  | some x, some y => some (min x y)
  | some x, none => some x
  | none, y => y

/-- The hop distance of R42; none when no route exists. -/
def State.hops (s : State) (n : Nat) (a b : Nat × Nat) : Option Nat :=
  let here := s.linksUp
  let ls := fun d => if d = s.fab.fabId then here else dieLinks.map fun l => (l.1, l.2.1)
  if a.1 = b.1 then dieHops (ls a.1) a.2 b.2
  else
    match s.linksBetween n a.1 b.1 with
    | none => none
    | some f =>
      [(11, 11), (11, 12), (12, 11), (12, 12)].foldl (fun best x =>
        match dieHops (ls a.1) a.2 x.1, dieHops (ls b.1) x.2 b.2 with
        | some p, some q => optMin best (some (p + 8 * f + q))
        | _, _ => best) none

/-- What hold an array: the CRs of a region's subtree (R290). -/
def State.arraysHeldUnder (s : State) (region : Nat) : Nat :=
  (s.arrays.filter fun a =>
    match a.2.holder with
    | some h =>
      match s.cr? h.1 with
      | some c => s.within region c.region
      | none => false
    | none => false).length

end Sys2Proof.Machine
end

