-- ==== Sys2Proof/Machine/Vector.lean ====
section
/-! DEFINITION. Vector engine steps (R153-R171): shapes, their checks, and one meaning for each word of vsec and of
the V slot. A step acts on the entry that the VE of the current core executes. -/

namespace Sys2Proof.Machine

/-! ## Shapes and element types (R153-R155) -/

/-- A shape as a step reads it: its register number and its value. -/
structure Shape where
  reg : Nat
  w : Word
  deriving DecidableEq, Repr

def Shape.base (h : Shape) : Nat := fld h.w 0 21
def Shape.stride (h : Shape) : Int := sextNat 16 (fld h.w 24 16)
def Shape.count (h : Shape) : Nat := fld h.w 40 16
def Shape.ty (h : Shape) : Nat := fld h.w 56 5

/-- A shape register of the current core. -/
def State.shape (s : State) (r : BitVec 4) : Shape := ⟨r.toNat, vget s.me.sh 0 r.toNat⟩

/-- Width in bits of a type of Table 7-2; 0 for a reserved code. -/
def tyWidth : Nat → Nat
  | 0x00 => 32
  | 0x01 | 0x02 => 16
  | 0x03 | 0x04 | 0x08 => 8
  | 0x05 | 0x06 | 0x09 => 6
  | 0x07 | 0x0A => 4
  | 0x0C | 0x10 => 8
  | 0x0D | 0x11 => 16
  | 0x0E | 0x12 => 32
  | 0x0F | 0x13 => 64
  | _ => 0

/-- Class F. -/
def tyF : Nat → Option FFmt
  | 0 => some fp32
  | 1 => some bf16
  | 2 => some fp16
  | 3 => some e4m3
  | 4 => some e5m2
  | _ => none

/-- Class I: whether signed. -/
def tyI : Nat → Option Bool
  | 0x0C | 0x0D | 0x0E | 0x0F => some true
  | 0x10 | 0x11 | 0x12 | 0x13 => some false
  | _ => none

/-- Class M. -/
def tyM : Nat → Option MxElem
  | 3 => some (.flt e4m3)
  | 4 => some (.flt e5m2)
  | 5 => some (.flt e2m3)
  | 6 => some (.flt e3m2)
  | 7 => some (.flt e2m1)
  | 8 => some (.int 8)
  | 9 => some (.int 6)
  | 10 => some (.int 4)
  | _ => none

def Shape.width (h : Shape) : Nat := tyWidth h.ty
def Shape.packed (h : Shape) : Bool := h.width % 8 != 0
def Shape.size (h : Shape) : Nat := h.width / 8
def Shape.isF (h : Shape) : Bool := (tyF h.ty).isSome
def Shape.isI (h : Shape) : Bool := (tyI h.ty).isSome

/-- The offset of an element; it may be negative. -/
def Shape.off (h : Shape) (j : Nat) : Int := (h.base : Int) + j * h.stride * h.size

/-- The checks of R155 on one shape, in their order. -/
def Shape.check (h : Shape) : Option Cause :=
  let lim : Int := 0x200000
  if h.count = 0 ∨ h.width = 0 ∨ (h.packed ∧ (h.stride ≠ 1 ∨ h.count * h.width % 8 ≠ 0)) then some .veShape
  else if h.packed then (if h.base + h.count * h.width / 8 > 0x200000 then some .spadRange else none)
  else if h.base % h.size ≠ 0 then some .align
  else
    let a := h.off 0
    let b := h.off (h.count - 1)
    if a + h.size > lim ∨ b < 0 ∨ b + h.size > lim then some .spadRange else none

/-- The byte runs of a shape's elements from `lo` to before `hi`. In a packed shape both are at a byte's edge. -/
def Shape.runsOf (h : Shape) (lo hi : Nat) : List (Nat × Nat) :=
  if h.packed then [(h.base + lo * h.width / 8, (hi - lo) * h.width / 8)]
  else if h.stride = 1 then [(h.base + lo * h.size, (hi - lo) * h.size)]
  else (List.range (hi - lo)).map fun i => ((h.off (lo + i)).toNat, h.size)

/-- The byte runs of all elements, element 0 first. -/
def Shape.runs (h : Shape) : List (Nat × Nat) := h.runsOf 0 h.count

/-- Whether two extents have a byte in common. -/
def Shape.meets (a b : Shape) : Bool :=
  a.runs.any fun x => b.runs.any fun y => decide (x.1 < y.1 + y.2 ∧ y.1 < x.1 + x.2)

/-- `n` numbers of `k` bytes each. -/
def chunks (k : Nat) : Nat → List Byte → List Nat
  | 0, _ => []
  | n + 1, l => leNat (l.take k) :: chunks k n (l.drop k)

/-- `n` fields of `w` bits each of a number. -/
def bitFields (w : Nat) : Nat → Nat → List Nat
  | 0, _ => []
  | n + 1, v => v % 2 ^ w :: bitFields w n (v / 2 ^ w)

/-- The number that fields of `w` bits each make. -/
def packBits (w : Nat) : List Nat → Nat
  | [] => 0
  | v :: r => v % 2 ^ w + 2 ^ w * packBits w r

/-- Element patterns from a shape's bytes, and back. -/
def Shape.elems (h : Shape) (bs : List Byte) : List Nat :=
  if h.packed then bitFields h.width h.count (leNat bs) else chunks h.size h.count bs

def Shape.bytes (h : Shape) (vs : List Nat) : List Byte :=
  if h.packed then leBytes (vs.length * h.width / 8) (packBits h.width vs)
  else (vs.map fun v => leBytes h.size v).flatten

/-- The exact integer value of an element of class I. -/
def Shape.int (h : Shape) (v : Nat) : Int := if tyI h.ty = some true then sextNat h.width v else v

/-- The exact value of an element of class F. -/
def Shape.flt (h : Shape) (v : Nat) : FVal :=
  match tyF h.ty with
  | some f => f.decode v
  | none => .nan false

/-- An exact integer modulo 2^w. -/
def Shape.wrap (h : Shape) (v : Int) : Nat := (v % 2 ^ h.width).toNat

/-- An exact value rounded once into the shape's type (R157). -/
def Shape.rnd (h : Shape) (rm : RMode) (w : Nat) (r : FVal × FFlags) : Nat × FFlags :=
  match tyF h.ty with
  | some f => f.finish rm w r
  | none => (0, r.2)

/-- One value for every element: element 0 of a broadcast shape (R156). -/
def bcast (n : Nat) (l : List Nat) : List Nat :=
  if l.length = n then l else List.replicate n (l.headD 0)

/-! ## The generator (R62) -/

/-- Lane words of `g` groups of 32, and the state afterwards. -/
def laneGroups : Nat → BitVec 32 → List Nat × BitVec 32
  | 0, x => ([], x)
  | g + 1, x =>
    let y := xorshift x
    let r := laneGroups g y
    ((List.range 32).map (laneWord y) ++ r.1, r.2)

/-- Lane words of `n` elements; only SR advances the generator. -/
def lanes (sr : Bool) (x : BitVec 32) (n : Nat) : List Nat × BitVec 32 :=
  if sr then laneGroups ((n + 31) / 32) x else (List.replicate n 0, x)

/-! ## Checks and the frame of a step (R155, R156, R171) -/

/-- The shapes of a step, by register number. -/
def byReg (hs : List Shape) : List Shape :=
  (List.range 16).filterMap fun k => hs.find? fun h => h.reg == k

/-- The first failing shape check. -/
def shapeFail (hs : List Shape) : Option (Cause × Nat) :=
  (byReg hs).findSome? fun h => h.check.map fun c => (c, h.base)

/-- The step of a destination of `n` elements has done those before `hi`: all of them, or, where a freeze stops it,
up to a boundary of R170. What it has read stays with it: its sources are read before any destination (R81). -/
def State.vFin (s : State) (n hi : Nat) (x : BitVec 32) (fl : BitVec 64) (got : List Nat := []) : State :=
  let s := s.upd fun c => { c with rngVe := x }
  if hi < n then
    s.updEng s.cur .ve fun e => { e with elem := hi, limit := none, flags := e.flags ||| fl, parts := got }
  else s.unitDone .ve fl

/-- The static checks of a step and then the step: shapes, types, counts. A step that has read its sources and waits for
its destinations only writes. -/
def State.vChecked (s : State) (hs : List Shape) (types counts : Bool) (k : Res) : Res :=
  match s.me.ve.outs with
  | some o => s.unitOut .ve o fun t => .next (if o.bad then t.unitFault .ve .veBulkFail else t.vFin 0 0 o.rng o.flags)
  | none =>
    match shapeFail hs with
    | some (c, a) => .next (s.unitFault .ve c (addr := if c = .veShape then 0 else w64 a))
    | none =>
      if !types then .next (s.unitFault .ve .veType)
      else if !counts then .next (s.unitFault .ve .veCount)
      else k

/-- COUNT N or COUNT 1. -/
def countOk (n : Nat) (hs : List Shape) : Bool := hs.all fun h => h.count == n || h.count == 1

/-- Read the element patterns of a shape. -/
def State.vRead (s : State) (h : Shape) : Try (List Nat) :=
  (readRuns s.cur 0 true h.runs [] s).bind fun bs s => .ok (h.elems bs) s

/-- Read the patterns of the elements below `hi` of several shapes; those above are 0. -/
def State.vReadsTo (s : State) (hi : Nat) : List Shape → Try (List (List Nat))
  | [] => .ok [] s
  | h :: r =>
    (readRuns s.cur 0 true (h.runsOf 0 (Nat.min hi h.count)) [] s).bind fun bs s =>
      (s.vReadsTo hi r).bind fun ls s => .ok (h.elems bs :: ls) s

/-- Read several shapes, one after another. -/
def State.vReads (s : State) : List Shape → Try (List (List Nat))
  | [] => .ok [] s
  | h :: r => (s.vRead h).bind fun l s => (s.vReads r).bind fun ls s => .ok (l :: ls) s

/-- A list cut into lists of given lengths. -/
def splitBy : List Nat → List Nat → List (List Nat)
  | [], _ => []
  | n :: r, l => l.take n :: splitBy r (l.drop n)

/-- The patterns of the sources of a step: those that it has read before a freeze stopped it (R81, R170), or those that it
reads now. -/
def State.vGot (s : State) (hs : List Shape) : Try (List (List Nat)) :=
  if s.me.ve.parts.isEmpty then s.vReads hs else .ok (splitBy (hs.map Shape.count) s.me.ve.parts) s

/-- The element of a step that is to be done next, and the one before which it ends now. -/
def State.vElem (s : State) : Nat := s.me.ve.elem
def State.vHi (s : State) (n : Nat) : Nat := Nat.min n (s.me.ve.limit.getD n)

/-- A step ends with its writes: the generator, the flags, the progress. -/
def State.vPut (s : State) (n hi : Nat) (ws : List (Bool × Nat × List Byte)) (x : BitVec 32) (fl : BitVec 64)
    (got : List Nat := []) : Res :=
  s.unitOut .ve { ws := ws, rng := x, flags := fl } fun t => .next (t.vFin n hi x fl got)

/-- The writes of elements `lo` to before `hi` of a shape, from their patterns. -/
def Shape.outs (h : Shape) (lo hi : Nat) (vs : List Nat) : List (Bool × Nat × List Byte) :=
  outsOf (h.runsOf lo hi) (h.bytes vs)

/-- Undefined bytes for elements of a shape (R15). -/
def Shape.free (h : Shape) (k lo hi : Nat) : List (Bool × Nat × List Byte) :=
  outsOf (h.runsOf lo hi) ((List.range ((hi - lo) * h.width / 8)).map (Config.freeByte k))

/-- The element that a step has failed to read a source of: the one whose run stands at the address. -/
def State.vLostAt (s : State) (hs : List Shape) (a : Nat) : Nat :=
  let at_ := fun (h : Shape) => (h.runs.findIdx? fun r => r.1 == a).filter fun _ => h.runs.length == h.count
  Nat.max s.vElem ((hs.findSome? at_).getD 0)

/-- A read of a step has failed for good (R321): the elements below are done, by `low`, that of the failed one is
undefined, and nothing above it is done. -/
def State.vLost (s : State) (d : Shape) (j a : Nat) (low : List (Bool × Nat × List Byte)) (x : BitVec 32)
    (fl : BitVec 64) : Res :=
  let k := s.draw
  match writeOuts .ve (low ++ d.free k.1 j (if d.packed then j + 8 else j + 1)) 0 k.2 with
  | .done t =>
    .next (((t.upd fun c => { c with rngVe := x }).updEng t.cur .ve fun e =>
      { e with elem := j, flags := e.flags ||| fl }).unitAccFail .ve false (.refused a))
  | .wait _ => .next s
  | .err _ _ e => .next (s.unitAccFail .ve true e)

/-- Go on with what a step has read; the first element of the destination is undefined where that fails for good. -/
def State.vTry {α : Type} (s : State) (d : Shape) (t : Try α) (f : α → State → Res) : Res :=
  match t with
  | .err (.refused a) => s.vLost d (s.vElem / 8 * 8) a [] s.me.rngVe 0
  | t => s.unitTry .ve false t f

/-- Part of a list. -/
def slice {α : Type} (lo hi : Nat) (l : List α) : List α := (l.take hi).drop lo

/-- The flags of a list of results. -/
def joinAll (rs : List (Nat × FFlags)) : FFlags := rs.foldl (fun f r => f.join r.2) {}

/-- A step that computes each element of `d` from one element of each source: every source is read before the
destination is written (R81). `f` gets the element patterns and the lane word. In SR the generator advances once for
each group of 32 elements (R62); where the conversion is exact by its types no element is rounded, and R158 leaves open
whether such a step advances it: here it does (assumption 51). -/
def State.vMap (s : State) (d : Shape) (srcs : List Shape) (sr : Bool) (f : List Nat → Nat → Nat × FFlags) : Res :=
  let run := fun (ls : List (List Nat)) (t : State) (lo hi : Nat) =>
    let ls := ls.map (bcast d.count)
    let g := lanes sr t.me.rngVe (hi - lo)
    let rs := (List.range (hi - lo)).map fun i => f (ls.map fun l => l.getD (lo + i) 0) (g.1.getD i 0)
    (d.outs lo hi (rs.map (·.1)), g.2, veFlags (joinAll rs))
  match s.vGot srcs with
  | .err (.refused a) =>
    let j := s.vLostAt srcs a
    match s.vReadsTo j srcs with
    | .ok ls t => let o := run ls t s.vElem j; t.vLost d j a o.1 o.2.1 o.2.2
    | _ => s.vLost d s.vElem a [] s.me.rngVe 0
  | r => s.unitTry .ve false r fun ls t =>
    let hi := t.vHi d.count
    let o := run ls t t.vElem hi
    t.vPut d.count hi o.1 o.2.1 o.2.2 ls.flatten

/-! ## Element-wise steps (R157, R159) -/

/-- The last operand: a shape or a broadcast scalar. -/
inductive VOpd
  | sh (r : BitVec 4)
  | q (a : Src)
  /-- A unary step. -/
  | none

def VOpd.shapes (s : State) : VOpd → List Shape
  | .sh r => [s.shape r]
  | _ => []

/-- Class I: the scalar as a signed integer. -/
def VOpd.int (s : State) (o : VOpd) (l : List Nat) : Int :=
  match o with
  | .sh r => (s.shape r).int (l.getD 1 0)
  | .q a => (s.ev .ve a).toInt
  | .none => 0

/-- Class F: the scalar as FP32. -/
def VOpd.flt (s : State) (o : VOpd) (l : List Nat) : FVal :=
  match o with
  | .sh r => (s.shape r).flt (l.getD 1 0)
  | .q a => fp32.decode (a.fval (s.cap .ve))
  | .none => .nan false

def VOpd.isFloatConst : VOpd → Bool
  | .q a => a.isFloat
  | _ => false

/-- An element-wise step (Table 7-3): `f` is its class F result and `g` its class I result, where it has one. -/
def State.velt (s : State) (d a : BitVec 4) (b : VOpd) (rm : RMode)
    (f : Option (FVal → FVal → FVal × FFlags)) (g : Option (Int → Int → Int)) : Res :=
  let hd := s.shape d
  let ha := s.shape a
  let hs := ha :: b.shapes s
  let allF := (hd :: hs).all Shape.isF
  let allI := (hd :: hs).all Shape.isI && !b.isFloatConst
  let types := (allF && f.isSome) || (allI && g.isSome)
  s.vChecked (hd :: hs) types (countOk hd.count hs)
    (if allF then
      match f with
      | some f => s.vMap hd hs (rm == .sr) fun l w => hd.rnd rm w (f (ha.flt (l.headD 0)) (b.flt s l))
      | none => .next s
    else
      match g with
      | some g => s.vMap hd hs false fun l _ => (hd.wrap (g (ha.int (l.headD 0)) (b.int s l)), {})
      | none => .next s)

/-- Bitwise operations on the infinite two's-complement forms: 64 bits hold every result modulo 2^w. -/
def bit64 (f : BitVec 64 → BitVec 64 → BitVec 64) (x y : Int) : Int :=
  (f (BitVec.ofInt 64 x) (BitVec.ofInt 64 y)).toInt

def fAddV (rm : RMode) (x y : FVal) : FVal × FFlags := FVal.add rm x y
def fSubV (rm : RMode) (x y : FVal) : FVal × FFlags := FVal.add rm x y.neg
def fMulV (x y : FVal) : FVal × FFlags := FVal.mul x y
def shlV (x y : Int) : Int := x * 2 ^ (y % 64).toNat
def shrV (x y : Int) : Int := x / 2 ^ (y % 64).toNat

def execVadd (d a b : BitVec 4) (rm : RMode) (s : State) : Res :=
  s.velt d a (.sh b) rm (some (fAddV rm)) (some fun x y => x + y)
def execVsub (d a b : BitVec 4) (rm : RMode) (s : State) : Res :=
  s.velt d a (.sh b) rm (some (fSubV rm)) (some fun x y => x - y)
def execVmul (d a b : BitVec 4) (rm : RMode) (s : State) : Res :=
  s.velt d a (.sh b) rm (some fMulV) (some fun x y => x * y)
def execVmin (d a b : BitVec 4) (rm : RMode) (s : State) : Res :=
  s.velt d a (.sh b) rm (some (fMinMax false)) (some fun x y => min x y)
def execVmax (d a b : BitVec 4) (rm : RMode) (s : State) : Res :=
  s.velt d a (.sh b) rm (some (fMinMax true)) (some fun x y => max x y)
def execVand (d a b : BitVec 4) (_rm : BitVec 3) (s : State) : Res :=
  s.velt d a (.sh b) .rne none (some (bit64 fun x y => x &&& y))
def execVor (d a b : BitVec 4) (_rm : BitVec 3) (s : State) : Res :=
  s.velt d a (.sh b) .rne none (some (bit64 fun x y => x ||| y))
def execVxor (d a b : BitVec 4) (_rm : BitVec 3) (s : State) : Res :=
  s.velt d a (.sh b) .rne none (some (bit64 fun x y => x ^^^ y))
def execVshl (d a b : BitVec 4) (_rm : BitVec 3) (s : State) : Res := s.velt d a (.sh b) .rne none (some shlV)
def execVshr (d a b : BitVec 4) (_rm : BitVec 3) (s : State) : Res := s.velt d a (.sh b) .rne none (some shrV)

def execVaddVs (d a : BitVec 4) (q : Src) (rm : RMode) (s : State) : Res :=
  s.velt d a (.q q) rm (some (fAddV rm)) (some fun x y => x + y)
def execVsubVs (d a : BitVec 4) (q : Src) (rm : RMode) (s : State) : Res :=
  s.velt d a (.q q) rm (some (fSubV rm)) (some fun x y => x - y)
def execVmulVs (d a : BitVec 4) (q : Src) (rm : RMode) (s : State) : Res :=
  s.velt d a (.q q) rm (some fMulV) (some fun x y => x * y)
def execVminVs (d a : BitVec 4) (q : Src) (rm : RMode) (s : State) : Res :=
  s.velt d a (.q q) rm (some (fMinMax false)) (some fun x y => min x y)
def execVmaxVs (d a : BitVec 4) (q : Src) (rm : RMode) (s : State) : Res :=
  s.velt d a (.q q) rm (some (fMinMax true)) (some fun x y => max x y)
def execVandVs (d a : BitVec 4) (q : Src) (_rm : BitVec 3) (s : State) : Res :=
  s.velt d a (.q q) .rne none (some (bit64 fun x y => x &&& y))
def execVorVs (d a : BitVec 4) (q : Src) (_rm : BitVec 3) (s : State) : Res :=
  s.velt d a (.q q) .rne none (some (bit64 fun x y => x ||| y))
def execVxorVs (d a : BitVec 4) (q : Src) (_rm : BitVec 3) (s : State) : Res :=
  s.velt d a (.q q) .rne none (some (bit64 fun x y => x ^^^ y))
def execVshlVs (d a : BitVec 4) (q : Src) (_rm : BitVec 3) (s : State) : Res :=
  s.velt d a (.q q) .rne none (some shlV)
def execVshrVs (d a : BitVec 4) (q : Src) (_rm : BitVec 3) (s : State) : Res :=
  s.velt d a (.q q) .rne none (some shrV)

def execVabs (d a : BitVec 4) (rm : RMode) (s : State) : Res :=
  s.velt d a .none rm (some fun x _ => (x.abs, {})) (some fun x _ => (x.natAbs : Int))
def execVneg (d a : BitVec 4) (rm : RMode) (s : State) : Res :=
  s.velt d a .none rm (some fun x _ => (x.neg, {})) (some fun x _ => -x)

/-- VFMA: class F throughout, one rounding. -/
def execVfma (d a b c : BitVec 4) (rm : RMode) (s : State) : Res :=
  let hd := s.shape d
  let ha := s.shape a
  let hb := s.shape b
  let hc := s.shape c
  let hs := [ha, hb, hc]
  s.vChecked (hd :: hs) ((hd :: hs).all Shape.isF) (countOk hd.count hs)
    (s.vMap hd hs (rm == .sr) fun l w =>
      let p := FVal.mul (ha.flt (l.getD 0 0)) (hb.flt (l.getD 1 0))
      let r := FVal.add rm p.1 (hc.flt (l.getD 2 0))
      hd.rnd rm w (r.1, p.2.join r.2))

/-- VSEL: the mask tests the stored bits. -/
def execVsel (d a b c : BitVec 4) (rm : RMode) (s : State) : Res :=
  let hd := s.shape d
  let ha := s.shape a
  let hb := s.shape b
  let hc := s.shape c
  let hs := [ha, hb, hc]
  let ab := [hd, ha, hb]
  let allF := ab.all Shape.isF
  s.vChecked (hd :: hs) ((allF || ab.all Shape.isI) && (hc.isF || hc.isI)) (countOk hd.count hs)
    (s.vMap hd hs (allF && rm == .sr) fun l w =>
      let pickA := l.getD 2 0 != 0
      if allF then hd.rnd rm w (if pickA then ha.flt (l.getD 0 0) else hb.flt (l.getD 1 0), {})
      else (hd.wrap (if pickA then ha.int (l.getD 0 0) else hb.int (l.getD 1 0)), {}))

/-- The FCMP column of Table 5-4 for a condition code. -/
def fcondOf : Cond → FCond
  | .eq => .eq
  | .ne => .ne
  | .lt => .lt
  | .ge => .ge
  | .ltu => .le
  | .geu => .gt
  | .tst => .un
  | .ntst => .ord

/-- The CMP column on exact values; LTU and GEU take them modulo 2^64. -/
def icond (k : Cond) (x y : Int) : Bool :=
  match k with
  | .eq => x == y
  | .ne => x != y
  | .lt => decide (x < y)
  | .ge => decide (y ≤ x)
  | .ltu => decide (x % 2 ^ 64 < y % 2 ^ 64)
  | .geu => decide (y % 2 ^ 64 ≤ x % 2 ^ 64)
  | .tst => bit64 (fun a b => a &&& b) x y != 0
  | .ntst => bit64 (fun a b => a &&& b) x y == 0

/-- VCMP: all ones or 0. -/
def State.vcmp (s : State) (d a : BitVec 4) (b : VOpd) (k : Cond) : Res :=
  let hd := s.shape d
  let ha := s.shape a
  let hs := ha :: b.shapes s
  let allF := hs.all Shape.isF
  let allI := hs.all Shape.isI && !b.isFloatConst
  let ones := 2 ^ hd.width - 1
  s.vChecked (hd :: hs) (hd.isI && (allF || allI)) (countOk hd.count hs)
    (s.vMap hd hs false fun l _ =>
      if allF then
        let r := fCompare (fcondOf k) (ha.flt (l.headD 0)) (b.flt s l)
        (if r.1 then ones else 0, r.2)
      else (if icond k (ha.int (l.headD 0)) (b.int s l) then ones else 0, {}))

def execVcmp (d a b : BitVec 4) (_rm : BitVec 3) (k : Cond) (s : State) : Res := s.vcmp d a (.sh b) k
def execVcmpVs (d a : BitVec 4) (q : Src) (_rm : BitVec 3) (k : Cond) (s : State) : Res := s.vcmp d a (.q q) k

/-! ## Conversion and quantisation (R161-R163) -/

/-- The range of a class I type. -/
def Shape.lo (h : Shape) : Int := if tyI h.ty = some true then -(2 ^ (h.width - 1)) else 0
def Shape.hi (h : Shape) : Int := if tyI h.ty = some true then 2 ^ (h.width - 1) - 1 else 2 ^ h.width - 1

/-- VCVT. -/
def execVcvt (d a : BitVec 4) (rm : RMode) (s : State) : Res :=
  let hd := s.shape d
  let ha := s.shape a
  s.vChecked [hd, ha] ((hd.isF || hd.isI) && (ha.isF || ha.isI)) (countOk hd.count [ha])
    (s.vMap hd [ha] (rm == .sr && (hd.isF || ha.isF)) fun l w =>
      let v := l.headD 0
      if ha.isF then
        if hd.isF then hd.rnd rm w (ha.flt v, {})
        else
          let r := toIntSat rm w hd.lo hd.hi 0 (ha.flt v)
          (hd.wrap r.1, r.2)
      else if hd.isF then hd.rnd rm w (intVal (ha.int v), {})
      else
        let x := ha.int v
        let y := max hd.lo (min hd.hi x)
        (hd.wrap y, { ov := decide (x ≠ y) }))

/-- The block length of R162, when the counts allow one. -/
def blockLen (n k : Nat) : Option Nat :=
  if k ≠ 1 ∧ k * 16 = n then some 16 else if k ≠ 1 ∧ k * 32 = n then some 32 else none

/-- Lists of `b` elements. -/
def groupsOf {α : Type} (b : Nat) : Nat → List α → List (List α)
  | 0, _ => []
  | n + 1, l => l.take b :: groupsOf b n (l.drop b)

/-- VQUANT: shb receives the scale codes. Where the extents of shb and shd overlap R162 gives no order: the scale codes
are written first (assumption 65). -/
def execVquant (d a b : BitVec 4) (sr : Bool) (s : State) : Res :=
  let hd := s.shape d
  let ha := s.shape a
  let hb := s.shape b
  let bl := blockLen ha.count hb.count
  let rm : RMode := if sr then .sr else .rne
  s.vChecked [hd, ha, hb] (ha.isF && (tyM hd.ty).isSome && hb.ty == 0x10) (hd.count == ha.count && bl.isSome)
    (match tyM hd.ty, bl with
    | some el, some n =>
      s.vTry hd (s.vGot [ha]) fun ls t =>
        let l := ls.headD []
        let lo := t.vElem
        let hi := t.vHi ha.count
        let g := lanes sr t.me.rngVe (hi - lo)
        let xs := ((slice lo hi l).map ha.flt).zip g.1
        let qs := (groupsOf n ((hi - lo) / n) xs).map (quantBlock el rm)
        let fl := veFlags (qs.foldl (fun f q => f.join q.flags) {}) (qs.any (·.scaleUf))
        t.vPut ha.count hi
          (hb.outs (lo / n) (hi / n) (qs.map (·.code)) ++ hd.outs lo hi ((qs.map (·.elems)).flatten)) g.2 fl l
    | _, _ => .next s)

/-- VDEQ. -/
def execVdeq (d a b : BitVec 4) (rm : RMode) (s : State) : Res :=
  let hd := s.shape d
  let ha := s.shape a
  let hb := s.shape b
  let bl := blockLen ha.count hb.count
  s.vChecked [hd, ha, hb] (hd.isF && (tyM ha.ty).isSome && hb.ty == 0x10) (hd.count == ha.count && bl.isSome)
    (match tyM ha.ty, bl with
    | some el, some n =>
      s.vTry hd (s.vGot [ha, hb]) fun ls t =>
        let lo := t.vElem
        let hi := t.vHi ha.count
        let g := lanes (rm == .sr) t.me.rngVe (hi - lo)
        let es := (slice lo hi (ls.getD 0 [])).zip g.1
        let cs := slice (lo / n) (hi / n) (ls.getD 1 [])
        let one := fun (c : Nat) (x : Nat × Nat) =>
          if c = 255 then hd.rnd rm x.2 (.nan false, {})
          else hd.rnd rm x.2 ((el.decode x.1).scale ((c : Int) - 127), {})
        let rs := ((groupsOf n ((hi - lo) / n) es).zip cs).map (fun p => p.1.map (one p.2)) |>.flatten
        t.vPut ha.count hi (hd.outs lo hi (rs.map (·.1))) g.2 (veFlags (joinAll rs)) ls.flatten
    | _, _ => .next s)

/-! ## Transcendentals (R164, R65) -/

/-- A transcendental step. -/
def State.vtrans (s : State) (t : Trans) (d a : BitVec 4) (rm : RMode) : Res :=
  let hd := s.shape d
  let ha := s.shape a
  s.vChecked [hd, ha] (hd.isF && ha.isF) (countOk hd.count [ha])
    (s.vMap hd [ha] (rm == .sr) fun l w => hd.rnd rm w (transF t (ha.flt (l.headD 0))))

def execVexp2 (d a : BitVec 4) (rm : RMode) (s : State) : Res := s.vtrans .exp2 d a rm
def execVlog2 (d a : BitVec 4) (rm : RMode) (s : State) : Res := s.vtrans .log2 d a rm
def execVrcp (d a : BitVec 4) (rm : RMode) (s : State) : Res := s.vtrans .rcp d a rm
def execVrsqrt (d a : BitVec 4) (rm : RMode) (s : State) : Res := s.vtrans .rsqrt d a rm
def execVtanh (d a : BitVec 4) (rm : RMode) (s : State) : Res := s.vtrans .tanh d a rm

/-- VE_BULK_FAIL: shd is undefined (R15, R164); the fault follows its last byte. -/
def State.bulkFail (s : State) (hd : Shape) : Res :=
  let k := s.draw
  let o : OutW := { ws := hd.free k.1 0 hd.count, rng := s.me.rngVe, bad := true }
  match writeOuts .ve o.ws 0 k.2 with
  | .done t => .next (t.unitFault .ve .veBulkFail)
  | .wait t => .next ((k.2.waits t .ve).updEng s.cur .ve fun e => { e with outs := some o, read := true })
  | .err _ _ e => .next (k.2.unitAccFail .ve true e)

/-- VBULK: as the VE form; VE_BULK_FAIL when S0 cannot be reached. -/
def execVbulk (d a : BitVec 4) (rm : RMode) (f : Trans) (s : State) : Res :=
  let hd := s.shape d
  let ha := s.shape a
  s.vChecked [hd, ha] (hd.isF && ha.isF) (countOk hd.count [ha])
    (if s.s0Up s.cur then s.vtrans f d a rm else s.bulkFail hd)

/-! ## Reductions (R165, R67) -/

/-- Add into the partials of Table 2-11, element by element. -/
def sumParts : List Nat → Nat → List Nat → FFlags → List Nat × FFlags
  | [], _, p, fl => (p, fl)
  | x :: r, j, p, fl =>
    let a := add32 (p.getD (j % 32) 0) x
    sumParts r (j + 1) (listSet p (j % 32) a.1) (fl.join a.2)

/-- One fold of the partials: p[i] := p[i] + p[i + w]. -/
def foldParts (w : Nat) (p : List Nat) (fl : FFlags) : List Nat × FFlags :=
  let rs := (p.take w).zip (p.drop w) |>.map fun x => add32 x.1 x.2
  (rs.map (·.1), rs.foldl (fun f r => f.join r.2) fl)

/-- The sum of FP32 patterns in the order of Table 2-11. -/
def sumFixed (xs : List Nat) : Nat × FFlags :=
  let p := sumParts xs 0 (List.replicate 32 0x80000000) {}
  let q := [16, 8, 4, 2, 1].foldl (fun (q : List Nat × FFlags) w => foldParts w q.1 q.2) p
  (q.1.headD 0, q.2)

/-- Prefix sums of FP32 patterns (Table 2-11). -/
def scanFixed : List Nat → Nat → List (Nat × FFlags)
  | [], _ => []
  | x :: r, acc => let a := add32 acc x; a :: scanFixed r a.1

/-- The maximum of Table 2-8 over a list; any signalling NaN decides (R64). -/
def maxAll (xs : List FVal) : FVal × FFlags :=
  if xs.any FVal.isSig then (.nan false, { nv := true })
  else
    match xs with
    | [] => (.nan false, {})
    | x :: r => (r.foldl (fun m y => (fMinMax true m y).1) x, {})

/-- FP32 patterns of a class F shape's elements: an exact conversion (R49); signalling NaNs set NV and go in as the
default NaN. -/
def Shape.f32s (h : Shape) (l : List Nat) : List (Nat × FFlags) := l.map fun v => rne32 (h.flt v)

/-- A reduction to one element: `f` over class F values, `g` over exact integers. What the saved progress of R170 holds of
the lower groups (the partials, the running sum) is a function of the patterns that a stopped step keeps. -/
def State.vred (s : State) (d a : BitVec 4) (rm : RMode) (f : Shape → List Nat → FVal × FFlags)
    (g : List Int → Int) : Res :=
  let hd := s.shape d
  let ha := s.shape a
  let allF := hd.isF && ha.isF
  s.vChecked [hd, ha] (allF || (hd.isI && ha.isI)) (hd.count == 1)
    (s.vTry hd (s.vGot [ha]) fun ls t =>
      let l := ls.headD []
      let hi := t.vHi ha.count
      if hi < ha.count then
        .next (t.updEng t.cur .ve fun e => { e with elem := hi, limit := none, parts := l })
      else
        let gen := lanes (allF && rm == .sr) t.me.rngVe 1
        let r := if allF then hd.rnd rm (gen.1.headD 0) (f ha l) else (hd.wrap (g (l.map ha.int)), {})
        t.vPut 0 0 (hd.outs 0 1 [r.1]) gen.2 (veFlags r.2))

def sumInts (l : List Int) : Int := l.foldl (· + ·) 0

def maxInts : List Int → Int
  | [] => 0
  | x :: r => r.foldl max x

def execVrsum (d a : BitVec 4) (rm : RMode) (s : State) : Res :=
  s.vred d a rm (fun h l =>
    let xs := h.f32s l
    let r := sumFixed (xs.map (·.1))
    (fp32.decode r.1, (joinAll xs).join r.2)) sumInts
def execVrmax (d a : BitVec 4) (rm : RMode) (s : State) : Res :=
  s.vred d a rm (fun h l => maxAll (l.map h.flt)) maxInts
def execVamax (d a : BitVec 4) (rm : RMode) (s : State) : Res :=
  s.vred d a rm (fun h l => maxAll (l.map fun v => (h.flt v).abs)) fun l => maxInts (l.map fun x => (x.natAbs : Int))

/-- Exact prefix sums. -/
def scanInts : List Int → Int → List Int
  | [], _ => []
  | x :: r, acc => (acc + x) :: scanInts r (acc + x)

/-- VSCAN. -/
def execVscan (d a : BitVec 4) (rm : RMode) (s : State) : Res :=
  let hd := s.shape d
  let ha := s.shape a
  let allF := hd.isF && ha.isF
  s.vChecked [hd, ha] (allF || (hd.isI && ha.isI)) (hd.count == ha.count)
    (s.vTry hd (s.vGot [ha]) fun ls t =>
      let l := ls.headD []
      let lo := t.vElem
      let hi := t.vHi hd.count
      let gen := lanes (allF && rm == .sr) t.me.rngVe (hi - lo)
      let rs :=
        if allF then
          let xs := ha.f32s l
          let sums := slice lo hi (scanFixed (xs.map (·.1)) 0x80000000)
          let out := (sums.zip gen.1).map fun p => hd.rnd rm p.2 (fp32.decode p.1.1, p.1.2)
          (out.zip (slice lo hi xs)).map fun p => (p.1.1, p.1.2.join p.2.2)
        else (slice lo hi (scanInts (l.map ha.int) 0)).map fun x => (hd.wrap x, {})
      t.vPut hd.count hi (hd.outs lo hi (rs.map (·.1))) gen.2 (veFlags (joinAll rs)) l)

/-! ## Gather, scatter, copy and fill (R166, R167) -/

/-- The physical pieces of an extent's global image through the core's window table (R249). -/
def Core.imageOf (c : Core) (runs : List (Nat × Nat)) : List (Nat × Nat) :=
  runs.flatMap fun r => c.win.toList.filterMap fun w =>
    match w with
    | some w =>
      let lo := Nat.max r.1 w.spad
      let hi := Nat.min (r.1 + r.2) (w.spad + w.size)
      if lo < hi then some (w.global + (lo - w.spad), hi - lo) else none
    | none => none

/-- A byte range meets a list of ranges. -/
def hits (rs : List (Nat × Nat)) (a n : Nat) : Bool := rs.any fun r => decide (r.1 < a + n ∧ a < r.1 + r.2)

/-- The index checks of R166, index by index: the first failure and its address. -/
def State.vIndexFail (s : State) (sp : Bool) (size : Nat) (ext : List (Nat × Nat)) : List Int → Option (Cause × Int × Nat)
  | [] => none
  | a :: r =>
    if a % size ≠ 0 then some (.align, a, 0)
    else if sp && decide (a < 0 ∨ a + size > 0x200000) then some (.spadRange, a, 0)
    else if !sp && decide (a < 0 ∨ a + size > 2 ^ 56) then some (.addrRange, a, 0)
    else
      let img := s.me.imageOf ext
      let bad := if sp then hits ext a.toNat size || hitsImage s a.toNat size img else hits img a.toNat size
      if bad then some (.veOverlap, a, 0) else (s.vIndexFail sp size ext r).map fun x => (x.1, x.2.1, x.2.2 + 1)
where
  /-- A scratchpad byte inside a window is the window location (R72). -/
  hitsImage (s : State) (off n : Nat) (img : List (Nat × Nat)) : Bool :=
    (s.me.imageOf [(off, n)]).any fun r => hits img r.1 r.2

/-- A global address from an I64 or U64 index, or an offset. -/
def Shape.index (h : Shape) (v : Nat) : Int := h.int v

/-- A gather or scatter stands at element `j` and has done the lower ones. -/
def State.vAt (s : State) (j : Nat) : State := s.updEng s.cur .ve fun e => e.goOn j s.me.sched

/-- Read the elements of a gather up to the first that fails: each is one access (R166). -/
def readElems (sp : Bool) (size : Nat) : List Nat → List (List Byte) → State → Try (List (List Byte) × Option AccErr)
  | [], acc, s => .ok (acc.reverse, none) s
  | a :: r, acc, s =>
    match s.rdA s.cur 0 sp a size with
    | .ok b s => readElems sp size r (b :: acc) s
    | .wait s => .wait s
    | .err e => .ok (acc.reverse, some e) s

/-- A gather has read its elements from `lo` on, before it writes any (R81), up to one that fails: the lower ones are
written, and the destination of an element whose read has failed for good is undefined (R321). -/
def State.gatherPut (s : State) (d : Shape) (lo : Nat) (bss : List (List Byte)) (stop : Option AccErr) : Res :=
  let j := lo + bss.length
  let ws := bss.zipIdx.map fun b => (true, (d.off (lo + b.2)).toNat, b.1)
  match stop with
  | none => s.unitOut .ve { ws := ws, rng := s.me.rngVe } (fun t => .next (t.unitDone .ve)) (some lo)
  | some e =>
    let k := s.draw
    let lost := match e with
      | .refused _ => d.free k.1 j (j + 1)
      | _ => []
    k.2.unitOut .ve { ws := ws ++ lost } (fun t => .next ((t.vAt j).unitAccFail .ve false e)) (some lo) false

/-- Elements of a scatter; one that writes a window tile leaves nothing undone where a later one waits, as no forwarded
request may come between (R250): `o` is the state before them. -/
def scatterFrom (o : State) (sp : Bool) (size : Nat) : List (Nat × Int × Nat) → State → Res
  | [], s => .next (s.unitDone .ve)
  | (j, a, v) :: r, s =>
    match s.unitWr .ve sp a.toNat (leBytes size v) with
    | .ok f t => scatterFrom o sp size r (t.noteFail f)
    | .wait t =>
      if s.meetsDir s.cur 0 sp a.toNat size then .next (o.waits t .ve)
      else .next (((s.waits t .ve).vAt j).updEng s.cur .ve fun e => { e with read := true })
    | .err e => .next ((s.vAt j).unitAccFail .ve true e)

/-- The patterns that a gather or scatter reads before its first element, and keeps until its end (R81, R170). -/
def State.vOnce (s : State) (l : List Nat) : State × List Nat :=
  if s.me.ve.parts.isEmpty then (s.updEng s.cur .ve fun e => { e with parts := l }, l) else (s, s.me.ve.parts)

/-- The element types that a gather or scatter may move: no packed one and not MXINT8 (R166, R167). -/
def Shape.movable (h : Shape) : Bool := !h.packed && h.ty != 8

/-- VGATHER. -/
def execVgather (d a : BitVec 4) (_rm : BitVec 3) (s : State) : Res :=
  let hd := s.shape d
  let ha := s.shape a
  let sp := ha.width == 32
  s.vChecked [hd, ha] (ha.isI && (ha.width == 32 || ha.width == 64) && hd.movable) (countOk hd.count [ha])
    (s.vTry hd (s.vGot [ha]) fun ls t =>
      let k := t.vOnce (ls.headD [])
      let ix := (bcast hd.count k.2).map ha.index
      match if t.vElem = 0 then t.vIndexFail sp hd.size hd.runs ix else none with
      | some (c, x, j) => .next (t.unitFault .ve c (addr := BitVec.ofInt 64 x) (elem := some j))
      | none =>
        match readElems sp hd.size ((ix.drop t.vElem).map Int.toNat) [] k.1 with
        | .ok o u => u.gatherPut hd t.vElem o.1 o.2
        | .wait u => .next (k.1.waits u .ve)
        | .err e => .next (k.1.unitAccFail .ve false e))

/-- VSCATTER. -/
def execVscatter (a b : BitVec 4) (_rm : BitVec 3) (s : State) : Res :=
  let ha := s.shape a
  let hb := s.shape b
  let sp := ha.width == 32
  s.vChecked [ha, hb] (ha.isI && (ha.width == 32 || ha.width == 64) && hb.movable) (countOk ha.count [hb])
    (s.unitTry .ve false (if s.me.ve.parts.isEmpty then s.vReads [ha, hb] else .ok [] s) fun ls t =>
      let k := t.vOnce (ls.getD 0 [] ++ bcast ha.count (ls.getD 1 []))
      let ix := (k.2.take ha.count).map ha.index
      match if t.vElem = 0 then t.vIndexFail sp hb.size hb.runs ix else none with
      | some (c, x, j) => .next (t.unitFault .ve c (addr := BitVec.ofInt 64 x) (wr := true) (elem := some j))
      | none =>
        scatterFrom k.1 sp hb.size (((List.range ha.count).zip (ix.zip (k.2.drop ha.count))).drop t.vElem) k.1)

/-- VCOPY. -/
def execVcopy (d a : BitVec 4) (_rm : BitVec 3) (s : State) : Res :=
  let hd := s.shape d
  let ha := s.shape a
  s.vChecked [hd, ha] (hd.width == ha.width) (countOk hd.count [ha])
    (s.vMap hd [ha] false fun l _ => (l.headD 0, {}))

/-- SHSET (R153): reserved bits are stored as 0. -/
def execShset (d : BitVec 4) (q : Src) (_rm : BitVec 3) (s : State) : Res :=
  let v := s.ev .ve q &&& 0x1FFFFFFFFF1FFFFF
  .next ((s.upd fun c => { c with sh := vset c.sh d.toNat v }).unitDone .ve)

/-- VFILL. -/
def execVfill (d : BitVec 4) (q : Src) (rm : RMode) (s : State) : Res :=
  let hd := s.shape d
  s.vChecked [hd] (hd.isF || (hd.isI && !q.isFloat)) true
    (s.vMap hd [] (hd.isF && rm == .sr) fun _ w =>
      if hd.isF then hd.rnd rm w (fp32.decode (q.fval (s.cap .ve)), {}) else (hd.wrap (s.ev .ve q).toInt, {}))

/-- VIOTA. -/
def execViota (d : BitVec 4) (q : Src) (_rm : BitVec 3) (s : State) : Res :=
  let hd := s.shape d
  let lo := s.vElem
  let hi := s.vHi hd.count
  s.vChecked [hd] (hd.isI && !q.isFloat) true
    (s.vPut hd.count hi
      (hd.outs lo hi ((List.range (hi - lo)).map fun (i : Nat) => hd.wrap ((s.ev .ve q).toInt + ((lo + i : Nat) : Int))))
      s.me.rngVe 0)

/-! ## Run and end (R169) -/

def execVrun (e : BitVec 12) (s : State) : Res := .next (s.enterProg .ve e.toNat)
def execVend (s : State) : Res := .next (s.updEng s.cur .ve fun e => e.finish 0)

/-! ## Chains (R168) -/

/-- What a chain checks of one step: destination, sources, length and rm = SR. -/
structure Link where
  d : BitVec 4
  srcs : List (BitVec 4)
  sr : Bool

/-- The operands of a chainable word. -/
def linkOf : Instr → Option Link
  | .vadd d a b rm | .vsub d a b rm | .vmul d a b rm | .vmin d a b rm | .vmax d a b rm => some ⟨d, [a, b], rm == .sr⟩
  | .vand d a b _ | .vor d a b _ | .vxor d a b _ | .vshl d a b _ | .vshr d a b _ => some ⟨d, [a, b], false⟩
  | .vcmp d a b _ _ => some ⟨d, [a, b], false⟩
  | .vfma d a b c rm | .vsel d a b c rm => some ⟨d, [a, b, c], rm == .sr⟩
  | .vabs d a rm | .vneg d a rm | .vcvt d a rm | .vexp2 d a rm | .vlog2 d a rm | .vrcp d a rm | .vrsqrt d a rm
  | .vtanh d a rm => some ⟨d, [a], rm == .sr⟩
  | .vaddVs d a _ rm | .vsubVs d a _ rm | .vmulVs d a _ rm | .vminVs d a _ rm | .vmaxVs d a _ rm =>
    some ⟨d, [a], rm == .sr⟩
  | .vandVs d a _ _ | .vorVs d a _ _ | .vxorVs d a _ _ | .vshlVs d a _ _ | .vshrVs d a _ _ => some ⟨d, [a], false⟩
  | .vcmpVs d a _ _ _ => some ⟨d, [a], false⟩
  | .vfill d _ rm => some ⟨d, [], rm == .sr⟩
  | .viota d _ _ => some ⟨d, [], false⟩
  | _ => none

/-- One step of a chain, or of a probe of its checks. -/
def execLink (i : Instr) (s : State) : Res :=
  match i with
  | .vadd d a b rm => execVadd d a b rm s
  | .vsub d a b rm => execVsub d a b rm s
  | .vmul d a b rm => execVmul d a b rm s
  | .vmin d a b rm => execVmin d a b rm s
  | .vmax d a b rm => execVmax d a b rm s
  | .vand d a b rm => execVand d a b rm s
  | .vor d a b rm => execVor d a b rm s
  | .vxor d a b rm => execVxor d a b rm s
  | .vshl d a b rm => execVshl d a b rm s
  | .vshr d a b rm => execVshr d a b rm s
  | .vcmp d a b rm k => execVcmp d a b rm k s
  | .vfma d a b c rm => execVfma d a b c rm s
  | .vsel d a b c rm => execVsel d a b c rm s
  | .vabs d a rm => execVabs d a rm s
  | .vneg d a rm => execVneg d a rm s
  | .vcvt d a rm => execVcvt d a rm s
  | .vexp2 d a rm => execVexp2 d a rm s
  | .vlog2 d a rm => execVlog2 d a rm s
  | .vrcp d a rm => execVrcp d a rm s
  | .vrsqrt d a rm => execVrsqrt d a rm s
  | .vtanh d a rm => execVtanh d a rm s
  | .vaddVs d a q rm => execVaddVs d a q rm s
  | .vsubVs d a q rm => execVsubVs d a q rm s
  | .vmulVs d a q rm => execVmulVs d a q rm s
  | .vminVs d a q rm => execVminVs d a q rm s
  | .vmaxVs d a q rm => execVmaxVs d a q rm s
  | .vandVs d a q rm => execVandVs d a q rm s
  | .vorVs d a q rm => execVorVs d a q rm s
  | .vxorVs d a q rm => execVxorVs d a q rm s
  | .vshlVs d a q rm => execVshlVs d a q rm s
  | .vshrVs d a q rm => execVshrVs d a q rm s
  | .vcmpVs d a q rm k => execVcmpVs d a q rm k s
  | .vfill d q rm => execVfill d q rm s
  | .viota d q rm => execViota d q rm s
  | _ => .next s

/-- The words of a chain after its VCHAIN; none where one is not chainable or the span passes word 4,095. -/
def Core.chainWords (c : Core) (n : Nat) : Option (List Instr) :=
  let e := c.ve
  if e.upc + n > 4095 then none
  else
    (List.range n).mapM fun k =>
      match decodeIn .vsec (c.imem.rdN (sectBase .ve + 4 * (e.upc + 1 + k)) 4) with
      | .ok i => if (linkOf i).isSome then some i else none
      | .error _ => none

/-- VE_CHAIN (R168). -/
def State.chainBad (s : State) (ls : List Link) : Bool :=
  let sh := fun r => s.shape r
  let lens := ls.map fun l => (sh l.d).count
  let ops := ls.flatMap fun l => (sh l.d, true) :: l.srcs.map fun r => (sh r, false)
  lens.any (fun n => n != lens.headD 0)
    || ls.any (fun l => (sh l.d).stride == 0 && decide ((sh l.d).count > 1))
    || decide ((ls.filter fun l => l.sr).length > 1)
    || ops.any fun x => ops.any fun y => (x.2 || y.2) && x.1.w != y.1.w && x.1.meets y.1

/-- The first step of a chain whose checks fail: what its fault leaves. R171 orders the checks of one step; between the
steps of a chain the model goes step by step, and the frame names the VCHAIN word (assumption 65). -/
def chainCheck (s : State) : List Instr → Option State
  | [] => none
  | i :: r =>
    match s.probe (execLink i) with
    | some t => some t
    | none => chainCheck s r

/-- Run the steps of a chain one after another, each from element `lo` to the chain's limit; the state of the step that
waits, if one does. -/
def chainRun (lo : Nat) (lim : Option Nat) : List Instr → State → Except State State
  | [], s => .ok s
  | i :: r, s =>
    let s := s.updEng s.cur .ve fun e => { e with elem := lo, limit := lim, parts := [] }
    match execLink i s with
    | .next t =>
      let done := if lim.isSome then t.me.ve.limit.isNone else t.me.ve.upc != s.me.ve.upc
      if done then chainRun lo lim r t else .error t
    | _ => .error s

/-- VCHAIN: the checks of every step before element 0, then the steps; a wait leaves the whole chain to be tried
again. -/
def execVchain (n : BitVec 3) (s : State) : Res :=
  match s.me.chainWords (n.toNat + 1) with
  | none => .next (s.unitIllegal .ve (s.me.unitWord .ve))
  | some is =>
    match chainCheck s is with
    | some t => .next t
    | none =>
      if s.chainBad (is.filterMap linkOf) then .next (s.unitFault .ve .veChain)
      else
        let lim := s.me.ve.limit
        match chainRun s.vElem lim is (if lim.isSome then s else s.unitDone .ve) with
        | .ok t => .next (t.updEng t.cur .ve fun e => { e with parts := [] })
        | .error t =>
          if t.me.status = s.me.status ∧ t.me.call = s.me.call ∧ t.me.heldFaults = s.me.heldFaults ∧ t.me.uc = s.me.uc then
            .next (s.waits t .ve)
          else .next t

end Sys2Proof.Machine
end

