-- ==== Sys2Proof/Machine/Matrix.lean ====
section
/-! DEFINITION. Matrix engine steps (R172-R185): format words, tiles, MMA and MMAS, narrowing, ownership of arrays. A
step acts on the entry that the ME of the current core executes. -/

namespace Sys2Proof.Machine

/-! ## Format words (R53-R55) -/

/-- Element formats of Table 2-5, as elements; FP32 has a width only. -/
def mmFmt : Nat → Option MxElem
  | 1 => some (.flt bf16)
  | 2 => some (.flt fp16)
  | 3 | 5 => some (.flt e4m3)
  | 4 | 6 => some (.flt e5m2)
  | 7 => some (.flt e2m3)
  | 8 => some (.flt e3m2)
  | 9 => some (.flt e2m1)
  | 10 => some (.int 8)
  | 11 => some (.int 6)
  | 12 => some (.int 4)
  | _ => none

/-- Width in bits of a format code; 0 when reserved. -/
def mmWidth : Nat → Nat
  | 0 => 32
  | 1 | 2 => 16
  | 3 | 4 | 5 | 6 | 10 => 8
  | 7 | 8 | 11 => 6
  | 9 | 12 => 4
  | _ => 0

/-- An MX code: its blocks carry scale codes. -/
def mmScaled (c : Nat) : Bool := decide (5 ≤ c ∧ c ≤ 12)

/-- Digits of Table 2-5. -/
def mmDigits : Nat → Nat
  | 9 => 1
  | 10 => 4
  | 11 => 3
  | _ => 2

/-- A legal pairing of R54. -/
def mmPair (a b : Nat) : Bool :=
  (a == 1 && b == 1) || (a == 2 && b == 2) || ((a == 3 || a == 4) && (b == 3 || b == 4)) || (mmScaled a && mmScaled b)

/-- The GANG code that R55 gives. -/
def mmGang (a b : Nat) : Nat :=
  if a ≤ 2 then 0
  else
    let f := if a ≥ 10 ∧ b ≥ 10 then 1 else 2
    match min 4 (16 / (f * mmDigits a * mmDigits b)) with
    | 1 => 0
    | 2 => 1
    | _ => 2

/-- The fields of a popped word stand for an MMA, or an MMAS (R53-R55, R178). -/
def fmtOkMma (w : BitVec 128) (sparse : Bool) : Bool :=
  let n := w.toNat
  let a := bitsOf n 0 4
  let b := bitsOf n 4 4
  bitsOf n 19 45 == 0 && mmPair a b && bitsOf n 9 2 == mmGang a b && (bitsOf n 11 1 == 1) == sparse

def rmOfCode (k : Nat) : RMode :=
  match k with
  | 0 => .rne
  | 1 => .rz
  | 2 => .ru
  | 3 => .rd
  | _ => .sr

/-- The fields of a popped word stand for an MNARROW. -/
def fmtOkNarrow (w : BitVec 128) : Bool :=
  let n := w.toNat
  bitsOf n 19 45 == 0 && decide (bitsOf n 12 3 ≤ 4 ∧ bitsOf n 15 4 ≤ 4)

/-! ## Arrays and tiles (R175, R176) -/

/-- A field offset by the running nest's indices; `lo` is the stride's bit (R175). -/
def Core.eff (c : Core) (x : BitVec 4) (lo : Nat) : Nat :=
  let ts := c.me.idx.toList.zip c.meActive.loops.toList
  (x.toNat + (ts.map fun p => p.1 * fld p.2 lo 4).foldl (· + ·) 0) % 16

def Core.effD (c : Core) (x : BitVec 4) : Nat := c.eff x 16
def Core.effA (c : Core) (x : BitVec 4) : Nat := c.eff x 20
def Core.effB (c : Core) (x : BitVec 4) : Nat := c.eff x 24

/-- The slots that the active MASK selects with their arrays; none when the mask is 0 or names an empty slot. -/
def Core.selected (c : Core) (n : Nat) : Option (List (Nat × Nat)) :=
  let ks := (List.range 4).filter fun k => c.meActive.asel.getLsbD k
  if ks.isEmpty then none else ks.mapM fun k => (c.slotArray n k).map fun a => (k, a)

/-- A tile descriptor (Table 8-2). -/
structure Tdesc where
  fmt : Nat
  krow : Bool
  rows : Nat
  cols : Nat
  deriving DecidableEq, Repr

def Core.tdesc (c : Core) (t : Nat) : Tdesc :=
  let w := vget c.meActive.tdesc 0 t
  ⟨fld w 0 4, fld w 4 1 == 1, fld w 8 11, fld w 19 11⟩

/-- A descriptor that names a format and sizes within their limits. -/
def Tdesc.valid (d : Tdesc) : Bool := decide (d.fmt ≤ 12 ∧ 1 ≤ d.rows ∧ d.rows ≤ 1024 ∧ 1 ≤ d.cols ∧ d.cols ≤ 1024)

/-- Bytes of a tile's elements. -/
def Tdesc.elemBytes (d : Tdesc) : Nat := (mmWidth d.fmt * d.rows * d.cols + 7) / 8

/-- SOFF of R176. -/
def Tdesc.soff (d : Tdesc) : Nat := 64 * ((mmWidth d.fmt * d.rows * d.cols + 511) / 512)

/-- Bytes that a use with `codes` scale codes needs. -/
def Tdesc.need (d : Tdesc) (codes : Nat) : Nat := if mmScaled d.fmt then d.soff + codes else d.elemBytes

def tileBase (t : Nat) : Nat := t * 16384
def accBase (t : Nat) : Nat := t * 2048

/-- `n` successive elements of `w` bits from element `i` of a tile. -/
def tileElems (m : Memory) (base w i n : Nat) : List Nat :=
  let bit := w * i
  let bytes := (bit % 8 + w * n + 7) / 8
  bitFields w n (m.rdN (base + bit / 8) bytes / 2 ^ (bit % 8))

/-! ## Faults and waits of the ME -/

def State.meFault (s : State) (c : Cause) (sub : Nat := 0) (info0 : Word := 0) : State :=
  s.unitFault .me c (sub := sub) (info0 := info0)

/-- A step that ends an undercoat launch (R301). -/
def State.unitNotUc (s : State) (f : Res) : Res :=
  match s.me.uc with
  | some id => .next (s.discardUc id 5)
  | none => f

/-- The step is done: progress and the held word go. -/
def State.meDone (s : State) (fl : BitVec 64) : State :=
  (s.upd fun c => { c with fmtHeld := none, meProg := Vector.replicate 4 0, meFlags := 0 }).unitDone .me fl

/-- Ownership (R177, check 1). A step on an array whose M-die is cut off waits for the link (R3). -/
def State.meOwned (s : State) (k : List (Nat × Nat) → Res) : Res :=
  match s.me.selected s.cur with
  | none => .next (s.meFault .meOwn)
  | some ks => if ks.all fun x => s.arrayUp s.cur x.2 then k ks else .next s

/-- The format word of the step: the one it holds, or the next of the queue (checks 2 and 3). A popped word stays
consumed, and with the step, which takes no second one if it is tried again (R177, R309). -/
def State.mePop (s : State) (ok : BitVec 128 → Bool) (k : BitVec 128 → State → Res) : Res :=
  match s.me.fmtHeld, s.me.fmtq with
  | some w, _ => if ok w then k w s else .next (s.meFault .fmtInvalid)
  | none, [] => .next (s.meFault .fmtqUnderflow)
  | none, w :: r =>
    let t := s.upd fun c => { c with fmtq := r, fmtHeld := some w }
    if ok w then k w t else .next (t.meFault .fmtInvalid)

/-! ## MMA and MMAS (R178-R180) -/

/-- What an MMA needs to know of its operands. -/
structure MmaUse where
  da : Tdesc
  db : Tdesc
  ta : Nat
  tb : Nat
  ac : Nat
  /-- Block length and K. -/
  b : Nat
  k : Nat
  sparse : Bool

/-- The descriptor checks of R178. -/
def MmaUse.shapeOk (u : MmaUse) (fa fb : Nat) : Bool :=
  u.da.valid && u.db.valid && u.db.krow && u.db.cols == 16 && u.db.fmt == fb && !u.da.krow && u.da.rows == 32
    && u.da.fmt == fa && (if u.sparse then 2 * u.da.cols == u.k else u.da.cols == u.k)
    && decide (u.da.need (32 * (u.k / u.b)) ≤ 16384 ∧ u.db.need (u.k / u.b * 16) ≤ 16384)

/-- The logical elements of a row of a sparse block: kept elements placed by the entry's nibbles; none where a nibble
breaks first < second (R179). -/
def unsparse : List Nat → List Nat → Option (List (Option Nat))
  | [], _ => some []
  | m :: ms, kept =>
    let i := m % 4
    let j := m / 4
    if i < j then
      (unsparse ms (kept.drop 2)).map fun r =>
        ((List.range 4).map fun p => if p = i then kept[0]? else if p = j then kept[1]? else none) ++ r
    else none

/-- Bytes of the sparsity entry of one block (R179). -/
def MmaUse.entryLen (u : MmaUse) : Nat := if u.b = 16 then 64 else 128

/-- One block of one array: the new accumulators (row by row) and the flags; none: ME_SPARSE. -/
def mmaBlock (u : MmaUse) (ma mb acc : Memory) (kb : Nat) (meta_ : List Byte) : Option (List (Nat × FFlags) × Bool) :=
  let wa := mmWidth u.da.fmt
  let wb := mmWidth u.db.fmt
  let ea := fun v => match mmFmt u.da.fmt with
    | some f => f.decode v
    | none => FVal.nan false
  let eb := fun v => match mmFmt u.db.fmt with
    | some f => f.decode v
    | none => FVal.nan false
  let n := if u.sparse then u.b / 2 else u.b
  let nibs := bitFields 4 (32 * (u.b / 4)) (leNat meta_)
  let rowA := fun r =>
    let raw := tileElems ma (tileBase u.ta) wa (r * u.da.cols + kb * n) n
    if u.sparse then
      (unsparse ((nibs.drop (r * (u.b / 4))).take (u.b / 4)) raw).map fun l =>
        l.map fun x => match x with
          | some v => ea v
          | none => FVal.fin false 0 0
    else some (raw.map ea)
  match if u.sparse && meta_.length != u.entryLen then none else (List.range 32).mapM rowA with
  | none => none
  | some rows =>
    let bRows := (List.range u.b).map fun j => (tileElems mb (tileBase u.tb) wb ((kb * u.b + j) * 16) 16).map eb
    let colB := fun c => bRows.map fun l => l.getD c (.nan false)
    let cols := (List.range 16).map colB
    let ca := fun r => if mmScaled u.da.fmt then
        (ma.rd (tileBase u.ta + u.da.soff + r * (u.k / u.b) + kb)).toNat else 127
    let cb := fun c => if mmScaled u.db.fmt then (mb.rd (tileBase u.tb + u.db.soff + kb * 16 + c)).toNat else 127
    let old := chunks 4 512 (acc.rdBytes (accBase u.ac) 2048)
    let cell := fun r c =>
      let t := blockTerm ((rows.getD r []).zip (cols.getD c [])) (ca r) (cb c)
      let a := add32 (old.getD (r * 16 + c) 0) t.1
      (a.1, t.2.join a.2)
    let new := (List.range 32).flatMap fun r => (List.range 16).map fun c => cell r c
    let nan := (List.range 32).any (fun r => ca r == 255) || (List.range 16).any fun c => cb c == 255
    some (new, nan)

/-- How the blocks of one array end. -/
inductive MmaEnd
  | done
  /-- The sparsity queue is empty. -/
  | wait
  | sparse
  | remote

/-- Blocks `kb`, `kb + 1`, … of one array (slot `k`, array `a`), `fuel` of them. -/
def mmaBlocks (u : MmaUse) (k a aA aB : Nat) : Nat → Nat → State → MmaEnd × State
  | 0, _, s => (.done, s)
  | f + 1, kb, s =>
    let arr := s.array a
    let die := arrayDie a
    if !(s.dieReach die (arrayDie aA) && s.dieReach die (arrayDie aB)) then (.remote, s)
    else
      match if u.sparse then arr.sparse.head? else some [] with
      | none => (.wait, s)
      | some m =>
        match mmaBlock u (s.array aA).tiles (s.array aB).tiles arr.accs kb m with
        | none => (.sparse, s)
        | some (rs, nan) =>
          let bs := (rs.map fun r => leBytes 4 r.1).flatten
          let arr := { arr with
            accs := arr.accs.wrBytes (accBase u.ac) bs
            sparse := if u.sparse then arr.sparse.drop 1 else arr.sparse }
          let s := (s.setArray a arr).upd fun c =>
            { c with meProg := vset c.meProg k (kb + 1), meFlags := c.meFlags ||| meFlags (joinAll rs) nan }
          mmaBlocks u k a aA aB f (kb + 1) s

/-- Every selected array in turn, at most `lim` blocks of each: the first fault, or whether one waits. -/
def mmaArrays (u : MmaUse) (src : Nat × Nat → Nat × Nat) (lim : Nat) : List (Nat × Nat) → MmaEnd → State → MmaEnd × State
  | [], e, s => (e, s)
  | ka :: r, e, s =>
    let start := vget s.me.meProg 0 ka.1
    let ab := src ka
    let o := mmaBlocks u ka.1 ka.2 ab.1 ab.2 (Nat.min lim (u.k / u.b - start)) start s
    let e := match e, o.1 with
      | .done, x => x
      | .wait, .sparse => .sparse
      | .wait, .remote => .remote
      | x, _ => x
    mmaArrays u src lim r e o.2

/-- The operands of an MMA with its format word. -/
def Core.mmaUse (c : Core) (w : BitVec 128) (sparse : Bool) (d a b : BitVec 4) : MmaUse :=
  let ta := c.effA a
  let tb := c.effB b
  let db := c.tdesc tb
  { da := c.tdesc ta, db := db, ta := ta, tb := tb, ac := c.effD d
    b := if bitsOf w.toNat 8 1 = 1 then 16 else 32, k := db.rows, sparse := sparse }

/-- The array of the remote operands (R180), if there are any; none where q names no array. -/
def State.mmaSrc (s : State) (m : BitVec 2) (q : BitVec 7) : Option (Option Nat) :=
  let v := s.ev .me (srcOfField q.toNat)
  if m.toNat != 0 then (if fld v 2 62 = 0 then (s.me.slotArray s.cur (fld v 0 2)).map some else none) else some none

/-- The arrays whose tiles A and B a selected array reads. -/
def mmaPick (m : BitVec 2) (src : Option Nat) (ka : Nat × Nat) : Nat × Nat :=
  (if m.getLsbD 0 then src.getD ka.2 else ka.2, if m.getLsbD 1 then src.getD ka.2 else ka.2)

/-- MMA and MMAS. -/
def State.mma (s : State) (sparse : Bool) (d a b : BitVec 4) (m : BitVec 2) (q : BitVec 7) : Res :=
  s.meOwned fun ks =>
    match s.mmaSrc m q with
    | none => .next (s.meFault .meOwn)
    | some src =>
      s.mePop (fmtOkMma · sparse) fun w t =>
        let u := s.me.mmaUse w sparse d a b
        if !u.shapeOk (bitsOf w.toNat 0 4) (bitsOf w.toNat 4 4) then .next (t.meFault .meShape)
        else if u.k % u.b ≠ 0 then .next (t.meFault .fmtInvalid)
        else
          let o := mmaArrays u (mmaPick m src) (u.k / u.b) ks .done t
          match o.1 with
          | .done => .next (o.2.meDone o.2.me.meFlags)
          | .wait => .next o.2
          | .sparse =>
            if o.2.me.live s.frameClk then
              .next ((o.2.upd fun c => { c.post c.meFlags with meFlags := 0 }).meFault .meSparse)
            else .next (o.2.updEng o.2.cur .me fun e => { e with due := none })
          | .remote => .next (o.2.meFault .meRemote)

/-- An MMA or MMAS in progress on the current core that a transfer of a remote operand is under way for (R180); one of
whose arrays waits at its own empty sparsity queue asks for none (R185). -/
def State.mmaRemote (s : State) : Bool :=
  let far := fun (sparse : Bool) (m : BitVec 2) (q : BitVec 7) =>
    match s.mmaSrc m q, s.me.selected s.cur with
    | some (some x), some ks => ks.any fun k => k.2 != x && !(sparse && (s.array k.2).sparse.isEmpty)
    | _, _ => false
  s.me.me.due.isSome &&
    match s.me.unitInstr .me with
    | .ok (.mma _ _ _ m q) => far false m q
    | .ok (.mmas _ _ _ m q) => far true m q
    | _ => false

/-- The quotient rounded up. -/
def cdiv (a b : Nat) : Nat := (a + b - 1) / b

/-- Whether some selected array reads its A, or its B, from another one (R180). -/
def State.mmaFar (s : State) (m : BitVec 2) (q : BitVec 7) (j : Nat) : Bool :=
  match s.mmaSrc m q, s.me.selected s.cur with
  | some (some x), some ks => m.getLsbD j && ks.any fun k => k.2 != x
  | _, _ => false

/-- The times of an MMA or MMAS with the format word that it pops (Table 11-3, R284): blocks from the saved one to the
last, cycles of a block, and the cycles that the whole step adds. -/
def State.mmaTimes (s : State) (sparse : Bool) (a b : BitVec 4) (m : BitVec 2) (q : BitVec 7) : Nat × Nat × Nat :=
  let c := s.me
  let w := (match c.fmtHeld with
    | some w => w
    | none => c.fmtq.headD 0).toNat
  let bl := if bitsOf w 8 1 = 1 then 16 else 32
  let g := 2 ^ bitsOf w 9 2 * (if sparse then 2 else 1)
  let da := c.tdesc (c.effA a)
  let db := c.tdesc (c.effB b)
  let nb := db.rows / bl
  let far := fun (j : Nat) (d : Tdesc) (codes : Nat) => if s.mmaFar m q j then 60 + cdiv (d.need codes) 256 else 0
  let saved := ((List.range 4).filter fun k => c.meActive.asel.getLsbD k).foldl
    (fun x k => Nat.min x (vget c.meProg 0 k)) nb
  (nb - saved, cdiv bl g, 48 + far 0 da (32 * nb) + far 1 db (16 * nb))

/-- A freeze of an MMA or MMAS in progress, due in SCHED_CLK cycle `due` (R184, R284): the blocks that have left the
pipeline are committed, and the step owes what the rest takes from its saved point. -/
def State.mmaStop (s : State) (sparse : Bool) (d a b : BitVec 4) (m : BitVec 2) (q : BitVec 7) (due : Nat) : State :=
  let c := s.me
  match c.selected s.cur, s.mmaSrc m q, c.fmtHeld with
  | some ks, some src, some w =>
    let t := s.mmaTimes sparse a b m q
    let u := c.mmaUse w sparse d a b
    let spent := t.2.2 + t.1 * t.2.1 - (due - c.sched)
    let r := (mmaArrays u (mmaPick m src) (Nat.min t.1 ((spent - t.2.2) / t.2.1)) ks .done s).2
    let t := r.mmaTimes sparse a b m q
    r.updEng r.cur .me fun e => { e with due := some (c.sched + t.2.2 + t.1 * t.2.1) }
  | _, _, _ => s

def execMma (d a b : BitVec 4) (m : BitVec 2) (q : BitVec 7) (s : State) : Res := s.mma false d a b m q
def execMmas (d a b : BitVec 4) (m : BitVec 2) (q : BitVec 7) (s : State) : Res := s.mma true d a b m q

/-! ## MZERO, MNARROW, MTRANS (R181) -/

/-- Change every selected array. -/
def State.onArrays (s : State) (ks : List (Nat × Nat)) (f : ArraySt → ArraySt) : State :=
  ks.foldl (fun s k => s.setArray k.2 (f (s.array k.2))) s

def execMzero (d : BitVec 4) (_q : BitVec 7) (s : State) : Res :=
  s.meOwned fun ks =>
    let t := s.onArrays ks fun a =>
      { a with accs := a.accs.wrBytes (accBase (s.me.effD d)) (List.replicate 2048 0) }
    .next (t.meDone 0)

/-- MNARROW's destination formats. -/
def narrowFmt : Nat → FFmt
  | 1 => bf16
  | 2 => fp16
  | 3 => e4m3
  | 4 => e5m2
  | _ => fp32

/-- MNARROW on one array: rows ascending, each a generator group in SR (R62). -/
def narrowArray (f : FFmt) (rm : RMode) (draw : Bool) (ts : Nat) :
    List (List Nat) → BitVec 32 → List (Nat × FFlags) × BitVec 32
  | [], x => ([], x)
  | row :: r, x =>
    let g := lanes draw x 16
    let vs := (row.zip g.1).map fun p =>
      let v := mul32 p.1 ts
      if f = fp32 then v
      else
        let o := f.round rm p.2 (fp32.decode v.1)
        (o.1, v.2.join o.2)
    let rest := narrowArray f rm draw ts r g.2
    (vs ++ rest.1, rest.2)

/-- The scale that a format word gives an MNARROW, with its flags. -/
def narrowScale (w : BitVec 128) : Nat × FFlags := mul32 (bitsOf w.toNat 64 32) (bitsOf w.toNat 96 32)

/-- The next rows of an MNARROW, at most `m` of them: array by array, each from its own saved row on (R181, R184). -/
def narrowRows (w : BitVec 128) (td ta : Nat) : List (Nat × Nat) → Nat → State → State
  | [], _, s => s
  | ka :: r, m, s =>
    let f := narrowFmt (bitsOf w.toNat 15 4)
    let rm := rmOfCode (bitsOf w.toNat 12 3)
    let lo := vget s.me.meProg 0 ka.1
    let n := Nat.min m (32 - lo)
    let arr := s.array ka.2
    let rows := slice lo (lo + n) (groupsOf 16 32 (chunks 4 512 (arr.accs.rdBytes (accBase ta) 2048)))
    let o := narrowArray f rm (rm == .sr && f != fp32) (narrowScale w).1 rows s.me.rngMe
    let bs := (o.1.map fun r => leBytes (f.bits / 8) r.1).flatten
    let arr := { arr with tiles := arr.tiles.wrBytes (tileBase td + lo * (16 * (f.bits / 8))) bs }
    narrowRows w td ta r (m - n) ((s.setArray ka.2 arr).upd fun c =>
      { c with
        rngMe := o.2, meProg := vset c.meProg ka.1 (lo + n), meFlags := c.meFlags ||| meFlags (joinAll o.1) })

def execMnarrow (d a : BitVec 4) (_q : BitVec 7) (s : State) : Res :=
  s.meOwned fun ks =>
    s.mePop fmtOkNarrow fun w t =>
      let z := narrowRows w (s.me.effD d) (s.me.effA a) ks (32 * ks.length) t
      .next (z.meDone (z.me.meFlags ||| meFlags (narrowScale w).2))

/-- A freeze of an MNARROW in progress: it stops between rows, of which a free value says how many are committed, and owes
20 cycles from there (R184, R284). -/
def State.narrowStop (s : State) (d a : BitVec 4) : State :=
  match s.me.selected s.cur, s.me.fmtHeld with
  | some ks, some w =>
    if !fmtOkNarrow w then s
    else
      let k := s.draw
      let left := (ks.map fun x => 32 - vget s.me.meProg 0 x.1).foldl (· + ·) 0
      let t := narrowRows w (s.me.effD d) (s.me.effA a) ks ((Config.freeWord k.1).toNat % (left + 1)) k.2
      t.updEng t.cur .me fun e => { e with due := some (s.me.sched + 20) }
  | _, _ => s

def execMtrans (d a : BitVec 4) (_q : BitVec 7) (s : State) : Res :=
  s.meOwned fun ks =>
    let td := s.me.effD d
    let ta := s.me.effA a
    let ds := s.me.tdesc ta
    let dd := s.me.tdesc td
    if ds.valid && dd.valid && decide (ds.fmt ≤ 4) && dd.fmt == ds.fmt && dd.rows == ds.cols && dd.cols == ds.rows
        && decide (ds.elemBytes ≤ 16384) then
      let k := mmWidth ds.fmt / 8
      let f := fun (x : ArraySt) =>
        let es := chunks k (ds.rows * ds.cols) (x.tiles.rdBytes (tileBase ta) ds.elemBytes)
        let out := (List.range ds.cols).flatMap fun c => (List.range ds.rows).map fun r => es.getD (r * ds.cols + c) 0
        { x with tiles := x.tiles.wrBytes (tileBase td) ((out.map fun v => leBytes k v).flatten) }
      .next ((s.onArrays ks f).meDone 0)
    else .next (s.meFault .meShape)

/-! ## Ownership (R172, R173) -/

/-- Why a MOWN of an array descriptor is refused: the cause code, or the array to grant. An undercoat launch on the array's
partner core counts as that core running a CR (cause 2), which R173 does not say (DESIGN CHOICE, assumption 39). -/
def State.mownDecide (s : State) (n : Nat) (v : Word) (dev die : Nat) : Except Nat Nat :=
  let c := s.me
  let k := 11 * (die - 2) + fld v 10 4
  if fld v 14 50 ≠ 0 ∨ dev ≠ s.fab.fabId ∨ die < 2 ∨ 9 < die ∨ 10 < fld v 10 4 then .error 3
  else if (c.slotArray s.cur n).isSome then .error 4
  else if (List.range 4).any fun j => c.slotArray s.cur j == some k then .error 5
  else if (s.array k).holder.isSome || (s.core k).status != .idle then .error 2
  else
    match s.region? c.region with
    | none => .error 1
    | some r =>
      if (s.limits 5 r).any fun l => decide (fld (l.at 0x10) 8 7 ≤ s.arraysHeldUnder l.num) then .error 1 else .ok k

/-- OWN_DENIED with its cause and the array descriptor (Table 18-2). -/
def State.ownDenied (s : State) (v : Word) (cause : Nat) : State := s.meFault .ownDenied (sub := cause) (info0 := v)

def execMown (n : BitVec 4) (q : Src) (s : State) : Res :=
  s.unitNotUc
    (let v := s.ev .me q
    match s.vdie s.cur (fld v 0 10) with
    | .unbound => .next (s.meFault .vdieInvalid)
    | .err e a => .next (s.unitAccFail .me false (.walk e a))
    | .bound dev die =>
      match s.mownDecide n.toNat v dev die with
      | .error k => .next (s.ownDenied v k)
      | .ok k =>
        let a := s.array k
        let w := s.drawArray (undefinedFor a.lastRegion s.me.region)
        let t := w.2.setArray k { tiles := w.1.1, accs := w.1.2.1, sparse := w.1.2.2
                                  holder := some (s.me.cr.getD 0, n.toNat), lastRegion := some s.me.region }
        .next ((t.upd fun c => { c with slots := vset c.slots (n.toNat - 1) (some k) }).meDone 0))

def execMrel (n : BitVec 4) (q : Src) (s : State) : Res :=
  let v := s.ev .me q
  let holds : Option Nat := match s.vdie s.cur (fld v 0 10) with
    | .bound dev die =>
      if fld v 14 50 = 0 ∧ dev = s.fab.fabId ∧ 2 ≤ die ∧ die ≤ 9 ∧ fld v 10 4 ≤ 10 then
        some (11 * (die - 2) + fld v 10 4) else none
    | _ => none
  match s.me.slotArray s.cur n.toNat with
  | none => .next (s.ownDenied v 6)
  | some k =>
    if holds = some k then
      let t := s.setArray k { s.array k with holder := none, lastRegion := some s.me.region }
      .next ((t.upd fun c => { c with slots := vset c.slots (n.toNat - 1) none }).meDone 0)
    else .next (s.ownDenied v 6)

/-! ## Synchronisation, run and end (R182, R183) -/

/-- MSYNC: the ME takes its steps one at a time, so every earlier one has retired. -/
def execMsync (_q : BitVec 7) (s : State) : Res := .next (s.meDone 0)

def execMeNop (s : State) : Res := .next (s.unitDone .me)

def execMrun (e : BitVec 12) (s : State) : Res := .next (s.enterProg .me e.toNat)
def execMend (s : State) : Res := .next (s.endBody .me s.me.meActive.loops)

end Sys2Proof.Machine
end

