-- ==== Sys2Proof/Machine/Hyper.lean ====
section
/-! DEFINITION. The hypervector unit: loads and stores, register steps, bundle accumulators and the associative
memory (R206-R219, R277-R279). A word acts on the entry that the HU of the current core executes. -/

namespace Sys2Proof.Machine

/-! ## Registers -/

def Core.hvOf (c : Core) (k : BitVec 4) : Hv := vget c.hv 0 k.toNat

def Core.setHv (c : Core) (k : BitVec 4) (v : Hv) : Core := { c with hv := vset c.hv k.toNat v }

/-- The 4,096 counters of an accumulator, one byte each (R206). -/
def Core.counters (c : Core) (k : BitVec 2) : List Int :=
  (leBytes 4096 (vget c.ba 0 k.toNat).toNat).map fun b => b.toInt

def Core.setCounters (c : Core) (k : BitVec 2) (l : List Int) : Core :=
  { c with ba := vset c.ba k.toNat (BitVec.ofNat 32768 (leNat (l.map (BitVec.ofInt 8)))) }

/-- A word of the HU changes the core and is done. -/
def State.huStep (s : State) (f : Core → Core) : Res := .next ((s.upd f).unitDone .hu)

/-- The HU writes a scalar register, which stays pending while another word is to write it (R21, R241). -/
def Core.huWrite (c : Core) (d : Nat) (v : Word) : Core :=
  let c := c.setReg d v
  if c.inflight.any (fun a => a.kind.dest == some d) || c.hu.queue.any (fun e => huDest e.word == some d) then c
  else c.setPend d false

/-- expand (R212). -/
def expandFrom : Nat → Word → List Word
  | 0, _ => []
  | n + 1, x =>
    let x := x ^^^ (x <<< 13)
    let x := x ^^^ (x >>> 7)
    let x := x ^^^ (x <<< 17)
    x :: expandFrom n x

/-- A hypervector from its doublewords, the lowest first. -/
def hvOfWords (l : List Word) : Hv := BitVec.ofNat 4096 (l.foldr (fun w acc => w.toNat + 2 ^ 64 * acc) 0)

def expand (q : Word) : Hv := hvOfWords (expandFrom 64 (if q = 0 then 0x9E3779B97F4A7C15 else q))

/-- The distance of two hypervectors (R213). -/
def hvDist (a b : Hv) : Nat := popcount (a ^^^ b).toNat 4096

/-- One counter under HACC (R210). -/
def haccOne (w : Int) (w8 up : Bool) (c : Int) : Int :=
  let r := if up then c + w else c - w
  if w8 then min 127 (max (-128) r) else min 7 (max (-8) r)

/-- One bit under HTHR (R211). -/
def hthrBit (c : Int) (tie : Bool) : Bool := if c > 0 then true else if c < 0 then false else tie

/-- Counters after HACC with a weight. -/
def haccAll (w : Int) (w8 : Bool) (v : Hv) (l : List Int) : List Int :=
  l.zipIdx.map fun p => haccOne w w8 (v.getLsbD p.2) p.1

/-- The bits as a number, the lowest first. -/
def bitsNat : List Bool → Nat
  | [] => 0
  | b :: r => b.toNat + 2 * bitsNat r

def hthrAll (ties : Hv) (l : List Int) : Hv :=
  BitVec.ofNat 4096 (bitsNat (l.zipIdx.map fun p => hthrBit p.1 (ties.getLsbD p.2)))

/-! ## Load and store (R208) -/

/-- Effective address of the HM format, from the captured base. -/
def State.hea (s : State) (base : BitVec 5) (off : BitVec 13) : Nat := (s.cap .hu base.toNat + sx off).toNat

/-- HLD; of a read that has failed for good the register is undefined (R321). -/
def execHld (d : BitVec 4) (base : BitVec 5) (off : BitVec 13) (sp : Bool) (s : State) : Res :=
  let a := s.hea base off
  match addrFault sp a 512 512 with
  | some c => .next (s.unitFault .hu c (addr := w64 a) (slot := 3))
  | none =>
    match s.rdA s.cur 2 sp a 512 with
    | .err (.refused x) =>
      let k := s.draw
      let v := BitVec.ofNat 4096 (leNat ((List.range 512).map (Config.freeByte k.1)))
      .next ((k.2.upd fun c => c.setHv d v).unitAccFail .hu false (.refused x))
    | r => s.unitTry .hu false r fun b s => s.huStep fun c => c.setHv d (BitVec.ofNat 4096 (leNat b))

def execHst (d : BitVec 4) (base : BitVec 5) (off : BitVec 13) (sp : Bool) (s : State) : Res :=
  let a := s.hea base off
  match addrFault sp a 512 512 with
  | some c => .next (s.unitFault .hu c (addr := w64 a) (slot := 3) (wr := true))
  | none =>
    s.unitTry .hu true (s.unitWr .hu sp a (leBytes 512 (s.me.hvOf d).toNat)) fun f s =>
      .next ((s.noteFail f).unitDone .hu)

/-! ## Register steps (R209-R212) -/

def execHxor (d a b : BitVec 4) (s : State) : Res := s.huStep fun c => c.setHv d (c.hvOf a ^^^ c.hvOf b)

def execHrot (d a : BitVec 4) (q : Src) (s : State) : Res :=
  s.huStep fun c => c.setHv d ((c.hvOf a).rotateLeft ((s.ev .hu q).toNat % 4096))

def execHrotImm (d a : BitVec 4) (imm : BitVec 12) (s : State) : Res :=
  s.huStep fun c => c.setHv d ((c.hvOf a).rotateLeft imm.toNat)

def execHacc (d : BitVec 2) (a : BitVec 4) (q : Src) (s : State) : Res :=
  s.huStep fun c => c.setCounters d
    (haccAll (s.ev .hu q).toInt (c.baW8.getLsbD d.toNat) (c.hvOf a) (c.counters d))

def execHthr (d : BitVec 4) (a : BitVec 2) (s : State) : Res :=
  s.huStep fun c => c.setHv d (hthrAll c.ties (c.counters a))

def execHclr (d : BitVec 4) (s : State) : Res := s.huStep fun c => c.setHv d 0

def execHclrW4 (d : BitVec 2) (s : State) : Res :=
  s.huStep fun c => { c with ba := vset c.ba d.toNat 0, baW8 := c.baW8 &&& ~~~(1#4 <<< d.toNat) }

def execHclrW8 (d : BitVec 2) (s : State) : Res :=
  s.huStep fun c => { c with ba := vset c.ba d.toNat 0, baW8 := c.baW8 ||| (1#4 <<< d.toNat) }

def execHpop (d : BitVec 5) (a b : BitVec 4) (s : State) : Res :=
  s.huStep fun c => c.huWrite d.toNat (w64 (hvDist (c.hvOf a) (c.hvOf b)))

def execHrnd (d : BitVec 4) (q : Src) (s : State) : Res := s.huStep fun c => c.setHv d (expand (s.ev .hu q))

def execHtie (a : BitVec 4) (s : State) : Res := s.huStep fun c => { c with ties := c.hvOf a }

def execHtieSeed (q : Src) (s : State) : Res := s.huStep fun c => { c with ties := expand (s.ev .hu q) }

def execHtieZero (s : State) : Res := s.huStep fun c => { c with ties := 0 }

/-! ## Associative memory (R213-R217) -/

/-- The partition of the running region: the owning region (R290) and the number of entries. -/
def State.partition (s : State) : Option (Nat × Nat) :=
  (s.region? s.me.region).map fun r => ((s.grp 7 r).num, s.rAmp r * 256)

/-- An entry index of the running region's partition, or HAM_RANGE (R213). -/
def State.hamEntry (s : State) (q : Word) (f : Nat → Res) : Res :=
  match s.partition with
  | some (r, p) => if q.toNat < p then f r else .next (s.unitFault .hu .hamRange (slot := 3))
  | none => .next (s.unitFault .hu .hamRange (slot := 3))

/-- An associative-memory write that ends an undercoat launch (R214, R301). -/
def State.hamNotUc (s : State) (f : Res) : Res :=
  match s.me.uc with
  | some id => .next (s.discardUc id 5)
  | none => f

/-- One write of an entry and its valid bit (R214). -/
def State.hamPut (s : State) (r e : Nat) (v : Option Hv) : State :=
  let rest := s.cp.ham.filter fun h => !(h.1 == r && h.2.1 == e)
  { s with cp := { s.cp with ham := match v with
    | some v => (r, e, v) :: rest
    | none => rest } }

/-- Whether a match comes before another: by distance, then by index (R215). -/
def nearer (a b : Nat × Nat) : Bool := decide (a.1 < b.1 ∨ (a.1 = b.1 ∧ a.2 < b.2))

/-- Insert a match into a list in the order of R215. -/
def insertNear (x : Nat × Nat) : List (Nat × Nat) → List (Nat × Nat)
  | [] => [x]
  | y :: r => if nearer x y then x :: y :: r else y :: insertNear x r

/-- Every valid entry of a partition within a limit, in the order of R215: distance and index. -/
def matches_ (ham : List (Nat × Nat × Hv)) (r limit : Nat) (v : Hv) : List (Nat × Nat) :=
  ((ham.filter fun h => h.1 == r).map fun h => (hvDist h.2.2 v, h.2.1)).foldl
    (fun acc x => if x.1 ≤ limit then insertNear x acc else acc) []

/-- A record of R215; all ones when there is no match. -/
def hamRecord : Option (Nat × Nat) → Word
  | some (d, i) => w64 (i + d * 2 ^ 32)
  | none => BitVec.allOnes 64

/-! ## The banks of S0 (R239, R277-R279) -/

/-- Bank and row of an entry of a partition that starts at row `b0` (R277). -/
def hamPlace (b0 e : Nat) : Nat × Nat := (e % 4, b0 + e / 4)

/-- A request holds a bank for `len` cycles, after those before it: the cycle after its last one there. -/
def State.holdBank (s : State) (b len : Nat) : Nat × State :=
  let last := Nat.max s.fab.cycles (vget s.cp.banks 0 b) + len
  (last, { s with cp := { s.cp with banks := vset s.cp.banks b last } })

/-- Passes of `len` cycles over all four banks: the cycle after the last of them. -/
def State.passes (s : State) (len : Nat) : Nat × State :=
  [0, 1, 2, 3].foldl (fun (x : Nat × State) b =>
    let y := x.2.holdBank b len
    (Nat.max x.1 y.1, y.2)) (0, s)

def State.setSearch (s : State) (x : Search) : State :=
  { s with cp := { s.cp with searches := listUpd1 (fun y => y.core == x.core) (fun _ => x) s.cp.searches } }

/-- S0 has read what the request of core `n` reads (R85). -/
def State.hamRead (s : State) (n : Nat) : State := s.updEng n .hu fun e => { e with read := true }

/-- A core's request takes its place in the banks. Requests are served in arrival order at every bank, so each sees
there the writes of those before it and no others: what it reads and writes is settled as it is placed. -/
def State.hamServe (s : State) (x : Search) : State :=
  match x.op with
  | .search r p limit key k =>
    let w := s.passes (p / 4 / 64)
    let l := matches_ s.cp.ham r limit key
    let found := (List.range k).map fun j => hamRecord l[j]?
    (w.2.setSearch { x with
      found := found, doneAt := some (w.1 + 40 + if x.dest.isNone then (k + 7) / 8 else 0) }).hamRead x.core
  | .write r e v =>
    let w := s.holdBank (hamPlace 0 e).1 1
    (w.2.hamPut r e v).setSearch { x with doneAt := some (w.1 + 38) }

/-- The requests that arrived in a compute-clock cycle: the predictor's first, then the cores' in ascending order. -/
def State.hamArrivals (s : State) : State :=
  let s := s.cp.predIn.foldl (fun s r =>
    match r with
    | none => (s.passes 4).2
    | some e => (s.holdBank (hamPlace 0 e).1 1).2) s
  let s := { s with cp := { s.cp with predIn := [] } }
  if s.cp.searches.all fun x => x.doneAt.isSome then s
  else
    (List.range 88).foldl (fun s n =>
      match s.cp.searches.find? fun x => x.core == n && x.doneAt.isNone with
      | some x => s.hamServe x
      | none => s) s

/-! ## Associative-memory words (R213-R219) -/

/-- A request goes to S0; its word stands until the reply. -/
def State.hamSend (s : State) (dest : Option Nat) (off : Nat) (op : HamOp) : Res :=
  let x : Search := { core := s.cur, dest := dest, off := off, op := op }
  let s : State := { s with cp := { s.cp with searches := s.cp.searches ++ [x] } }
  .next (s.updEng s.cur .hu fun e => { e with elem := 1 })

/-- A request of core `n` leaves the list. -/
def State.searchGone (s : State) (n : Nat) : State :=
  { s with cp := { s.cp with searches := s.cp.searches.filter fun x => x.core != n } }

/-- HAM_FAIL of a write: of one that S0 has not served yet, a free value says whether it has been applied (Table 10-3). -/
def State.hamLost (s : State) (e : Nat) (v : Option Hv) (r : Nat) : Res :=
  let d := s.draw
  let served := s.cp.searches.any fun x => x.core == s.cur && x.doneAt.isSome
  let s := if !served && (Config.freeWord d.1).getLsbD 0 then d.2.hamPut r e v else d.2
  .next (((s.searchGone s.cur).unitDone .hu).unitFault .hu .hamFail (slot := 3))

/-- A write of the associative memory, from its request to its reply. -/
def State.hamWrite (s : State) (e : Nat) (v : Option Hv) (r : Nat) : Res :=
  if !s.s0Up s.cur then s.hamLost e v r
  else if s.me.hu.elem = 0 then s.hamSend none 0 (.write r e v)
  else
    match s.cp.searches.find? fun x => x.core == s.cur with
    | some x =>
      match x.doneAt with
      | some d => if d ≤ s.fab.cycles then .next ((s.searchGone s.cur).unitDone .hu) else .next s
      | none => .next s
    | none => .next (s.unitDone .hu)

def execHamw (a : BitVec 4) (q : Src) (s : State) : Res :=
  s.hamNotUc (s.hamEntry (s.ev .hu q) (s.hamWrite (s.ev .hu q).toNat (some (s.me.hvOf a))))

def execHamd (q : Src) (s : State) : Res :=
  s.hamNotUc (s.hamEntry (s.ev .hu q) (s.hamWrite (s.ev .hu q).toNat none))

/-- A search of the running region's partition: HAM_RANGE where it has none. -/
def State.hamSearch (s : State) (dest : Option Nat) (off limit : Nat) (key : Hv) (k : Nat) : Res :=
  if s.me.hu.elem = 1 then .next s
  else
    s.hamEntry 0 fun r =>
      s.hamSend dest off (.search r ((s.partition.map (·.2)).getD 0) limit key k)

def execHamq (d : BitVec 5) (a : BitVec 4) (q : Src) (s : State) : Res :=
  s.hamSearch (some d.toNat) 0 (Nat.min (s.ev .hu q).toNat 4096) (s.me.hvOf a) 1

/-- The descriptor of Table 10-2 stands. -/
def hamkOk (q : Word) : Bool :=
  let k := fld q 24 8
  decide (fld q 0 21 % 8 = 0 ∧ fld q 21 3 = 0 ∧ 1 ≤ k ∧ k ≤ 64 ∧ fld q 32 13 ≤ 4096 ∧ fld q 45 19 = 0 ∧
    fld q 0 21 + 8 * k ≤ 0x200000)

def execHamk (a : BitVec 4) (q : Src) (s : State) : Res :=
  let w := s.ev .hu q
  if !hamkOk w then .next (s.unitFault .hu .hamRange (slot := 3))
  else s.hamSearch none (fld w 0 21) (fld w 32 13) (s.me.hvOf a) (fld w 24 8)

/-- The search word of core `n` is done, its result written. -/
def State.searchDone (s : State) (n : Nat) (x : Search) (v : Word) : State :=
  (s.searchGone n).updCore n fun c =>
    let c := { c with hu := c.hu.finish 0 }
    match x.dest with
    | some d => c.huWrite d v
    | none => c

/-- HAM_FAIL of a search (R219): its register or records are undefined, and the fault follows their last byte. -/
def State.searchLost (s : State) (n : Nat) (x : Search) : State :=
  let d := s.draw
  let done := fun (t : State) =>
    (t.searchDone n x (Config.freeWord d.1)).faultOn n
      { cause := .hamFail, obs := 2, slot := 3, rpc := (s.core n).pc }
  match x.dest, x.op with
  | none, .search _ _ _ _ k =>
    match d.2.wrA n 2 true x.off ((List.range (8 * k)).map (Config.freeByte d.1)) with
    | .ok _ t => done t
    | .wait _ => s
    | .err _ => done d.2
  | _, _ => done d.2

/-- SEARCH_COMPLETION (R215, R216, R239, R278): the result register or the records, also during a freeze (R218). A
search that S0 cannot answer leaves a free value and raises HAM_FAIL. -/
def execSearchCompletion (n : Nat) (s : State) : Res :=
  match s.cp.searches.find? fun x => x.core == n with
  | none => .next s
  | some x =>
    match x.op with
    | .write .. => .next s
    | .search .. =>
      if !s.s0Up n then .next (s.searchLost n x)
      else if x.doneAt.all fun d => decide (s.fab.cycles < d) then .next s
      else
        match x.dest with
        | some _ => .next (s.searchDone n x (x.found.headD 0))
        | none =>
          let o := { s with cur := n }
          match o.unitWr .hu true x.off (x.found.flatMap fun w => le8 w.toNat) with
          | .ok f t => .next { (t.noteFail f).searchDone n x 0 with cur := s.cur }
          | .wait t => .next { o.waits t .hu with cur := s.cur }
          | .err e =>
            .next (((s.searchGone n).updEng n .hu fun e => { e with elem := 0, due := none }).accFail n 2 true e)

end Sys2Proof.Machine
end

