-- ==== Sys2Proof/Machine/Sync.lean ====
section
/-! DEFINITION. Ordering, waits, stage barriers, futures and the format-word push (R84, R85, R91, R138-R152). -/

namespace Sys2Proof.Machine

/-! ## What release and acquire wait for -/

/-- A macro-queue word of an engine makes accesses: memory, tiles or associative-memory entries (R69, R73). -/
def unitAccesses (u : Unit8) (w : Nat) : Bool :=
  match u with
  | .ve => w != 0 && !(bitsOf w 26 6 == 6 && bitsOf w 0 7 == 0)
  | .me => bitsOf w 26 6 == 0x21 || bitsOf w 26 6 == 0x22 || bitsOf w 26 6 == 0x3E
  | .hu => bitsOf w 26 6 == 1 || bitsOf w 26 6 == 2 || bitsOf w 26 6 == 5
  | .ch _ => true

/-- Such a word reads. -/
def unitReads (u : Unit8) (w : Nat) : Bool :=
  match u with
  | .ve => w != 0 && bitsOf w 26 6 != 6
  | .me => bitsOf w 26 6 == 0x21 || (bitsOf w 26 6 == 0x22 && bitsOf w 0 5 != 0) || bitsOf w 26 6 == 0x3E
  | .hu => bitsOf w 26 6 == 1 || (bitsOf w 26 6 == 5 && (bitsOf w 0 6 == 1 || bitsOf w 0 6 == 2))
  | .ch _ =>
    (bitsOf w 26 6 == 1 && bitsOf w 0 7 != 4) || (bitsOf w 26 6 == 3 && bitsOf w 0 7 != 1) || bitsOf w 26 6 == 0x1E

/-- Every word that an engine still has to complete. -/
def Engine.words (e : Engine) : List Nat := (e.cur.toList ++ e.queue).map (·.word)

/-- The engines of a core, each with its queue. -/
def Core.engines (c : Core) : List (Unit8 × Engine) :=
  [(.ve, c.ve), (.me, c.me), (.hu, c.hu)]
    ++ (List.range 8).map fun k => (.ch (BitVec.ofNat 3 k), (vget c.ch .zero k).eng)

/-- A channel's chain makes no access: its card's WAIT is not met, or it waits at the last published card for TAIL to
move (R271). -/
def Channel.idleChain (h : Channel) : Bool :=
  match h.chain with
  | some c =>
    (c.step == .wait && bitsOf (c.img.getD 1 0) 34 1 == 1) || (c.step == .done && c.card == h.tail.toNat)
  | none => false

/-- The channel of an engine number waits so. -/
def Core.chainWaits (c : Core) (u : Unit8) : Bool :=
  match u with
  | .ch k => (vget c.ch .zero k.toNat).idleChain
  | _ => false

/-- The words of an engine that count as issued accesses: a chain that waits does not (R271). -/
def Core.issuedWords (c : Core) (u : Unit8) (e : Engine) : List Nat :=
  if c.chainWaits u then e.queue.map (·.word) else e.words

/-- Every access of every observer issued so far has been performed at its effective scope clipped to `sc`, or has failed
(R84): what is left are stores performed at that scope and still on their way to their reach. -/
def Core.performed (c : Core) (sc : Scope) : Bool :=
  (c.inflight.all fun a => c.buf.any fun w => w.tag == some a.tag)
    && (c.engines.all fun e => !((c.issuedWords e.1 e.2).any (unitAccesses e.1))) && c.writtenAt sc

/-- The words of a code section from index `k` on, up to the end of the body (R22). -/
def Core.bodyWords (c : Core) (base : Nat) : Nat → Nat → List Nat
  | 0, _ => []
  | f + 1, k =>
    let w := c.imem.rdN (base + 4 * k) 4
    if bitsOf w 26 6 == 0x3F || bitsOf w 26 6 == 0x1F then [] else w :: c.bodyWords base f (k + 1)

/-- The loop nest of an engine; a VRUN runs its micro-program once (R25, R169). -/
def Core.nest (c : Core) (u : Unit8) : List Nat :=
  match u with
  | .me => c.meActive.loops.toList.map tripOf
  | .ch k => (vget c.ch .zero k.toNat).active.loops.toList.map tripOf
  | _ => []

/-- The entry is an XCHAIN: a card that has read its source may be followed by others. -/
def isChainWord (w : Nat) : Bool := bitsOf w 26 6 == 3 && bitsOf w 0 7 == 2

/-- The entry in hand of an engine is still to read (R85): a word that has read its sources and waits to write does so
no more, nor does a micro-program whose words to come do not read. -/
def Core.curReads (c : Core) (u : Unit8) (e : Engine) : Bool :=
  match e.cur with
  | none => false
  | some x =>
    if e.finished then false
    else if !e.inProg then (!e.read || isRunWord x.word || isChainWord x.word) && unitReads u x.word
    else
      let from_ := if e.read then e.upc + 1 else e.upc
      let reads := fun (k : Nat) => (c.bodyWords (sectBase u) (4096 - k) k).any (unitReads u)
      reads from_ || ((nextIdx (c.nest u) e.idx.toList).isSome && reads (bitsOf x.word 0 12))

/-- Every read issued so far has been performed (R85). -/
def Core.readsPerformed (c : Core) : Bool :=
  (c.inflight.all fun a => match a.kind with
    | .load .. | .amo .. | .cas .. => false
    | _ => true)
    && c.engines.all fun e =>
      !(e.2.queue.any fun x => unitReads e.1 x.word) && (c.chainWaits e.1 || !(c.curReads e.1 e.2))

/-- A bundle that waits for a condition on the core (R20, Table 11-7). -/
def State.waitFor (s : State) (ok : Bool) (why : StallCause) (f : Core → Core) : Res :=
  if ok then .next (s.issueS 1 f) else .next (s.stallS why)

def execAcq (_sc : Scope) (s : State) : Res := s.waitFor s.me.readsPerformed .order id
def execRel (sc : Scope) (s : State) : Res := s.waitFor (s.me.performed sc) .order id
def execFence (d : BitVec 5) (sc : Scope) (s : State) : Res :=
  s.waitFor (s.me.performed sc) .order fun c => { c with failRec := 0 }.setReg d.toNat c.failRec

/-- WAITC (R139). -/
def execWaitc (mask : BitVec 4) (lim : BitVec 8) (s : State) : Res :=
  let c := s.me
  let ok := fun k (v : Nat) => !mask.getLsbD k || decide (v ≤ lim.toNat)
  s.waitFor (ok 0 c.ld && ok 1 c.st && ok 2 c.cp && ok 3 c.tl) .waitc id

/-- FQPUSH (R152). -/
def execFqpush (a b : Src) (s : State) : Res :=
  if s.me.fmtq.length ≥ 16 then .next (s.stallS .queueFull)
  else .next (s.issueS 1 fun c => { c with fmtq := c.fmtq ++ [s.sval b ++ s.sval a] })

/-! ## Waits that read (R140, R141) -/

/-- A wait whose condition does not hold: the limit counts from its first attempt. -/
def State.waiting (s : State) (v : Word × Word) : State :=
  s.upd fun c => { c with stall := .wait, tried := true, waitAt := some (c.waitAt.getD c.sched), waitVals := v }

/-- WAITA (R140): reads its word until it is at least `b`. Where the first read is itself blocked, by a guard or a busy
tile, the spec does not say whether the limit counts already: it counts from the first read that completes (DESIGN
CHOICE, assumption 65). -/
def execWaita (_d : BitVec 5) (a b : Src) (_sc : Scope) (s : State) : Res :=
  let off := (s.sval a).toNat
  match addrFault true off 8 8 with
  | some c => .next (s.sFault c (addr := s.sval a))
  | none =>
    match s.rdA s.cur 3 true off 8 with
    | .ok v t =>
      let w := w64 (leNat v)
      if (s.sval b).ule w then .next (t.issueS 1 id) else .next (t.waiting (w, s.sval b))
    | .wait t => .next (t.stallS .wait)
    | .err e => .next (s.accFail s.cur 3 false e)

/-- WAITQ (R141): a read of HEAD, and then, of the same attempt, a read of TAIL. -/
def execWaitq (_d : BitVec 5) (a b : Src) (s : State) : Res :=
  s.notUc
    (let va := (s.sval a).toNat
    match addrFault false va 16 16 with
    | some c => .next (s.sFault c (addr := s.sval a))
    | none =>
      match s.me.qHead with
      | none =>
        match s.rdA s.cur 3 false va 8 with
        | .ok v t => .next (t.upd fun c => { c with qHead := some (w64 (leNat v)) })
        | .wait t => .next (t.stallS .wait)
        | .err e => .next (s.accFail s.cur 3 false e)
      | some head =>
        match s.rdA s.cur 3 false (va + 8) 8 with
        | .ok v t =>
          let tail := w64 (leNat v)
          if (s.sval b).ule (tail - head) then .next (t.issueS 1 id)
          else .next ((t.upd fun c => { c with qHead := none }).waiting (head, tail))
        | .wait t => .next (t.stallS .wait)
        | .err e => .next (s.accFail s.cur 3 false e))

/-! ## Requests to a block's home (R144-R151) -/

/-- Where a synchronisation block of core `n` lives: its physical address and the copy that holds it. -/
def State.blockAt (s : State) (n va : Nat) (wr : Bool) (obs : Nat := 3) : Try (Nat × Nat) :=
  (s.tr n obs va wr).bind fun p s =>
    match s.entFor (dieOf n) p.1 with
    | some e => .ok (p.1, e.home) s
    | none => .ok (p.1, domOf (s.locReach p.1 p.2) (dieOf n)) s

/-- Request `n` of another device is answered with message `m`. -/
def State.owe (s : State) (n : Nat) (m : FMsg) : State :=
  { s with fab := { s.fab with owed := s.fab.owed ++ [m], syncs := s.fab.syncs.filter fun x => x.1 != n } }

/-- The home of a block can take a step of it: no core keeps a copy, no other package a replica, and the sender's own
earlier writes to it are performed (R77, R144, R251). -/
def State.homeReady (s : State) (core dom pa n : Nat) : Try Unit :=
  match s.dir.find? fun e => e.covers pa && e.home == dom with
  | some e =>
    if !s.quiet e then .wait s
    else if e.remBlocks true then .wait (s.sendBis e.pa (s.tileHolders e))
    else .ok () (s.gwNow e)
  | none =>
    if s.lineBlocks pa n true then .wait (s.askLine pa n true)
    else
      let s := s.expose core (dieOf core) dom pa n true
      if s.exposed core (dieOf core) dom pa n true then .ok () s else .wait s

/-- The reply to request `n` of another device goes to it: DATA, or an ERR for a fault (R332, assumption 53). -/
def State.replyAway (s : State) (n : Nat) (r : Reply) : State :=
  match s.fab.syncs.find? (fun x => x.1 == n), r with
  | some x, .value v => s.owe n { s.respond x.2 0x20 0 (le8 v.toNat) false with mask := [] }
  | some x, .fault c _ => s.owe n { s.respond x.2 0x27 (Config.syncErr c.code).toNat [] false with mask := [] }
  | _, _ => s

/-- Give a waiting bundle of core `n`, or a request of another device, its reply. -/
def State.reply (s : State) (n : Nat) (r : Reply) : State :=
  if n < 88 then s.updCore n fun c => { c with sync := c.sync.map fun q => { q with reply := some r }, tried := false }
  else s.replyAway n r

/-- The bundle has sent its request; `wait`: SBWAIT or FGET. -/
def State.syncSent (s : State) (pa : Nat) (wait : Bool) : State :=
  s.upd fun c =>
    { c with
      sync := some { pa := pa, at_ := s.frameClk, lim := s.dev.rsplim.toNat, wait := wait }, stall := .wait, tried := true
      waitAt := some (c.waitAt.getD c.sched) }

/-- The request of core `n` is parked at its home. -/
def State.park (s : State) (n : Nat) : State :=
  if n < 88 then s.updCore n fun c => { c with sync := c.sync.map fun q => { q with parked := true } } else s

/-- SYNC_FAIL (R151): the address and the word. -/
def State.syncFail (s : State) (va : Word) : State := s.sFault .syncFail (addr := va) (info0 := s.me.sWord)

/-- What a reply does to the waiting bundle: `f` takes the value. -/
def State.onReply (s : State) (va : Word) (r : Reply) (f : Word → Core → Core) : Res :=
  match r with
  | .value w => .next (s.issueS 1 (f w))
  | .fault c i => .next ((s.upd fun c => { c with sync := none }).sFault c (addr := va)
      (info0 := if c = .syncFail then s.me.sWord else i))
  | .expired _ => .next (s.stallS .wait)

/-- A request to a block at `va` by the S word: after its release at PKG, clipped to the block's reach, if it is one (R84,
Table 3-5), `send` makes it once. -/
def State.request (s : State) (va : Word) (align : Nat) (release wr : Bool) (f : Word → Core → Core)
    (send : Nat → Nat → State → State) : Res :=
  s.notUc
    (match addrFault false va.toNat align align with
    | some c => .next (s.sFault c (addr := va))
    | none =>
      match s.me.sync with
      | some q =>
        match q.reply with
        | some r => s.onReply va r f
        | none => .next (s.stallS .wait)
      | none =>
        match s.blockAt s.cur va.toNat wr with
        | .wait t => .next (t.stallS .wait)
        | .err e => .next (s.accFail s.cur 3 wr e)
        | .ok p t =>
          if release && !(t.me.performed (scopeMin .pkg (domScope p.2))) then .next (t.stallS .order)
          else if t.routePa t.cur p.1 = .hold then .next (s.stallS .wait)
          else if t.routePa t.cur p.1 = .none || t.isPoisoned p.1 align (dieOf t.cur) then .next (t.syncFail va)
          else .next (send p.1 p.2 t))

/-- A request goes to the home of its block. -/
def State.toHome (s : State) (n va pa dom : Nat) (op : HomeOp) : State :=
  { s with cp := { s.cp with posts := s.cp.posts ++ [{ pa := pa, dom := dom, va := va, core := n, op := op }] } }

/-- SBARV (R146): the arrival goes to the home, and sd is PHASE from before its step. -/
def execSbarv (d : BitVec 5) (a b : Src) (s : State) : Res :=
  s.request (s.sval a) 32 true true (fun w c => c.setReg d.toNat w) fun pa dom t =>
    (t.syncSent pa false).toHome s.cur (s.sval a).toNat pa dom (.arrive (s.sval b).toNat)

/-- SBWAIT (R147): issues when the home finds PHASE different from b; parked there otherwise. -/
def execSbwait (_d : BitVec 5) (a b : Src) (s : State) : Res :=
  s.request (s.sval a) 32 false false (fun _ c => c) fun pa dom t =>
    (t.syncSent pa true).toHome s.cur (s.sval a).toNat pa dom (.wait (s.sval b))

/-- A STATE that is malformed (R148). -/
def futBad (st : Nat) : Bool := decide (st ≥ 3)

/-- FFILL (R149). -/
def execFfill (a b : Src) (s : State) : Res :=
  s.request (s.sval a) 16 true true (fun _ c => c) fun pa dom t =>
    (t.syncSent pa false).toHome s.cur (s.sval a).toNat pa dom (.fill (s.sval b))

/-- FGET (R150). -/
def execFget (d : BitVec 5) (a _b : Src) (s : State) : Res :=
  s.request (s.sval a) 16 false true (fun w c => c.setReg d.toNat w) fun pa dom t =>
    (t.syncSent pa true).toHome s.cur (s.sval a).toNat pa dom .get

/-- Whether a request is parked on a block of one copy. -/
def Park.on (p : Park) (fut : Bool) (dom pa : Nat) : Bool := p.fut == fut && p.pa == pa && p.dom == dom

/-- Reply to every request parked on a block, and empty its parked set. -/
def State.wake (s : State) (fut : Bool) (dom pa : Nat) (v : Word) : State :=
  let woken := s.cp.parks.filter fun p => p.on fut dom pa
  let s := { s with cp := { s.cp with parks := s.cp.parks.filter fun p => !p.on fut dom pa } }
  woken.foldl (fun s p => s.reply p.core (.value v)) s

/-- Take a parked request of core `n` out of its home's set (R147, R150), as a step of that home: a future left without
requesters becomes EMPTY. Gives PHASE or STATE as it stood. -/
def State.unpark (s : State) (n : Nat) : Try Word :=
  match s.cp.parks.find? fun p => p.core == n with
  | none => .ok 0 s
  | some p =>
    (s.homeReady n p.dom p.pa 32).bind fun _ s =>
      let rest := s.cp.parks.filter fun q => q.core != n
      let s := { s with cp := { s.cp with parks := rest } }
      if p.fut then
        let st := s.phNat p.dom (p.pa + 8) 8
        if st % 4 == 2 && !(rest.any fun q => q.on true p.dom p.pa) then
          .ok (w64 st) ((s.phWrite p.dom (p.pa + 8) (le8 (st / 4 * 4))).markStale (p.pa + 8) 8)
        else .ok (w64 st) s
      else .ok (w64 (s.phNat p.dom p.pa 8)) s

/-! ## Home steps (R144, R145, R147, R149, R150) -/

/-- SBWAIT at the home. -/
def State.homeWait (s : State) (p : BarPost) (phase : Word) : State :=
  let now := w64 (s.phNat p.dom p.pa 8)
  if now ≠ phase then s.reply p.core (.value now)
  else
    { s.park p.core with cp := { s.cp with
        parks := s.cp.parks ++ [{ pa := p.pa, dom := p.dom, core := p.core, fut := false }] } }

/-- FFILL at the home. -/
def State.homeFill (s : State) (p : BarPost) (v : Word) : State :=
  let st := s.phNat p.dom (p.pa + 8) 8
  if futBad st || st == 1 then s.reply p.core (.fault .futureState 0)
  else
    let s := (s.phWrite p.dom p.pa (le8 v.toNat ++ le8 1)).markStale p.pa 16
    (s.wake true p.dom p.pa v).reply p.core (.value v)

/-- FGET at the home. -/
def State.homeGet (s : State) (p : BarPost) : State :=
  let st := s.phNat p.dom (p.pa + 8) 8
  if futBad st then s.reply p.core (.fault .futureState 0)
  else if st = 1 then s.reply p.core (.value (w64 (s.phNat p.dom p.pa 8)))
  else
    let s := (s.phWrite p.dom (p.pa + 8) (le8 2)).markStale (p.pa + 8) 8
    { s.park p.core with cp := { s.cp with
        parks := s.cp.parks ++ [{ pa := p.pa, dom := p.dom, core := p.core, fut := true }] } }

/-- Arrivals and bytes of a list of requests. -/
def HomeOp.arrivals : HomeOp → Option Nat
  | .arrive n => some n
  | _ => none

def HomeOp.byteCount : HomeOp → Option Nat
  | .bytes _ n => some n
  | _ => none

def HomeOp.channel : HomeOp → Nat
  | .bytes c _ => c
  | _ => 0

/-- The home step of a stage barrier for the arrivals and byte posts of one cycle (R145). -/
def State.barStep (s : State) (dom pa : Nat) (here : List BarPost) : State :=
  let rd := fun off n => s.phNat dom (pa + off) n
  let phase := rd 0 8
  let arrs := here.filter fun p => p.op.arrivals.isSome
  let byts := here.filter fun p => p.op.byteCount.isSome
  let arr := (arrs.filterMap fun p => p.op.arrivals).foldl (· + ·) 0
  let byt := (byts.filterMap fun p => p.op.byteCount).foldl (· + ·) 0
  let arrOk := decide (arr ≤ rd 12 4)
  let bytOk := decide (byt ≤ rd 24 8)
  let al := if arrOk then rd 12 4 - arr else rd 12 4
  let bl := if bytOk then rd 24 8 - byt else rd 24 8
  let acted := (arrOk && decide (0 < arr)) || (bytOk && decide (0 < byt))
  let adv := acted && al == 0 && bl == 0
  let blk := le8 ((if adv then phase + 1 else phase) % 2 ^ 64) ++ leBytes 4 (rd 8 4)
    ++ leBytes 4 (if adv then rd 8 4 else al) ++ le8 (rd 16 8) ++ le8 (if adv then rd 16 8 else bl)
  let s := if acted then (s.phWrite dom pa blk).markStale pa 32 else s
  let s := arrs.foldl (fun s p =>
    s.reply p.core (if arrOk then .value (w64 phase) else .fault .sbarOverrun 0)) s
  let s := if bytOk then s
    else (byts.filter fun p => decide (p.core < 88)).foldl (fun s p => s.faultOn p.core
      { cause := .sbarOverrun, obs := 8 + p.op.channel, wr := true, addr := w64 p.va, rpc := (s.core p.core).pc }) s
  if adv then s.wake false dom pa (w64 (phase + 1)) else s

def HomeOp.isFill : HomeOp → Bool
  | .fill _ => true
  | _ => false

/-- A request that its home serves after the arrivals, byte posts and fills that have reached it too (Table 13-3). -/
def HomeOp.last : HomeOp → Bool
  | .wait _ | .get => true
  | _ => false

/-- The request that a home serves next: updates before waits (Table 13-3); of the fills of one future the lowest core's is
applied first (R274). -/
def State.nextAt (s : State) (pa : Nat) : Option BarPost :=
  let here := s.cp.posts.filter fun p => p.pa == pa
  let p := match here.find? fun p => !p.op.last with
    | some p => some p
    | none => here.head?
  p.map fun p =>
    if p.op.isFill then
      (here.filter fun x => x.dom == p.dom && x.op.isFill).foldl (fun m x => if x.core < m.core then x else m) p
    else p

/-- SBAR_HOME_STEP (R144, R145): the requests that have reached a block. Arrivals and byte posts are applied in one step,
and a request of another kind is a step of its own. -/
def execSbarHomeStep (pa : Nat) (s : State) : Res :=
  match s.nextAt pa with
  | none => .next s
  | some p =>
    match s.homeReady p.core p.dom pa 32 with
    | .wait t => .next t
    | .err _ => .next s
    | .ok _ s =>
      let t := { s with cp := { s.cp with posts := s.cp.posts.erase p } }
      match p.op with
      | .wait b => .next (t.homeWait p b)
      | .fill v => .next (t.homeFill p v)
      | .get => .next (t.homeGet p)
      | _ =>
        let bar := fun (x : BarPost) =>
          x.pa == pa && x.dom == p.dom && (x.op.arrivals.isSome || x.op.byteCount.isSome)
        let t := { s with cp := { s.cp with posts := s.cp.posts.filter fun x => !bar x } }
        .next (t.barStep p.dom pa (s.cp.posts.filter bar))

end Sys2Proof.Machine
end

