-- ==== Sys2Proof/Machine/Transfer.lean ====
section
/-! DEFINITION. Transfer channels (R186-R205): affine addresses, copies in segments, control steps, watermarks,
footprints. A step acts on the entry that a channel of the current core executes. -/

namespace Sys2Proof.Machine

/-! ## The channel of a step -/

/-- In xsec the channel is the one that runs the micro-program; elsewhere the word names it (R103). -/
def State.xch (s : State) (ch : BitVec 3) : BitVec 3 := if (s.eng (.ch s.chan)).inProg then s.chan else ch

def State.xc (s : State) (k : BitVec 3) : Channel := vget s.me.ch .zero k.toNat

def State.updX (s : State) (k : BitVec 3) (f : Channel → Channel) : State := s.updChan s.cur k.toNat f

def State.xFault (s : State) (k : BitVec 3) (c : Cause) (addr : Int := 0) (wr : Bool := false)
    (info0 info1 : Word := 0) : State :=
  s.unitFault (.ch k) c (addr := BitVec.ofInt 64 addr) (wr := wr) (info0 := info0) (info1 := info1)

/-- A step that ends an undercoat launch (R301). -/
def State.xNotUc (s : State) (f : Res) : Res :=
  match s.me.uc with
  | some id => .next (s.discardUc id 5)
  | none => f

/-! ## Affine addresses (R187, R188) -/

/-- The coordinate of a level: circular or plain. -/
def coord (loop org : Word) (k i : Nat) (circBit : Nat) : Nat :=
  if fld loop circBit 1 = 1 then (fld org (10 * k) 10 + i) % (fld loop 18 10 + 1) else i

/-- An address of a body: side 0 the source, 1 the destination. -/
def Channel.addr (h : Channel) (side : Nat) (base : Nat) : Int :=
  let one := fun k =>
    let l := vget h.active.loops 0 k
    let c := coord l h.org k (vget h.eng.idx 0 k) (16 + side)
    (c : Int) * sextNat 32 (fld (vget h.active.strs 0 k) (32 * side) 32)
  (base : Int) + ((List.range 6).map one).foldl (· + ·) 0

/-- The linear iteration number L. -/
def linIdx : List Nat → List Nat → Nat
  | i :: is, n :: ns => i + n * linIdx is ns
  | _, _ => 0

def Channel.lin (h : Channel) : Nat := linIdx h.eng.idx.toList (h.active.loops.toList.map tripOf)

/-- The spaces of Table 9-3. -/
inductive XSpace
  | glob | spad | tile
  deriving DecidableEq, Repr

/-- One side of a copy: its space and byte runs. -/
structure Side where
  sp : XSpace
  runs : List (Int × Nat)
  deriving DecidableEq, Repr

def spaceOf (w : Word) : Option XSpace :=
  match fld w 56 3 with
  | 0 => some .glob
  | 1 => some .spad
  | 2 => some .tile
  | _ => none

/-- A byte run's address check in its space (R188). -/
def runFail (c : Core) (n : Nat) (sp : XSpace) (r : Int × Nat) : Option Cause :=
  match sp with
  | .glob => if r.1 < 0 ∨ r.1 + r.2 > 2 ^ 56 then some .addrRange else none
  | .spad => if r.1 < 0 ∨ r.1 + r.2 > 0x200000 then some .spadRange else none
  | .tile =>
    if r.1 < 0 ∨ r.1 ≥ 2 ^ 20 ∨ r.1 % 16384 + r.2 > 16384 ∨ (c.slotArray n (r.1 / 2 ^ 18).toNat).isNone
    then some .chTile else none

/-- The first failing run of a side; every byte of a tile copy lies in one tile. -/
def Side.fail (c : Core) (n : Nat) (d : Side) : Option (Cause × Int) :=
  match d.runs.findSome? fun r => (runFail c n d.sp r).map fun x => (x, r.1) with
  | some x => some x
  | none =>
    match d.runs with
    | [] => none
    | r :: rs =>
      if d.sp = .tile ∧ rs.any fun q => q.1 / 16384 != r.1 / 16384 then some (.chTile, r.1) else none

/-- Read a run of a side. -/
def State.sideRead (s : State) (k : BitVec 3) (sp : XSpace) (a len : Nat) : Try (List Byte) :=
  match sp with
  | .glob => s.rdA s.cur (8 + k.toNat) false a len
  | .spad => s.rdA s.cur (8 + k.toNat) true a len
  | .tile =>
    match s.me.slotArray s.cur (a / 2 ^ 18) with
    | some x =>
      if !s.arrayUp s.cur x then .wait s else .ok ((s.array x).tiles.rdBytes (a % 2 ^ 18) len) s
    | none => .ok (List.replicate len 0) s

/-! ## Watermarks (R196) -/

/-- MARK passes every offset that filled ranges cover from it on. -/
def advanceMark (filled : List (Nat × Nat)) (wend : Nat) : Nat → Nat → Nat
  | 0, m => m
  | f + 1, m =>
    match filled.find? fun r => decide (r.1 ≤ m ∧ m < r.1 + r.2) with
    | some r => advanceMark filled wend f (Nat.min wend (r.1 + r.2))
    | none => m

def Channel.advance (h : Channel) : Channel :=
  if h.mark < h.wend then
    let m := advanceMark h.filled h.wend (h.filled.length + 1) h.mark
    { h with mark := m, filled := if m = h.wend then [] else h.filled }
  else { h with filled := [] }

/-- A copy has written scratchpad bytes: MARK advances, unless the copy was emitted too early (R196, R272). -/
def Channel.wrote (h : Channel) (a n : Nat) : Channel :=
  if h.early then h else { h with filled := h.filled ++ [(a, n)] }.advance

/-- A copy-class step of the channel is emitted now: one of the arming's own cycle does not fill the range (R272). One that
starts again after a fault has been emitted before. -/
def Channel.emit (h : Channel) : Channel := if h.emitted then h else { h with early := h.armed, emitted := true }

/-! ## The writes of a copy -/

/-- A failed write of a copy: the lowest failing byte is kept for the copy's end (R92, R189). -/
def State.copyNote (s : State) (k : BitVec 3) (f : Option (FailCause × Nat)) : State :=
  match f with
  | none => s
  | some f =>
    s.updX k fun h => { h with copyFail := some (match h.copyFail with
      | some g => if g.2 ≤ f.2 then g else f
      | none => f) }

/-- Write a run of a side. -/
def State.sideWrite (s : State) (k : BitVec 3) (sp : XSpace) (a : Nat) (bs : List Byte) : Try Unit :=
  match sp with
  | .glob => (s.unitWr (.ch k) false a bs).bind fun f s => .ok () (s.copyNote k f)
  | .spad =>
    (s.unitWr (.ch k) true a bs).bind fun f s =>
      .ok () (if f.isSome then s.copyNote k f else s.updX k fun h => h.wrote a bs.length)
  | .tile =>
    match s.me.slotArray s.cur (a / 2 ^ 18) with
    | some x =>
      let arr := s.array x
      if !s.arrayUp s.cur x then .wait s
      else .ok () (s.setArray x { arr with tiles := arr.tiles.wrBytes (a % 2 ^ 18) bs })
    | none => .ok () s

/-! ## Footprints (R197) -/

def Foot.conflicts (a b : Foot) : Bool :=
  a.sp == b.sp && (a.wr || b.wr) && decide (a.base < b.base + b.len ∧ b.base < a.base + a.len)

/-- An entry of channel `k` conflicts with an earlier one of the tracker; the footprints of an XJOB's card count for any
until the card is read (R202). -/
def Core.edgeHeld (c : Core) (k : Nat) : Bool :=
  let rec go (earlier : List Tracked) : List Tracked → Bool
    | [] => false
    | t :: r =>
      (t.ch == k && earlier.any fun e =>
        e.ch != k && t.foots.any fun a => e.unread || e.foots.any fun b => a.conflicts b)
        || go (t :: earlier) r
  go [] c.tracker

/-- A footprint from the a and b of XFOOT; none when malformed. R195 gives the checks "as they apply": a global base with a
bit of [62:56] set is malformed (CH_CFG, no ADDR_RANGE), and a footprint may run past the end of its space, which it only
covers up to there (DESIGN CHOICE, assumption 71). -/
def footOf (a b : Word) : Option Foot :=
  let sp := fld a 63 1 == 1
  if fld b 32 30 ≠ 0 ∨ fld b 0 32 = 0 ∨ fld b 62 2 = 0 ∨ (sp ∧ fld a 21 42 ≠ 0) ∨ (!sp ∧ fld a 56 7 ≠ 0) then none
  else some { sp := sp, base := if sp then fld a 0 21 else fld a 0 56, len := fld b 0 32
              rd := fld b 62 1 == 1, wr := fld b 63 1 == 1 }

/-- An entry that registers takes its place in the tracker: of those of one cycle, in ascending channel order (R197). -/
def insTracked (t : Tracked) : List Tracked → List Tracked
  | [] => [t]
  | x :: r => if x.at_ = t.at_ ∧ t.ch < x.ch then t :: x :: r else x :: insTracked t r

def Core.register (c : Core) (k : Nat) (fs : List Foot) (unread : Bool) : Core :=
  { c with tracker := insTracked { ch := k, foots := fs, unread := unread, at_ := c.sched } c.tracker }

/-- Drop the last entry of a channel from the tracker. -/
def dropTracked (k : Nat) (l : List Tracked) : List Tracked :=
  match l.reverse.findIdx? fun t => t.ch == k with
  | some i => l.eraseIdx (l.length - 1 - i)
  | none => l

/-! ## Copies in segments (R189-R191) -/

/-- Split a pair of runs of one length at every 64 KiB boundary of a global side. -/
def segs (gs gd : Bool) : Nat → Nat → Nat → Nat → List (Nat × Nat × Nat)
  | 0, _, _, _ => []
  | f + 1, a, b, n =>
    if n = 0 then []
    else
      let m := Nat.min n (Nat.min (if gs then 65536 - a % 65536 else n) (if gd then 65536 - b % 65536 else n))
      (a, b, m) :: segs gs gd f (a + m) (b + m) (n - m)

/-- The end of a copy: one failure record and FAIL (R189). -/
def State.copyEnd (s : State) (k : BitVec 3) : State :=
  let h := s.xc k
  let s := match h.copyFail with
    | some f => (s.upd fun c => c.recordFail f.1 f.2).updX k fun h => { h with fail := true, copyFail := none }
    | none => s
  (s.updEng s.cur (.ch k) fun e => { e with outs := none, parts := [] }).updX k fun h =>
    { h with early := false, emitted := false }

/-- How much of a copy could be done. -/
inductive CopyEnd
  | done (s : State)
  | wait (s : State)
  | err (s : State) (wr : Bool) (e : AccErr)

/-- Note the next segment or element. -/
def State.atSeg (s : State) (k : BitVec 3) (j : Nat) : State := s.updEng s.cur (.ch k) fun e => e.goOn j s.me.sched

/-- Writes of segments or elements from the `j`-th on. -/
def sideWrites (k : BitVec 3) (d : XSpace) : List (Nat × List Byte) → Nat → State → CopyEnd
  | [], _, s => .done s
  | (a, bs) :: r, j, s =>
    match s.sideWrite k d a bs with
    | .ok _ t => sideWrites k d r (j + 1) t
    | .wait t => .wait t
    | .err e => .err (s.atSeg k j) true e

/-- The physical pieces of a run: offset in the run, address and length. Scratchpad bytes outside windows have none. -/
def State.physOf (s : State) (k : BitVec 3) (sp : XSpace) (a n : Nat) : List (Nat × Nat × Nat) :=
  match sp with
  | .glob =>
    match s.xlate s.cur (8 + k.toNat) a false with
    | .ok p => [(0, p.1, n)]
    | .error _ => []
  | .spad => s.me.tiles.filterMap fun t =>
    let lo := Nat.max a t.off
    let hi := Nat.min (a + n) (t.off + t.size)
    if lo < hi then some (lo - a, t.pa + (lo - t.off), hi - lo) else none
  | .tile => []

/-- The offsets of a source segment whose bytes the earlier segments' destinations hold through an alias (R191). -/
def State.aliased (s : State) (k : BitVec 3) (a b : XSpace) (prev : List (Nat × Nat × Nat)) (x n : Nat) :
    List (Nat × Nat) :=
  let d := prev.flatMap fun p => s.physOf k b p.2.1 p.2.2
  (s.physOf k a x n).flatMap fun p => d.filterMap fun q =>
    let lo := Nat.max p.2.1 q.2.1
    let hi := Nat.min (p.2.1 + p.2.2) (q.2.1 + q.2.2)
    if lo < hi then some (p.1 + (lo - p.2.1), p.1 + (hi - p.2.1)) else none

/-- The bytes of a source segment: those that the copy itself has already overwritten are undefined (R15, R191). -/
def State.segBytes (s : State) (rs : List (Nat × Nat)) (bs : List Byte) : List Byte × State :=
  if rs.isEmpty then (bs, s)
  else
    let d := s.draw
    (bs.zipIdx.map fun x =>
      if rs.any fun r => decide (r.1 ≤ x.2 ∧ x.2 < r.2) then Config.freeByte d.1 x.2 else x.1, d.2)

/-- Read segments, after those of `prev`, up to the first that fails: the writes they ask for. `whole`: an overlapping
copy, which no segment of its own disturbs. -/
def readSegs (k : BitVec 3) (a b : XSpace) (whole : Bool) : List (Nat × Nat × Nat) → List (Nat × Nat × Nat) →
    List (Nat × List Byte) → State → Try (List (Nat × List Byte) × Option AccErr)
  | [], _, acc, s => .ok (acc.reverse, none) s
  | (x, y, n) :: r, prev, acc, s =>
    match s.sideRead k a x n with
    | .ok bs s =>
      let p := s.segBytes (if whole then [] else s.aliased k a b prev x n) bs
      readSegs k a b whole r ((x, y, n) :: prev) ((y, p.1) :: acc) p.2
    | .wait s => .wait s
    | .err e => .ok (acc.reverse, some e) s

/-- The writes of a copy, as of any step. -/
def copyOuts (d : XSpace) (ws : List (Nat × List Byte)) : OutW :=
  { ws := ws.map fun (w : Nat × List Byte) => (d == XSpace.spad, w.1, w.2) }

/-- A copy writes what it has read, from the segment or element that it stands at. Where a write waits, they are kept as
those of any step (R85, R250). `stop` is what ends it after the last of them; `whole`: an overlapping copy, of which a
fault leaves every segment unwritten (R191). -/
def State.xput (s : State) (k : BitVec 3) (d : XSpace) (whole : Bool) (ws : List (Nat × List Byte))
    (stop : Option (State → State)) (f : State → Res) : Res :=
  let j := (s.eng (.ch k)).elem
  match sideWrites k d ws j s, stop with
  | .done t, none => f (t.copyEnd k)
  | .done t, some g => .next (g (t.atSeg k (j + ws.length)))
  | .wait t, e => .next (s.keepOuts t (.ch k) (copyOuts d ws) (e.isNone && d != .tile))
  | .err t wr e, _ =>
    .next (((if whole then s else t).updEng s.cur (.ch k) fun e => { e with outs := none }).unitAccFail (.ch k) wr e)

/-- A copy that has read its source and waits goes on writing; any other does `g`. -/
def State.xagain (s : State) (k : BitVec 3) (d : XSpace) (whole : Bool) (f : State → Res) (g : Res) : Res :=
  match (s.eng (.ch k)).outs with
  | some o => s.xput k d whole (o.ws.map fun w => (w.2.1, w.2.2)) none f
  | none => g

def Side.meets (a b : Side) : Bool :=
  a.sp == b.sp && a.runs.any fun x => b.runs.any fun y => decide (x.1 < y.1 + y.2 ∧ y.1 < x.1 + x.2)

/-- Lines that this copy's source reads filled take the expected read count, each read of it counted (R195, R256). -/
def State.countFills (s : State) (k : BitVec 3) (before : List LineSt) : State :=
  let r := (s.xc k).rcnt.toNat
  if r = 0 then s
  else
    let new := fun (l : LineSt) =>
      l.rc.isNone && l.dirty == 0 && l.lastCore == s.cur && !(before.any fun b => b.dom == l.dom && b.line == l.line)
    { s with lines := s.lines.filterMap fun l =>
        if new l then (if r ≤ l.run then none else some { l with rc := some (r - l.run) }) else some l }

/-- What a copy-class word asks for. -/
inductive XOp
  | copy (l : Word)
  | tile (l r : Word)
  | sparse (l slot : Word)
  | gather (sz m : Word)
  | fill (l pat : Word)
  | red (l op : Word)

/-- Where a copy takes its addresses from. -/
structure XArgs where
  src : Word
  dst : Word
  srcA : Int
  dstA : Int
  rstr : Word

/-- The values outside the limits of Table 9-7 (R189, R192, R193). -/
def XOp.cfgBad (o : XOp) (x : XArgs) : Bool :=
  let len := fun (l : Word) => decide (l.toNat < 1 ∨ 4096 < l.toNat)
  let sOk := (spaceOf x.src).isSome
  let dOk := (spaceOf x.dst).isSome
  match o with
  | .copy l => len l || !sOk || !dOk
  | .tile l r => len l || decide (r.toNat < 1 ∨ 64 < r.toNat ∨ 4096 < l.toNat * r.toNat) || !sOk || !dOk
  | .sparse l slot => !(l == 64 || l == 128) || decide (3 < slot.toNat) || !sOk
  | .gather sz m =>
    !(sz == 1 || sz == 2 || sz == 4 || sz == 8) || decide (fld m 0 10 < 1 ∨ 512 < fld m 0 10) || fld m 11 53 != 0
      || !sOk || !dOk
  | .fill l _ => len l || !dOk
  | .red l op =>
    let t := fld op 0 5
    len l || !(t == 0 || t == 1 || t == 2 || t == 0x0E || t == 0x0F || t == 0x12 || t == 0x13)
      || fld op 5 1 != 0 || fld op 6 2 == 3 || fld op 8 56 != 0 || l.toNat % (tyWidth t / 8) != 0 || !sOk || !dOk
      || spaceOf x.dst == some .tile

/-- Runs of an XTILE side. -/
def tileRuns (a : Int) (l r : Nat) (str : Int) : List (Int × Nat) :=
  (List.range r).map fun (j : Nat) => (a + j * str, l)

/-- The destination of a copy whose source has failed for good is undefined (R15): of a read that nobody answers, the
segment of that read (R321); of an error, all that the copy has not written (R319). `rest`: address and length of the runs
that are still to be written, the failed one first. The watermark stays below them, and a location that cannot be had at
once keeps its bytes. -/
def State.undef (s : State) (k : BitVec 3) (d : XSpace) (e : AccErr) (rest : List (Nat × Nat)) : State :=
  let l := match e with
    | .refused _ => rest.take 1
    | .poison _ => rest
    | _ => []
  if l.isEmpty then s
  else
    let x := s.draw
    l.zipIdx.foldl (fun t p =>
      let bs := (List.range p.1.2).map fun i => Config.freeByte x.1 (4096 * p.2 + i)
      match d with
      | .tile =>
        match t.sideWrite k .tile p.1.1 bs with
        | .ok _ t => t
        | _ => t
      | d =>
        match t.unitWr (.ch k) (d == .spad) p.1.1 bs with
        | .ok _ t => t
        | _ => t) x.2

/-- XCOPY and XTILE. -/
def State.xcopyRuns (s : State) (k : BitVec 3) (a b : Side) (f : State → Res) : Res :=
  match a.fail s.me s.cur, b.fail s.me s.cur with
  | some (c, x), _ => .next (s.xFault k c x)
  | none, some (c, x) => .next (s.xFault k c x (wr := true))
  | none, none =>
    let l := (a.runs.zip b.runs).flatMap fun p =>
      segs (a.sp == .glob) (b.sp == .glob) 3 p.1.1.toNat p.2.1.toNat p.1.2
    let whole := a.meets b
    let j := (s.eng (.ch k)).elem
    s.xagain k b.sp whole f
      (match readSegs k a.sp b.sp whole (l.drop j) (l.take j) [] s with
      | .wait t => .next (s.waits t (.ch k))
      | .err e => .next (s.unitAccFail (.ch k) false e)
      | .ok (ws, e) t =>
        let t := if a.sp = .glob then t.countFills k s.lines else t
        match e with
        | none => t.xput k b.sp whole ws none f
        | some e =>
          let fail := fun (t : State) (n : Nat) =>
            (t.undef k b.sp e ((l.drop n).map fun p => (p.2.1, p.2.2))).unitAccFail (.ch k) false e
          if whole then .next (fail s 0) else t.xput k b.sp false ws (some fun t => fail t (j + ws.length)) f)

/-- Why a gather ends before its last element. -/
inductive GStop
  | bad (c : Cause) (a : Nat)
  | err (e : AccErr)

/-- Read elements of a gather up to the first that fails (R193). `prev`: the destinations of the elements before; bytes
that the copy has overwritten through an alias are undefined (R191). -/
def gatherRead (k : BitVec 3) (sp : Bool) (d : XSpace) (whole : Bool) (sz : Nat) (dst : Int) :
    List Nat → List (Nat × Nat × Nat) → List (List Byte) → State → Try (List (List Byte) × Option GStop)
  | [], _, acc, s => .ok (acc.reverse, none) s
  | a :: r, prev, acc, s =>
    if a % sz ≠ 0 then .ok (acc.reverse, some (.bad .align a)) s
    else if sp && decide (a + sz > 0x200000) then .ok (acc.reverse, some (.bad .spadRange a)) s
    else if !sp && decide (a + sz > 2 ^ 56) then .ok (acc.reverse, some (.bad .addrRange a)) s
    else
      match s.rdA s.cur (8 + k.toNat) sp a sz with
      | .wait s => .wait s
      | .err e => .ok (acc.reverse, some (.err e)) s
      | .ok bs s =>
        let p := s.segBytes (if whole then [] else s.aliased k (if sp then .spad else .glob) d prev a sz) bs
        gatherRead k sp d whole sz (dst + sz) r ((a, dst.toNat, sz) :: prev) (p.1 :: acc) p.2

/-- One element of an XRED (R192). -/
def redElem (t op : Nat) (y x : Nat) : Nat :=
  match tyF t with
  | some f =>
    let u := f.decode x
    let v := f.decode y
    let z := match op with
      | 0 => (add32 (rne32 v).1 (rne32 u).1).1
      | 1 => (rne32 (fMinMax false v u).1).1
      | _ => (rne32 (fMinMax true v u).1).1
    (f.round .rne 0 (fp32.decode z)).1
  | none =>
    let w := tyWidth t
    let lt := if tyI t = some true then decide (sextNat w y < sextNat w x) else decide (y < x)
    match op with
    | 0 => (y + x) % 2 ^ w
    | 1 => if lt then y else x
    | _ => if lt then x else y

/-- Elements of an XRED from the `j`-th on, each one atomic event at its home. -/
def xredFrom (k : BitVec 3) (sp : Bool) (t op sz : Nat) (dst : Int) : List Nat → Nat → State → CopyEnd
  | [], _, s => .done s
  | x :: r, j, s =>
    let a := (dst + j * sz).toNat
    match s.unitRmw (.ch k) sp a sz fun y => redElem t op y x with
    | .ok f s =>
      let s := s.copyNote k f
      xredFrom k sp t op sz dst r (j + 1) (if sp && f.isNone then s.updX k fun h => h.wrote a sz else s)
    | .wait t => .wait ((s.waits t (.ch k)).atSeg k j)
    | .err e => .err (s.atSeg k j) true e

/-- XMETA, when its queue has room. -/
def State.xmeta (s : State) (k : BitVec 3) (d : Side) (slot : Nat) (f : State → Res) : Res :=
  match s.me.slotArray s.cur slot, d.runs.head? with
  | some arr, some r =>
    match d.fail s.me s.cur with
    | some (c, a) => .next (s.xFault k c a)
    | none =>
      if (s.array arr).sparse.length ≥ 32 then .next s
      else
        match readSegs k d.sp .tile true (segs (d.sp == .glob) false 3 r.1.toNat 0 r.2) [] [] s with
        | .wait t => .next (s.waits t (.ch k))
        | .err e => .next (s.unitAccFail (.ch k) false e)
        | .ok (_, some e) _ => .next (s.unitAccFail (.ch k) false e)
        | .ok (ws, none) t =>
          let t := if d.sp = .glob then t.countFills k s.lines else t
          let y := t.array arr
          f ((t.setArray arr { y with sparse := y.sparse ++ [(ws.map (·.2)).flatten] }).copyEnd k)
  | _, _ => .next (s.xFault k .chTile)

/-- XGATHER: the index list is read once and kept while the step stands at an element (R81, R193). -/
def State.xgather (s : State) (k : BitVec 3) (a d : Side) (sp : Bool) (sz n : Nat) (dst : Int) (f : State → Res) : Res :=
  match a.fail s.me s.cur, d.fail s.me s.cur with
  | some (c, y), _ => .next (s.xFault k c y)
  | none, some (c, y) => .next (s.xFault k c y (wr := true))
  | none, none =>
    let e := s.eng (.ch k)
    let l := segs (a.sp == .glob) false 3 ((a.runs.headD (0, 0)).1.toNat) 0 (8 * n)
    match if e.parts.isEmpty then readSegs k a.sp .tile true l [] [] s else .ok ([], none) s with
    | .wait t => .next (s.waits t (.ch k))
    | .err e => .next (s.unitAccFail (.ch k) false e)
    | .ok (_, some e) _ => .next (s.unitAccFail (.ch k) false e)
    | .ok (ws, none) t =>
      let ix := if e.parts.isEmpty then chunks 8 n ((ws.map (·.2)).flatten) else e.parts
      let t := if a.sp = .glob then t.countFills k s.lines else t
      let own := ((d.sp == .spad && sp) || (d.sp == .glob && !sp))
        && ix.any fun i => decide ((i : Int) < dst + sz * n ∧ dst < (i : Int) + sz)
      let whole := own || a.meets d
      s.xagain k d.sp whole f
        (match gatherRead k sp d.sp whole sz (dst + e.elem * sz) (ix.drop e.elem)
            ((List.range e.elem).map fun (i : Nat) => (0, (dst + i * sz).toNat, sz)) [] t with
        | .wait t => .next (s.waits t (.ch k))
        | .err e => .next (s.unitAccFail (.ch k) false e)
        | .ok (bss, stop) u =>
          let u := if sp then u else u.countFills k t.lines
          let ws := bss.zipIdx.map fun b => ((dst + (e.elem + b.2 : Nat) * sz).toNat, b.1)
          match stop with
          | none => u.xput k d.sp whole ws none f
          | some (.bad c y) => u.xput k d.sp false ws (some fun t => (t.copyEnd k).xFault k c y) f
          | some (.err x) =>
            let fail := fun (t : State) (j : Nat) =>
              (t.undef k d.sp x ((List.range (n - j)).map fun (i : Nat) => ((dst + (j + i : Nat) * sz).toNat, sz))).unitAccFail
                (.ch k) false x
            if whole then .next (fail s 0)
            else
              u.xput k d.sp false ws (some fun t =>
                fail (t.updEng t.cur (.ch k) fun e => { e with parts := ix }) (e.elem + bss.length)) f)

/-- XRED applies the elements that it has read and not yet applied. -/
def State.xredApply (s : State) (k : BitVec 3) (d : Side) (ty op sz n : Nat) (dst : Int) (f : State → Res) : Res :=
  let e := s.eng (.ch k)
  match xredFrom k (d.sp == .spad) ty op sz dst (e.parts.drop e.elem) e.elem s with
  | .done t => if e.parts.length = n then f (t.copyEnd k) else .next (t.atSeg k e.parts.length)
  | .wait t => .next (t.updEng t.cur (.ch k) fun x => { x with read := decide (e.parts.length = n) })
  | .err t wr e => .next (t.unitAccFail (.ch k) wr e)

/-- XRED: source elements are read segment by segment, before any of them is applied, and kept until the copy ends. -/
def State.xred (s : State) (k : BitVec 3) (a d : Side) (ty op sz n : Nat) (src dst : Int) (f : State → Res) : Res :=
  match a.fail s.me s.cur, d.fail s.me s.cur with
  | some (c, y), _ => .next (s.xFault k c y)
  | none, some (c, y) => .next (s.xFault k c y (wr := true))
  | none, none =>
    s.xNotUc
      (let e := s.eng (.ch k)
      if e.elem < e.parts.length then s.xredApply k d ty op sz n dst f
      else
        let done := e.parts.length * sz
        let l := segs (a.sp == .glob) (d.sp == .glob) 3 src.toNat dst.toNat (n * sz)
        let todo := segs (a.sp == .glob) (d.sp == .glob) 3 (src + done).toNat (dst + done).toNat (n * sz - done)
        let whole := a.meets d
        match readSegs k a.sp d.sp whole todo (l.take (l.length - todo.length)) [] s with
        | .wait t => .next (s.waits t (.ch k))
        | .err e => .next (s.unitAccFail (.ch k) false e)
        | .ok (ws, stop) t =>
          let bs := (ws.map (·.2)).flatten
          match stop with
          | some x =>
            if whole || bs.isEmpty then .next (s.unitAccFail (.ch k) false x)
            else
              (t.updEng t.cur (.ch k) fun e => { e with parts := e.parts ++ chunks sz (bs.length / sz) bs }).xredApply
                k d ty op sz n dst f
          | none =>
            let t := if a.sp = .glob then t.countFills k s.lines else t
            (t.updEng t.cur (.ch k) fun e => { e with parts := e.parts ++ chunks sz (bs.length / sz) bs }).xredApply
              k d ty op sz n dst f)

/-- Carry out a copy-class step (Table 9-7); `f` goes on when it is done. -/
def State.xop (s : State) (k : BitVec 3) (o : XOp) (x : XArgs) (f : State → Res) : Res :=
  if o.cfgBad x then .next (s.xFault k .chCfg)
  else if s.me.edgeHeld k.toNat then .next s
  else
    let ss := (spaceOf x.src).getD .glob
    let ds := (spaceOf x.dst).getD .glob
    match o with
    | .copy l => s.xcopyRuns k ⟨ss, [(x.srcA, l.toNat)]⟩ ⟨ds, [(x.dstA, l.toNat)]⟩ f
    | .tile l r =>
      s.xcopyRuns k ⟨ss, tileRuns x.srcA l.toNat r.toNat (sextNat 32 (fld x.rstr 0 32))⟩
        ⟨ds, tileRuns x.dstA l.toNat r.toNat (sextNat 32 (fld x.rstr 32 32))⟩ f
    | .fill l pat =>
      let d : Side := ⟨ds, [(x.dstA, l.toNat)]⟩
      match d.fail s.me s.cur with
      | some (c, a) => .next (s.xFault k c a (wr := true))
      | none =>
        let bs := (List.range l.toNat).map fun j => BitVec.ofNat 8 (fld pat (8 * (j % 8)) 8)
        let parts := segs false (ds == .glob) 3 0 x.dstA.toNat l.toNat
        let ws := parts.map fun p => (p.2.1, (bs.drop p.1).take p.2.2)
        s.xagain k ds false f (s.xput k ds false (ws.drop (s.eng (.ch k)).elem) none f)
    | .sparse l slot => s.xmeta k ⟨ss, [(x.srcA, l.toNat)]⟩ slot.toNat f
    | .gather szw m =>
      let sz := szw.toNat
      let n := fld m 0 10
      if x.srcA % 8 ≠ 0 then .next (s.xFault k .align x.srcA)
      else s.xgather k ⟨ss, [(x.srcA, 8 * n)]⟩ ⟨ds, [(x.dstA, sz * n)]⟩ (fld m 10 1 == 1) sz n x.dstA f
    | .red l op =>
      let ty := fld op 0 5
      let sz := tyWidth ty / 8
      if x.srcA % sz ≠ 0 then .next (s.xFault k .align x.srcA)
      else if x.dstA % sz ≠ 0 then .next (s.xFault k .align x.dstA (wr := true))
      else
        s.xred k ⟨ss, [(x.srcA, l.toNat)]⟩ ⟨ds, [(x.dstA, l.toNat)]⟩ ty (fld op 6 2) sz (l.toNat / sz) x.srcA x.dstA f

/-! ## Copy-class words -/

/-- A copy-class word of a body or an entry (R190): the arguments from the active registers. -/
def State.xcopyWord (s : State) (ch : BitVec 3) (o : XOp) : Res :=
  let k := s.xch ch
  let h := s.xc k
  if h.copied ∧ h.eng.inProg then .next (s.xFault k .chCfg)
  else
    let x : XArgs := { src := h.active.src, dst := h.active.dst, srcA := h.addr 0 (fld h.active.src 0 56)
                       dstA := h.addr 1 (fld h.active.dst 0 56), rstr := h.active.rstr }
    s.xop k o x fun t => .next ((t.updX k fun h => { h with copied := true }).unitDone (.ch k))

/-- A captured value of the channel. -/
def State.xv (s : State) (ch : BitVec 3) (a : Src) : Word := s.ev (.ch (s.xch ch)) a

def execXcopy (ch : BitVec 3) (a : Src) (s : State) : Res := s.xcopyWord ch (.copy (s.xv ch a))
def execXtile (ch : BitVec 3) (a b : Src) (s : State) : Res := s.xcopyWord ch (.tile (s.xv ch a) (s.xv ch b))
def execXmeta (ch : BitVec 3) (a b : Src) (s : State) : Res := s.xcopyWord ch (.sparse (s.xv ch a) (s.xv ch b))
def execXgather (ch : BitVec 3) (a b : Src) (s : State) : Res := s.xcopyWord ch (.gather (s.xv ch a) (s.xv ch b))
def execXfill (ch : BitVec 3) (a b : Src) (s : State) : Res := s.xcopyWord ch (.fill (s.xv ch a) (s.xv ch b))
def execXred (ch : BitVec 3) (a b : Src) (s : State) : Res := s.xcopyWord ch (.red (s.xv ch a) (s.xv ch b))

/-! ## Control steps (R195) -/

/-- A word address with [63] = 1 for a scratchpad offset (R195, R199): the space, the address, the first failure. -/
def wordAddr (a : Word) (align : Nat) : Bool × Nat × Option Cause :=
  let sp := fld a 63 1 == 1
  if sp then
    let o := fld a 0 21
    (true, o, if fld a 21 42 ≠ 0 then some .chCfg else addrFault true o align align)
  else (false, a.toNat, addrFault false a.toNat align align)

/-- A failed write of a control step enters the record and sets FAIL (R195, Table 9-6). -/
def State.xRecord (s : State) (k : BitVec 3) (f : Option (FailCause × Nat)) : State :=
  match f with
  | none => s
  | some f => (s.upd fun c => c.recordFail f.1 f.2).updX k fun h => { h with fail := true }

/-- A signal value with the FAIL bit. -/
def Channel.withFail (h : Channel) (v : Nat) : Nat := if h.fail then Nat.lor (v % 2 ^ 64) (2 ^ 63) else v % 2 ^ 64

/-- Write a signal or sequence word, a release at `sc`; FAIL goes with it (Table 3-5). -/
def State.signal (s : State) (k : BitVec 3) (sc : Scope) (sp : Bool) (a v : Nat) (f : State → Res) : Res :=
  let h := s.xc k
  if !s.me.writtenAt sc then .next s
  else
    match s.unitWr (.ch k) sp a (le8 (h.withFail v)) with
    | .ok r t => f ((t.updX k fun h => { h with fail := false }).xRecord k r)
    | .wait t => .next (s.waits t (.ch k))
    | .err e => .next (s.unitAccFail (.ch k) true e)

def execXsig (ch : BitVec 3) (a b : Src) (sc : Scope) (s : State) : Res :=
  let k := s.xch ch
  let w := wordAddr (s.xv ch a) 8
  match w.2.2 with
  | some c => .next (s.xFault k c w.2.1 (wr := true))
  | none =>
    if s.me.edgeHeld k.toNat then .next s
    else s.signal k sc w.1 w.2.1 ((s.xv ch b).toNat + (s.xc k).lin) fun t => .next (t.unitDone (.ch k))

/-- A byte post of a channel of core `n`. -/
def BarPost.from_ (p : BarPost) (n : Nat) (k : BitVec 3) : Bool :=
  p.core == n && p.op.byteCount.isSome && p.op.channel == k.toNat

/-- The reply to a byte post is missing: the failure is recorded. The post is performed now, as a free value says, or
never, so that nothing of it comes after the FENCE that reports it; under REFUSED and POISON it never is (R92, R93). -/
def State.postLost (s : State) (k : BitVec 3) (c : FailCause) (va : Nat) : State :=
  let d := s.draw
  let mine := fun (p : BarPost) => p.from_ s.cur k
  let never := match c with
    | .refused | .poison => true
    | _ => false
  let now := match d.2.cp.posts.find? mine with
    | some p =>
      if never || !(Config.freeWord d.1).getLsbD 0 then d.2
      else
        match execSbarHomeStep p.pa d.2 with
        | .next t => t
        | _ => d.2
    | none => d.2
  { now with cp := { now.cp with posts := now.cp.posts.filter fun p => !mine p } }.xRecord k (some (c, va))

def execXbar (ch : BitVec 3) (a b : Src) (sc : Scope) (s : State) : Res :=
  s.xNotUc
    (let k := s.xch ch
    let va := (s.xv ch a).toNat
    let n := (s.xv ch b).toNat
    match addrFault false va 32 32 with
    | some c => .next (s.xFault k c va (wr := true))
    | none =>
      if (s.eng (.ch k)).elem = 1 then
        match (s.eng (.ch k)).failOf false va with
        | some c => .next ((s.postLost k c va).unitDone (.ch k))
        | none => if s.cp.posts.any fun p => p.from_ s.cur k then .next s else .next (s.unitDone (.ch k))
      else if n = 0 then .next (s.unitDone (.ch k))
      else if s.me.edgeHeld k.toNat || !s.me.writtenAt sc then .next s
      else
        match s.blockAt s.cur va true (8 + k.toNat) with
        | .wait t => .next (s.waits t (.ch k))
        | .err e => .next (s.unitAccFail (.ch k) true e)
        | .ok p t =>
          match t.routePa t.cur p.1 with
          | .hold => .next s
          | .none => .next ((t.xRecord k (some (.refused, va))).unitDone (.ch k))
          | _ =>
            if t.isPoisoned p.1 32 then .next ((t.xRecord k (some (.poison, va))).unitDone (.ch k))
            else .next (((t.toHome t.cur va p.1 p.2 (.bytes k.toNat n)).noteAsk t.cur (8 + k.toNat) false true va 32 true).atSeg k 1))

def execXwrap (ch : BitVec 3) (a b : Src) (s : State) : Res :=
  let k := s.xch ch
  let h := s.xc k
  let l := (s.xv ch a).toNat
  let w := vget h.active.loops 0 l
  if l > 5 ∨ fld w 16 2 = 0 then .next (s.xFault k .chCfg)
  else
    let e : Int := fld w 18 10 + 1
    let v := ((fld h.org (10 * l) 10 : Int) + (s.xv ch b).toInt) % e
    .next ((s.updX k fun h => { h with org := setFld h.org (10 * l) 10 v.toNat }).unitDone (.ch k))

def execXrcnt (ch : BitVec 3) (a : Src) (s : State) : Res :=
  let k := s.xch ch
  let v := (s.xv ch a).toNat
  if v > 31 then .next (s.xFault k .chCfg)
  else .next ((s.updX k fun h => { h with rcnt := BitVec.ofNat 5 v }).unitDone (.ch k))

def execXfoot (ch : BitVec 3) (a b : Src) (s : State) : Res :=
  let k := s.xch ch
  match if (s.xc k).foots.length ≥ 2 then none else footOf (s.xv ch a) (s.xv ch b) with
  | none => .next (s.xFault k .chCfg)
  | some f => .next ((s.updX k fun h => { h with foots := h.foots ++ [f] }).unitDone (.ch k))

/-! ## Job cards (R198-R202): the start of a chain -/

/-- A chain or a single card starts. -/
def State.startChain (s : State) (k : BitVec 3) (card : Nat) (q : Word) (sc : Scope) (chain : Bool) : State :=
  s.updX k fun h =>
    { h with
      chain := some { card := card, step := .read, seqWord := q, scope := sc, chain := chain, waitAt := 0, last := 0
                      img := [] }
      doneCnt := if chain then 0 else h.doneCnt
      copied := true }

/-- XJOB (R202): its card takes its place in the tracker at the start of the entry, if there is room. -/
def execXjob (ch : BitVec 3) (a : Src) (s : State) : Res :=
  s.xNotUc
    (let k := s.xch ch
    let va := (s.xv ch a).toNat
    if (s.xc k).copied ∧ (s.eng (.ch k)).inProg then .next (s.xFault k .chCfg)
    else if !(s.xc k).foots.isEmpty then .next (s.xFault k .chCfg)
    else
      match addrFault false va 128 128 with
      | some c => .next (s.xFault k c va)
      | none =>
        let t := s.startChain k va 0 .pod false
        .next (if t.me.tracker.length < 32 then t.upd fun c => c.register k.toNat [] true else t))

def execXchain (ch : BitVec 3) (a b : Src) (sc : Scope) (s : State) : Res :=
  s.xNotUc
    (let k := s.xch ch
    let va := (s.xv ch a).toNat
    let q := s.xv ch b
    let qw := wordAddr q 8
    if (s.eng (.ch k)).inProg ∨ !(s.xc k).foots.isEmpty then .next (s.xFault k .chCfg)
    else
      match addrFault false va 128 128 with
      | some c => .next (s.xFault k c va)
      | none =>
        match if q = 0 then none else qw.2.2 with
        | some c => .next (s.xFault k c qw.2.1 (wr := true))
        | none => .next (s.startChain k va q sc true))

/-! ## Run and end (R203) -/

def execXrun (ch : BitVec 3) (e : BitVec 12) (s : State) : Res :=
  .next ((s.updX ch fun h => { h with copied := false }).enterProg (.ch ch) e.toNat)

def execXend (s : State) : Res :=
  let k := s.chan
  .next ((s.updX k fun h => { h with copied := false }).endBody (.ch k) (s.xc k).active.loops)

/-! ## The walk over cards (R199, R200) -/

/-- Doubleword of a card. -/
def ChainSt.dw (c : ChainSt) (off : Nat) : Nat := c.img.getD (off / 8) 0

/-- The footprints of a card; none when one is malformed. -/
def cardFoots (d : Nat → Nat) : Option (List Foot) :=
  let one := fun b l => if d l = 0 then some [] else (footOf (w64 (d b)) (w64 (d l))).map fun f => [f]
  match one 0x50 0x58, one 0x60 0x68 with
  | some x, some y => some (x ++ y)
  | _, _ => none

/-- The checks of R198 on a card's doublewords. -/
def cardOk (d : Nat → Nat) : Bool :=
  let opw := bitsOf (d 8) 0 32
  bitsOf (d 0) 0 7 == 0 && bitsOf (d 0) 56 8 == 0 && bitsOf (d 8) 37 3 == 0
    && (opw == 0 || (bitsOf opw 26 6 == 1 && bitsOf opw 7 19 == 0 && decide (bitsOf opw 0 7 ≤ 5)))
    && bitsOf (d 0x10) 59 5 == 0 && bitsOf (d 0x18) 59 5 == 0 && d 0x78 == 0 && (cardFoots d).isSome

/-- The copy-class word of a card. -/
def ChainSt.op (c : ChainSt) : Option XOp :=
  let opw := bitsOf (c.dw 8) 0 32
  let a := w64 (c.dw 0x20)
  let b := w64 (c.dw 0x28)
  if opw = 0 then none
  else
    match bitsOf opw 0 7 with
    | 0 => some (.copy a)
    | 1 => some (.tile a b)
    | 2 => some (.sparse a b)
    | 3 => some (.gather a b)
    | 4 => some (.fill a b)
    | _ => some (.red a b)

def ChainSt.bit (c : ChainSt) (k : Nat) : Bool := bitsOf (c.dw 8) k 1 == 1

def State.setChain (s : State) (k : BitVec 3) (c : ChainSt) : State :=
  s.updX k fun h =>
    let e := { h.eng with elem := 0, outs := none, parts := [], ask := none, fails := []
                          read := !c.chain && (c.step == .post || c.step == .seq) }
    { if c.step = .copy ∧ c.op.isSome then h.emit else h with chain := some c, eng := e }

/-- The scope of a card (Table 9-11, Table 3-2). -/
def ChainSt.cardScope (c : ChainSt) : Scope :=
  match bitsOf (c.dw 8) 32 2 with
  | 0 => .core
  | 1 => .die
  | 2 => .pkg
  | _ => .pod

/-- A card that has been read registers its footprints; none where the tracker is full (R197, R202). -/
def Core.regCard (c : Core) (k : Nat) (fs : List Foot) : Option Core :=
  if c.tracker.any fun t => t.ch == k && t.unread then
    let read := fun (t : Tracked) => if fs.isEmpty then none else some { t with foots := fs, unread := false }
    some { c with tracker := c.tracker.filterMap fun t => if t.ch == k && t.unread then read t else some t }
  else if fs.isEmpty then some c
  else if c.tracker.length ≥ 32 then none
  else some (c.register k fs false)

/-- The outcome of a card's post that has not come back (R199). -/
def postCause : FailCause → FailCause
  | .deadLink | .timeout => .atomicUnknown
  | c => c

/-- A card's wait that has gone on beyond WLIMIT (R199). -/
def ChainSt.expired (c : ChainSt) (sched : Nat) : Bool :=
  let l := bitsOf (c.dw 8) 40 24
  l != 0 && decide (c.waitAt + 256 * l ≤ sched)

/-- One step of the card in progress of channel `k` of the current core. -/
def State.cardStep (s : State) (k : BitVec 3) (c : ChainSt) : Res :=
  let obs := 8 + k.toNat
  match c.step with
  | .read =>
    match s.rdA s.cur obs false c.card 128 with
    | .wait t => .next (s.waits t (.ch k))
    | .err e => .next (s.unitAccFail (.ch k) false e)
    | .ok bs t =>
      let c' := { c with img := chunks 8 16 bs }
      match if cardOk c'.dw then cardFoots c'.dw else none with
      | none => .next (s.xFault k .chainFmt c.card)
      | some fs =>
        match t.me.regCard k.toNat fs with
        | none => .next s
        | some x => .next ((t.upd fun _ => x).setChain k { c' with step := .wait, waitAt := t.me.sched })
  | .wait =>
    if !c.bit 34 then .next (s.setChain k { c with step := .edges })
    else
      let w := wordAddr (w64 (c.dw 0x30)) 8
      match w.2.2 with
      | some e => .next (s.xFault k e w.2.1)
      | none =>
        match s.rdA s.cur obs w.1 w.2.1 8 with
        | .wait t => .next (s.waits t (.ch k))
        | .err e => .next (s.unitAccFail (.ch k) false e)
        | .ok bs t =>
          let v := w64 (leNat bs)
          let want := w64 (c.dw 0x38)
          if want.ule v then .next (t.setChain k { c with step := .edges, last := v })
          else
            let t := (t.setChain k { c with last := v }).updEng t.cur (.ch k) fun e => { e with ready := t.me.sched + 1 }
            if c.expired t.me.sched then
              .next ((t.setChain k { c with last := v, waitAt := t.me.sched }).xFault k .waitLimit
                (w64 (c.dw 0x30)).toInt (info0 := v) (info1 := want))
            else .next t
  | .edges => if s.me.edgeHeld k.toNat then .next s else .next (s.setChain k { c with step := .copy })
  | .copy =>
    match c.op with
    | none => .next (s.setChain k { c with step := .post })
    | some o =>
      let src := w64 (c.dw 0x10)
      let dst := w64 (c.dw 0x18)
      s.xop k o ⟨src, dst, fld src 0 56, fld dst 0 56, w64 (c.dw 0x70)⟩ fun t =>
        .next (t.setChain k { c with step := .post })
  | .post =>
    if !s.me.writtenAt c.cardScope then .next s
    else if !c.bit 35 then .next (s.setChain k { c with step := .seq })
    else
      let w := wordAddr (w64 (c.dw 0x40)) 8
      match w.2.2 with
      | some e => .next (s.xFault k e w.2.1 (wr := true))
      | none =>
        match s.unitRmw (.ch k) w.1 w.2.1 8 fun y => (y + c.dw 0x48) % 2 ^ 64 with
        | .wait t => .next (s.waits t (.ch k))
        | .err e => .next (s.unitAccFail (.ch k) true e)
        | .ok f t =>
          .next ((t.xRecord k (f.map fun x => (postCause x.1, x.2))).setChain k { c with step := .seq })
  | .seq =>
    let n := (s.xc k).doneCnt + 1
    let fin := fun (t : State) =>
      let t := t.upd fun x => { x with tracker := if (cardFoots c.dw).getD [] |>.isEmpty then x.tracker
                                                  else dropTracked k.toNat x.tracker }
      let t := t.updX k fun h => { h with doneCnt := n }
      if !c.chain ∨ c.bit 36 then (t.updX k fun h => { h with chain := none }).unitDone (.ch k)
      else t.setChain k { c with step := .done }
    if c.seqWord = 0 then .next (fin s)
    else
      let w := wordAddr c.seqWord 8
      s.signal k c.scope w.1 w.2.1 n.toNat fun t => .next (fin t)
  | .done =>
    if c.card = (s.xc k).tailSeen.toNat then .next s
    else
      match s.rdA s.cur obs false c.card 8 with
      | .wait t => .next (s.waits t (.ch k))
      | .err e => .next (s.unitAccFail (.ch k) false e)
      | .ok bs t =>
        let nx := leNat bs
        if nx = 0 ∨ bitsOf nx 0 7 ≠ 0 ∨ bitsOf nx 56 8 ≠ 0 then .next (s.xFault k .chainFmt c.card)
        else .next (t.setChain k { c with card := nx, step := .read, img := [] })

/-- JOB_CARD (R199): one step of the walk of a channel; nothing moves while the core is frozen. -/
def execJobCard (n : Nat) (ch : BitVec 3) (s : State) : Res :=
  let s' := { s with cur := n, chan := ch }
  match (s'.xc ch).chain with
  | some c => if s'.me.live s'.frameClk then s'.cardStep ch c else .next s
  | none => .next s

/-! ## The watermark register and CHn_ORG (R186, R196) -/

/-- SWR WMARM: arms at issue. -/
def execWmarm (a : Src) (s : State) : Res :=
  let v := s.sval a
  let start := fld v 0 22
  let wend := fld v 22 22
  if start > wend ∨ wend > 0x200000 then .next (s.sFault .spadRange (addr := v))
  else
    let k := fld v 44 3
    .next ((s.issueS 1 id).updChan s.cur k fun h =>
      { h with mark := start, wend := wend, filled := [], early := h.emitted, armed := true })

/-- SWR CHn_ORG: once the channel is idle with an empty queue. -/
def execChOrg (ch : BitVec 3) (a : Src) (s : State) : Res :=
  let e := (s.xc ch).eng
  if e.cur.isSome || !e.queue.isEmpty then .next (s.stallS .sysReg)
  else .next ((s.issueS 1 id).updX ch fun h => { h with org := s.sval a &&& 0x0FFFFFFFFFFFFFFF })

end Sys2Proof.Machine
end

