-- ==== Sys2Proof/Machine/System.lean ====
section
/-! DEFINITION. System registers, TRAP, translation invalidation, virtual dies and trace markers of the S slot
(R26, R39, R42, R228-R233, R245, R310). -/

namespace Sys2Proof.Machine

/-! ## The trapped context of a continuation (R310, R311) -/

/-- The saved context of the CR whose trap continuation core `n` runs. -/
def State.trapped (s : State) (n : Nat) : Option SavedCtx :=
  match (s.core n).trap with
  | none => none
  | some (slot, k) => s.cp.saved.find? fun x => x.slot == slot && x.cr == k

/-- Change the saved core of a context. -/
def State.updSaved (s : State) (slot cr : Nat) (f : Core → Core) : State :=
  let l := listUpd1 (fun x => x.slot == slot && x.cr == cr) (fun x => { x with core := f x.core }) s.cp.saved
  { s with cp := { s.cp with saved := l } }

/-! ## Reading -/

/-- CORE_ID (Table 1-6). -/
def State.coreId (s : State) (n : Nat) : Word :=
  w64 (n + 128 * dieOf n + 2 ^ 8 * (Config.coreSite n).toNat + 2 ^ 14 * s.fab.fabId)

/-- RGN_ID (Table 1-7). -/
def State.rgnId (s : State) (n : Nat) : Word :=
  let c := s.core n
  match if c.status = .idle then none else s.region? c.region with
  | none => 0
  | some r =>
    w64 (c.region + 2 ^ 16 * c.prio + 2 ^ 20 * s.rCeil r + 2 ^ 24 * s.rFdom r + 2 ^ 32 * c.trace.active.toNat)

/-- ME_SLOTS (Table 8-4). -/
def Core.meSlots (c : Core) (n : Nat) : Word :=
  let f := fun (k : Nat) => (c.slotArray n k).getD 0xFF
  w64 (f 0 + 2 ^ 8 * f 1 + 2 ^ 16 * f 2 + 2 ^ 24 * f 3)

/-- CHn_STAT (Table 9-6). -/
def Channel.stat (h : Channel) : Word :=
  let walking := match h.chain with
    | some c => c.chain
    | none => false
  w64 (h.rcnt.toNat + 32 * walking.toNat + 64 * h.fail.toNat)

/-- A register of a channel block by its offset (Table 10-7). -/
def Channel.reg (h : Channel) (o : Nat) : Word :=
  if o ≤ 5 then vget h.shadow.loops 0 o
  else if o < 0x10 then vget h.shadow.strs 0 (o - 8)
  else if o = 0x10 then h.shadow.src
  else if o = 0x11 then h.shadow.dst
  else if o = 0x12 then h.shadow.rstr
  else if o = 0x13 then h.org
  else if o = 0x14 then h.stat
  else w64 h.tail.toNat

/-- A trace register (Table 11-6). -/
def Trace.reg (t : Trace) (dropped k : Nat) : Word :=
  if !t.active then 0
  else
    match k with
    | 0 => w64 (1 + 2 * (decide (t.wraps ≠ 0)).toNat)
    | 1 => w64 t.base
    | 2 => w64 t.nextPtr
    | _ => w64 (sat64 (t.lost + dropped))

/-- System register `r` of core `n` (Table 10-7). -/
def State.sysReg (s : State) (n r : Nat) : Word :=
  let c := s.core n
  if r = 0x000 then s.coreId n
  else if r = 0x001 then s.rgnId n
  else if r = 0x002 then c.fstat
  else if r = 0x003 then w64 s.frameClk
  else if r = 0x004 then w64 c.sched
  else if r = 0x005 then c.rngCc.zeroExtend 64
  else if r = 0x006 then c.rngVe.zeroExtend 64
  else if r = 0x007 then c.rngMe.zeroExtend 64
  else if r = 0x008 then c.baW8.zeroExtend 64
  else if r = 0x010 then c.meShadow.asel.zeroExtend 64
  else if r = 0x011 then c.meSlots n
  else if r < 0x01E then vget c.meShadow.loops 0 (r - 0x018)
  else if r < 0x030 then vget c.meShadow.tdesc 0 (r - 0x020)
  else if r < 0x048 then
    let h := vget c.ch .zero (r - 0x040)
    w64 (h.mark + 2 ^ 22 * h.wend)
  else if r = 0x048 then 0
  else if r < 0x180 then (vget c.ch .zero (r / 0x20 - 4)).reg (r % 0x20)
  else if r < 0x1C0 then w64 (bitsOf c.ties.toNat (64 * (r - 0x180)) 64)
  else if r < 0x220 then
    match s.trapped n with
    | some x => vget x.core.frame 0 (r - 0x200)
    | none => 0
  else if r = 0x220 then w64 ((c.trap.map (·.1)).getD 0)
  else c.trace.reg (s.traceDropped n) (r - 0x300)

/-- Registers whose SRD and SWR wait for an engine (R229). -/
def Core.sysHeld (c : Core) (r : Nat) : Bool :=
  if r = 0x006 ∨ r = 0x007 then c.tl != 0
  else if r = 0x008 ∨ (0x180 ≤ r ∧ r < 0x1C0) then c.hu.cur.isSome || !c.hu.queue.isEmpty
  else false

/-- SRD (R228). -/
def execSrd (d : BitVec 5) (n : BitVec 12) (s : State) : Res :=
  if s.me.sysHeld n.toNat then .next (s.stallS .sysReg)
  else
    let v := s.sysReg s.cur n.toNat
    .next (s.issueS 1 fun c => c.setReg d.toNat v)

/-! ## Writing -/

/-- An SWR to a shadowed register waits while an entry has issued and not started (R26, R174, R186). -/
def Core.shadowHeld (c : Core) (r : Nat) : Bool :=
  if r = 0x010 ∨ (0x018 ≤ r ∧ r < 0x030) then !c.me.queue.isEmpty
  else if 0x080 ≤ r ∧ r < 0x180 ∧ r % 0x20 ≤ 0x12 then !(vget c.ch .zero (r / 0x20 - 4)).eng.queue.isEmpty
  else false

/-- The writable bits of the registers without a row of their own (Tables 8-1 to 8-3, 9-1 to 9-4). -/
def ChCfg.put (h : ChCfg) (o : Nat) (v : Word) : ChCfg :=
  if o ≤ 5 then { h with loops := vset h.loops o (v &&& 0xFFFFFFF) }
  else if o < 0x10 then { h with strs := vset h.strs (o - 8) v }
  else if o = 0x10 then { h with src := v &&& 0x7FFFFFFFFFFFFFF }
  else if o = 0x11 then { h with dst := v &&& 0x7FFFFFFFFFFFFFF }
  else if o = 0x12 then { h with rstr := v }
  else h

/-- The effect of an SWR on the core's own registers; read-only and hardware fields keep their values (R14, R228). -/
def Core.swr (c : Core) (r : Nat) (v : Word) : Core :=
  if r = 0x010 then { c with meShadow := { c.meShadow with asel := v.setWidth 4 } }
  else if 0x018 ≤ r ∧ r < 0x01E then
    { c with meShadow := { c.meShadow with loops := vset c.meShadow.loops (r - 0x018) (v &&& 0xFFFFFFF) } }
  else if 0x020 ≤ r ∧ r < 0x030 then
    { c with meShadow := { c.meShadow with tdesc := vset c.meShadow.tdesc (r - 0x020) (v &&& 0x3FFFFF1F) } }
  else if 0x080 ≤ r ∧ r < 0x180 then
    let k := r / 0x20 - 4
    let h := vget c.ch .zero k
    { c with ch := vset c.ch k { h with shadow := h.shadow.put (r % 0x20) v } }
  else c

/-- SWR (R228). FFRAME1.RPC is writable in a trap continuation only (Table 18-2). -/
def execSwr (a : Src) (n : BitVec 12) (s : State) : Res :=
  let c := s.me
  let v := s.sval a
  if c.sysHeld n.toNat || c.shadowHeld n.toNat then .next (s.stallS .sysReg)
  else
    let s := s.issueS 1 fun c => c.swr n.toNat v
    match if n.toNat = 0x201 then c.trap else none with
    | none => .next s
    | some (slot, k) =>
      .next (s.updSaved slot k fun x => { x with frame := vset x.frame 1 (v &&& 0x1FFF) })

/-- SWR FSTAT (R66, Table 2-10): ones clear, but for a flag that is posted in the same cycle. -/
def execFstat (a : Src) (s : State) : Res :=
  let v := s.sval a
  .next (s.issueS 1 fun c => { c with fstat := (c.fstat &&& ~~~v) ||| (c.fstat &&& c.posted) })

/-- SWR RNGS_CC, RNGS_VE, RNGS_ME (R63, R229): 0 stores 1. -/
def execRngs (u : Conv) (a : Src) (s : State) : Res :=
  let x : BitVec 32 := (s.sval a).setWidth 32
  let x := if x = 0 then 1 else x
  match u with
  | .cc => .next (s.issueS 1 fun c => { c with rngCc := x })
  | .ve => if s.me.tl ≠ 0 then .next (s.stallS .sysReg) else .next (s.issueS 1 fun c => { c with rngVe := x })
  | .me => if s.me.tl ≠ 0 then .next (s.stallS .sysReg) else .next (s.issueS 1 fun c => { c with rngMe := x })

/-- Replace doubleword `k` of a hypervector. -/
def hvSetWord (h : Hv) (k : Nat) (v : Word) : Hv :=
  BitVec.ofNat 4096 (h.toNat - bitsOf h.toNat (64 * k) 64 * 2 ^ (64 * k) + v.toNat * 2 ^ (64 * k))

/-- SWR TIESWk (R229). -/
def execTiesw (k : BitVec 6) (a : Src) (s : State) : Res :=
  let v := s.sval a
  if s.me.sysHeld 0x180 then .next (s.stallS .sysReg)
  else .next (s.issueS 1 fun c => { c with ties := hvSetWord c.ties k.toNat v })

/-! ## TRAP, TLBINV, DHOP, VDIE, TRC -/

/-- TRAP (R230): the bundle issues, and TRAP_SW is raised with the next bundle as its resume point. -/
def execTrap (a : Src) (s : State) : Res :=
  let v := s.sval a
  s.notUc (.next ((s.issueS 1 id).raise s.cur
    { cause := .trapSw, obs := 3, info0 := v, rpc := s.me.pc + 1 }))

/-- Drop translations of a region from every TLB of a core: one page's, or all. -/
def Core.dropTlb (c : Core) (region : Nat) (va : Option Nat) : Core :=
  let gone := fun (e : TlbEnt) => e.region == region && (match va with
    | some v => v / 2 ^ e.lg * 2 ^ e.lg == e.va
    | none => true)
  { c with tlb := c.tlb.filter fun e => !gone e, stlb := c.stlb.map fun p => (p.1, p.2.filter fun e => !gone e) }

/-- Drop translations of a region in every core. -/
def State.dropTlbAll (s : State) (region : Nat) (va : Option Nat) : State :=
  { s with cores := s.cores.map fun c => (c.1, c.2.dropTlb region va) }

/-- What the cores of a region have under way: accesses, by tag and generation, and a request of a bundle to a block's
home, as tag 4,096. -/
def State.usesOf (s : State) (region : Nat) : List (Nat × Nat × Nat) :=
  (s.cores.filter fun c => c.2.region == region).flatMap fun c =>
    (c.2.inflight.filter fun a => !a.held).map (fun a => (c.1, a.tag, a.gen))
      ++ ((c.2.sync.toList.filter fun q => q.pa != 0 && q.reply.isNone && !q.parked).map fun q => (c.1, 4096, q.at_))

/-- Writes of a region's cores that have stopped at a narrower scope go on to their reach. -/
def State.performRegion (s : State) (region : Nat) : State :=
  (s.cores.filter fun c => c.2.region == region && !c.2.buf.isEmpty).foldl (fun s c => s.performAll c.1) s

/-- A shoot-down of a region's translations: once the accesses that have used them are performed, every TLB drops its
entries. None while one of them is still to be performed. -/
def State.shootDown (s : State) (region : Nat) (page : Option Nat) (after : List (Nat × Nat × Nat)) : Option State :=
  let s := s.performRegion region
  let now := s.usesOf region
  if (after.any fun x => now.contains x) || (s.cores.any fun c => c.2.region == region && !c.2.buf.isEmpty) then none
  else some (s.dropTlbAll region page)

/-- A request of R223: `send` makes it once, `serve` is what its home does, and the reply gives the bundle its value. -/
def State.cpRequest (s : State) (va : Word) (f : Word → Core → Core) (serve : SyncReq → State → State)
    (send : State → Res) : Res :=
  s.notUc
    (match s.me.sync with
    | some q =>
      match q.reply with
      | some r => s.onReply va r f
      | none => .next (serve q (s.stallS .wait))
    | none => send s)

/-- Every access that has used a translation of this core has been performed: those of the CC, which translate when they
are issued, and writes that have stopped at a narrower scope. An engine's step translates in the event in which its
accesses are performed, and a word that still waits in a queue has used none. -/
def Core.usesDone (c : Core) : Bool :=
  (c.inflight.all fun a => c.buf.any fun w => w.tag == some a.tag) && c.writtenAt .pod

/-- TLBINV (R231). Forms 2 and 3 wait for the CP's reply (R223). -/
def execTlbinv (a b : Src) (s : State) : Res :=
  let va := (s.sval a).toNat
  let f := (s.sval b).toNat
  let page := if f % 2 = 0 then some va else none
  let rg := s.me.region
  s.cpRequest (s.sval a) (fun _ c => c)
    (fun q s =>
      match s.shootDown rg page q.after with
      | some t => t.reply t.cur (.value 0)
      | none => s)
    fun s =>
      if f > 3 then .next (s.sFault .sysCfg)
      else if f % 2 = 0 ∧ va ≥ 2 ^ 56 then .next (s.sFault .addrRange (addr := w64 va))
      else if f ≤ 1 then
        if s.me.usesDone then .next (s.issueS 1 fun c => c.dropTlb rg page) else .next (s.stallS .wait)
      else
        .next ((s.syncSent 0 false).upd fun c =>
          { c with sync := c.sync.map fun q => { q with after := s.usesOf rg } })

/-- VDIE_INVALID (Table 18-1). -/
def State.vdieInvalid (s : State) (a : Word) : State := s.sFault .vdieInvalid (addr := a)

/-- DHOP (R42, R232). -/
def execDhop (d : BitVec 5) (a b : Src) (s : State) : Res :=
  match s.vdie s.cur (s.sval a).toNat, s.vdie s.cur (s.sval b).toNat with
  | .err e va, _ => .next (s.accFail s.cur 3 false (.walk e va))
  | _, .err e va => .next (s.accFail s.cur 3 false (.walk e va))
  | .bound x y, .bound z w =>
    let v := match s.hops s.cur (x, y) (z, w) with
      | some k => w64 k
      | none => BitVec.allOnes 64
    .next ({ s with draws := s.draws + 1 }.issueS 1 fun c => c.setReg d.toNat v)
  | .unbound, _ => .next (s.vdieInvalid (s.sval a))
  | _, .unbound => .next (s.vdieInvalid (s.sval b))

/-- The lowest virtual die bound to a die of this device, in a table's bytes. -/
def vdieFind (dev die : Nat) : List Byte → Nat → Nat → Option Nat
  | _, _, 0 => none
  | b, k, n + 1 =>
    let e := leNat (b.take 4)
    if vdtBound e && bitsOf e 0 14 == dev && bitsOf e 14 5 == die then some k else vdieFind dev die (b.drop 4) (k + 1) n

/-- VDIE (R232). -/
def execVdie (d : BitVec 5) (a b : Src) (s : State) : Res :=
  let put := fun (v : Word) => Host.Outcome.next (s.issueS 1 fun c => c.setReg d.toNat v)
  let av := (s.sval a).toNat
  match (s.sval b).toNat with
  | 0 =>
    if av > 1023 then .next (s.vdieInvalid (s.sval a))
    else
      match s.vdtEntry s.cur av with
      | .error (e, va) => .next (s.accFail s.cur 3 false (.walk e va))
      | .ok e => put (w64 e)
  | f + 1 =>
    if f > 2 then .next (s.vdieInvalid (s.sval b))
    else
      let die := if f = 0 then dieOf s.cur else if f = 1 then arrayDie s.cur else 10
      match s.region? s.me.region with
      | none => put (BitVec.allOnes 64)
      | some r =>
        match s.cpRd (s.grp 11 r).num (s.rVdt r) 4096 (dieOf s.cur) with
        | .error e => .next (s.accFail s.cur 3 false (.walk e (s.rVdt r)))
        | .ok t =>
          match vdieFind s.fab.fabId die t 0 1024 with
          | some k => put (w64 k)
          | none => put (BitVec.allOnes 64)

/-- TRC (R233, Table 11-7). -/
def execTrc (a b : Src) (s : State) : Res :=
  let v := s.sval a
  let s := s.chalkT s.cur 0x5 (fld (s.sval b) 0 8 * 2 ^ 20 + fld v 0 32 * 2 ^ 28) [w64 (6 + fld v 32 32 * 16)]
  .next (s.issueS 1 id)

end Sys2Proof.Machine
end

