-- ==== Sys2Proof/Machine/Context.lean ====
section
/-! DEFINITION. Taking a freeze and leaving it: operations that cannot stop part-way, the fault frame, page-fault
records, context slots, the start state, the kernel load, trap continuations and what a frozen core waits for
(R32, R40, R104, R267, R275, R288, R295, R306-R318, R368). -/

namespace Sys2Proof.Machine

/-! ## Operations that cannot stop part-way (R368) -/

/-- Destinations and sources of a VE step that reads and writes shapes. -/
def veOps (i : Instr) : Option (List (BitVec 4) × List (BitVec 4)) :=
  match i with
  | .vcopy d a _ | .vrsum d a _ | .vrmax d a _ | .vamax d a _ | .vscan d a _ | .vbulk d a _ _ | .vgather d a _ =>
    some ([d], [a])
  | .vquant d a b _ => some ([d, b], [a])
  | .vdeq d a b _ => some ([d], [a, b])
  | i => (linkOf i).map fun l => ([l.d], l.srcs)

/-- A VE step in progress whose source extent overlaps its own destination extent with differing shape values. -/
def Core.veUnstop (c : Core) : Bool :=
  c.ve.due.isSome &&
    match c.unitInstr .ve with
    | .ok i =>
      match veOps i with
      | some (ds, l) =>
        let sh := fun (r : BitVec 4) => (⟨r.toNat, vget c.sh 0 r.toNat⟩ : Shape)
        l.any fun a => ds.any fun d => (sh a).w != (sh d).w && (sh a).meets (sh d)
      | none => false
    | .error _ => false

/-- A VBULK has its result and waits for a reply to one of its accesses: it completes during the freeze (R170). -/
def Core.bulkOpen (c : Core) : Bool :=
  c.ve.due.isSome && c.ve.ask.isSome &&
    match c.unitInstr .ve with
    | .ok (.vbulk ..) => true
    | _ => false

/-- MZERO, MTRANS, MSYNC or MREL in progress. -/
def Core.meUnstop (c : Core) : Bool :=
  c.me.due.isSome &&
    match c.unitInstr .me with
    | .ok (.mzero ..) | .ok (.mtrans ..) | .ok (.msync ..) | .ok (.mrel ..) => true
    | _ => false

/-- An HU word that has started and is neither held nor a search sent to S0. -/
def Core.huUnstop (c : Core) : Bool :=
  c.hu.due.isSome &&
    match c.unitInstr .hu with
    | .ok (.hamq ..) | .ok (.hamk ..) => c.hu.elem != 1
    | _ => true

/-- A request of the bundle that waits for its home's reply and is no wait (R123). -/
def Core.syncUnstop (c : Core) : Bool :=
  match c.sync with
  | some q => q.reply.isNone && !q.wait
  | none => false

def Core.unstoppable (c : Core) : Bool := c.veUnstop || c.meUnstop || c.huUnstop || c.syncUnstop

/-! ## The fault frame (R310, Table 18-2) -/

/-- ENT, UPC and BUSY of an engine; zeros when it is idle. -/
def Engine.frameBits (e : Engine) : Nat :=
  match e.cur with
  | none => 0
  | some x => x.ent % 8192 + (if e.inProg then Nat.min e.upc 4095 else 0) * 2 ^ 13 + 2 ^ 25

/-- Loop indices of the body in progress, 16 bits each. -/
def Engine.frameIdx (e : Engine) (k n : Nat) : Nat :=
  if e.cur.isNone then 0
  else ((List.range n).map fun j => vget e.idx 0 (k + j) % 65536 * 2 ^ (16 * j)).foldl (· + ·) 0

/-- ELEM of FFRAME8: the element that an index check found (R171), else where the VE stands: the group of 32 of a step that
stops between groups, the element of a gather or scatter, which stops between elements (R170, DEDUCED, assumption 72). -/
def Core.frameElem (c : Core) (r : FaultRec) : Nat :=
  match r.elem with
  | some j => j
  | none =>
    match c.unitInstr .ve with
    | .ok (.vgather ..) | .ok (.vscatter ..) => c.ve.elem
    | _ => c.ve.elem / 32

/-- A word of the frame of a core that freezes at a FRAME_CLK value. -/
def Core.frameWord (c : Core) (r : FaultRec) (code : Nat) (clk k : Nat) : Word :=
  let chn := fun (j : Nat) => (vget c.ch .zero j).eng
  let prog := ((List.range 4).map fun j => vget c.meProg 0 j % 256 * 2 ^ (8 * j)).foldl (· + ·) 0
  match k with
  | 0 => w64 (code + r.cause.restarts.toNat * 2 ^ 8 + r.obs * 2 ^ 9 + r.slot * 2 ^ 13 + r.sub * 2 ^ 15
      + r.wr.toNat * 2 ^ 23)
  | 1 => w64 (c.pc % 8192)
  | 2 => r.addr
  | 3 => r.info0
  | 4 => r.info1
  | 5 => r.info2
  | 6 => w64 clk
  | 7 => w64 c.sched
  | 8 => w64 (c.ve.frameBits + (if c.ve.cur.isSome then c.frameElem r % 65536 else 0) * 2 ^ 32)
  | 9 => w64 (c.hu.frameBits + (if c.hu.cur.isSome then c.hu.queue.length else 0) * 2 ^ 26)
  | 10 => w64 (c.me.frameBits + (if c.me.cur.isSome then prog else 0) * 2 ^ 32)
  | 11 => w64 (c.me.frameIdx 0 4)
  | 12 => w64 (c.me.frameIdx 4 2)
  | k =>
    if k < 16 then 0
    else if k % 2 = 0 then w64 ((chn ((k - 16) / 2)).frameBits + (chn ((k - 16) / 2)).frameIdx 0 2 * 2 ^ 32)
    else w64 ((chn ((k - 17) / 2)).frameIdx 2 4)

/-- The frame of a pre-emption or a YIELD: cause code 0 (R308). -/
def noFault : FaultRec := { cause := .trapSw, obs := 3 }

def Core.buildFrame (c : Core) (w : FreezeWhy) (clk : Nat) : Vector Word 32 :=
  match w with
  | .fault r => Vector.ofFn fun k : Fin 32 => c.frameWord r r.cause.code clk k.val
  | _ => Vector.ofFn fun k : Fin 32 => c.frameWord noFault 0 clk k.val

/-! ## Resuming -/

/-- A frozen core is to run again in step (R242), from the next cycle of the compute clock on; a held access can be
made. -/
def State.resumeCore (s : State) (n : Nat) : State :=
  s.updCore n fun c =>
    { c with
      wake := true, call := none, waitAt := none, pfTag := none, saving := none
      inflight := c.inflight.map fun a => { a with held := false } }

/-- A request that an engine's step waits for stands anew: its time runs from the resume on. -/
def Engine.askAgain (clk : Nat) (e : Engine) : Engine := { e with ask := e.ask.map fun q => { q with at_ := clk } }

/-- The first cycle after the resume (R242), whose SCHED_CLK and FRAME_CLK the core and the machine now show: waits
start afresh (R123), and faults that were held are raised (R309). -/
def State.restart (s : State) (n : Nat) : State :=
  let held := (s.core n).heldFaults
  let s := s.chalk n fun sc fc t => { t.put sc fc [8, syncWord sc, frameWordOf fc] with last := sc, since := 0 }
  let s := s.updCore n fun c =>
    { c with
      status := .running, wake := false, heldFaults := [], tried := false, since := s.frameClk
      ve := c.ve.askAgain s.frameClk, hu := c.hu.askAgain s.frameClk
      ch := c.ch.map fun (h : Channel) =>
        { h with eng := h.eng.askAgain s.frameClk, chain := h.chain.map fun x => { x with waitAt := c.sched } } }
  held.foldl (fun s r =>
    match unitOfObs r.obs with
    | some u => (s.raise n r).updEng n u fun e => { e with ready := Nat.max e.ready ((s.core n).sched + 1) }
    | none => s.raise n r) s

/-! ## Page-fault records (R317) -/

/-- Write the records that the page-fault queue has room for, in order. -/
def State.postPfs (s : State) : List PageFault → State
  | [] => s
  | p :: r =>
    if p.posted then s.postPfs r
    else
      let w := fun k => s.paNat (s.cp.pfq + 8 * k) 8
      let n := 2 ^ (w 1 % 32)
      if s.cp.pfq = 0 ∨ (w 3 + 2 ^ 64 - w 2) % 2 ^ 64 = n then s
      else
        let b := le8 p.va ++ le8 (p.region + p.core * 2 ^ 16 + p.wr.toNat * 2 ^ 23 + p.obs * 2 ^ 24 + p.tag * 2 ^ 32)
          ++ le8 p.leaf ++ le8 0
        let t := (s.paWr (w 0 + 32 * (w 3 % n)) b).paWr (s.cp.pfq + 0x18) (le8 ((w 3 + 1) % 2 ^ 64))
        let l := listUpd1 (fun x => x.tag == p.tag) (fun x => { x with posted := true }) t.cp.pfs
        ({ t with cp := { t.cp with pfs := l } }.msix 1).postPfs r

def State.flushPfs (s : State) : State := s.postPfs s.cp.pfs

/-- A page fault of a core: the TAG of the page's outstanding record, or a new record (R317). -/
def State.newPf (s : State) (n region va : Nat) (wr : Bool) (obs leaf : Nat) : Nat × State :=
  let page := va / 65536 * 65536
  match s.cp.pfs.find? fun p => p.region == region && p.va == page with
  | some p => (p.tag, s)
  | none =>
    let p : PageFault := { tag := s.cp.nextPf, region := region, va := page, core := n, wr := wr, obs := obs
                           leaf := leaf, posted := false }
    (s.cp.nextPf,
      { s with cp := { s.cp with pfs := s.cp.pfs ++ [p], nextPf := (s.cp.nextPf + 1) % 2 ^ 32 } }.flushPfs)

/-! ## Context slots (R306, R307) -/

/-- The region whose CTXA holds the slots of a region. -/
def State.ctxOwner (s : State) (region : Nat) : Nat :=
  match s.region? region with
  | some r => (s.grp 6 r).num
  | none => 0

/-- The lowest free slot of a region's context area. -/
def State.freeSlot (s : State) (r : Region) : Option Nat :=
  let own := s.ctxOwner r.num
  let used := fun (va : Nat) => (s.cp.saved.any fun x => x.slot == va && s.ctxOwner x.region == own)
    || s.cores.any fun c => (c.2.saving.map (·.1)) == some va && s.ctxOwner c.2.region == own
  let stride := 0x60000 + s.rSpadsave r * 65536
  ((List.range (Nat.min (s.rCtxn r) (s.cp.saved.length + s.cores.length + 1))).map fun k => s.rCtxa r + k * stride).find?
    fun va => !used va

/-- The slot for the save of core `n`: the one that its save has begun in, or the lowest free one. -/
def State.slotFor (s : State) (n : Nat) (r : Region) : Option Nat :=
  match (s.core n).saving with
  | some x => some x.1
  | none => s.freeSlot r

/-- Parts of a range that lie in no open window (R267). -/
def outsideWindows : Nat → List TileCopy → Nat → Nat → List (Nat × Nat)
  | 0, _, _, _ => []
  | f + 1, ts, a, n =>
    if n = 0 then []
    else
      match ts.find? fun t => decide (t.off ≤ a ∧ a < t.off + t.size) with
      | some t => let m := Nat.min n (t.off + t.size - a); outsideWindows f ts (a + m) (n - m)
      | none =>
        let m := ts.foldl (fun m t => if a < t.off then Nat.min m (t.off - a) else m) n
        (a, m) :: outsideWindows f ts (a + m) (n - m)

/-- CR word 0 excludes parts from the save (Table 1-4). -/
def saveHv (w0 : Word) : Bool := fld w0 56 1 == 0
def saveTile (w0 : Word) : Bool := fld w0 57 1 == 0

/-- The free bytes that a save puts at an offset of the slot. -/
def slotFill (free off len : Nat) : List Byte := (List.range len).map fun k => Config.freeByte free (off + k)

/-- The parts of Table 17-12 that a save writes: offset and bytes. The control part and the sparsity queue have no
layout: they stand beside the slot, and their bytes are free (notes/assumptions/14.md). -/
def State.slotParts (s : State) (n : Nat) (r : Region) (free : Nat) : List (Nat × List Byte) :=
  let c := s.core n
  let a := s.array n
  let fill := fun (off len : Nat) => (off, slotFill free off len)
  let ext := s.rSpadsave r * 65536
  [fill 0 0x4000]
    ++ (if saveHv c.w0 then
      [(0x4000, (c.hv.toList.map fun h => leBytes 512 h.toNat).flatten),
       (0x6000, (c.ba.toList.map fun b => leBytes 4096 b.toNat).flatten), (0xA000, leBytes 512 c.ties.toNat)] else [])
    ++ (if saveTile c.w0 then [fill 0xC000 0x1000, (0x10000, a.accs.rdBytes 0 0x8000), (0x20000, a.tiles.rdBytes 0 0x40000)] else [])
    ++ (outsideWindows (2 * c.tiles.length + 2) c.tiles 0 ext).map fun p => (0x60000 + p.1, c.spad.rdBytes p.1 p.2)

/-- Write the parts as the region's own accesses; none when one cannot be made. -/
def State.writeParts (s : State) (region die slot : Nat) : List (Nat × List Byte) → Option State
  | [] => some s
  | (off, b) :: r =>
    match s.cpWr region (slot + off) b die with
    | .ok s => s.writeParts region die slot r
    | .error _ => none

/-- Everything that a save waits for has arrived: accesses but those held by a fault, searches, posts, tile data; every
write is performed at its reach, and the trace is written (R123, R218, R244, R267). -/
def State.settled (s : State) (n : Nat) : Bool :=
  (s.core n).inflight.all (·.held) && (s.core n).buf.isEmpty && (s.core n).traced
    && !(s.cp.searches.any fun x => x.core == n)
    && !(s.cp.posts.any fun p => p.core == n) && !(s.cp.joins.any fun j => j.core == n)
    && (s.core n).tiles.all TileCopy.settled && !(s.core n).bulkOpen

/-- The context of a frozen core is written into a slot (R306, R311): the number of the free values in it, and the state. -/
def State.saveBegin (s : State) (n slot : Nat) : Option (Nat × State) :=
  let s := (s.core n).tiles.foldl (fun s t => s.sendDrop n false t) s
  match s.region? (s.core n).region with
  | none => none
  | some r =>
    let d := s.draw
    (d.2.writeParts r.num (dieOf n) slot (s.slotParts n r d.1)).map fun t =>
      (d.1, t.updCore n fun c => { c with saving := some (slot, d.1) })

/-- The writes are performed: the context is in the slot, and the core is freed (R307). -/
def State.saveEnd (s : State) (n slot free : Nat) : State :=
  let c := s.core n
  let x : SavedCtx :=
    { slot := slot, region := c.region, cr := c.cr.getD 0, sparse := (s.array n).sparse, free := free
      core := { c with
        spad := .empty, imem := .empty, hv := Vector.replicate 16 0, ba := Vector.replicate 4 0, ties := 0
        tlb := [], stlb := [], locator := [], gens := [], retired := [], saving := none } }
  let t := { s with cp := { s.cp with saved := s.cp.saved ++ [x] } }.updCore n fun c => { c with tiles := [] }
  (t.updCore n Core.freed).setArray n { t.array n with lastRegion := some c.region }

/-- The save of a frozen core, and what it leaves the CR as. The core is freed once the writes are performed (R307); the
fault domain fails when they cannot be made (Table 18-5). -/
def State.saveOr (s : State) (n slot : Nat) (f : State → State) : State :=
  let go := fun (free : Nat) (t : State) =>
    let t := t.cpDrain
    if t.cpBusy then t else f (t.saveEnd n slot free)
  match (s.core n).saving with
  | some (_, free) => go free s
  | none =>
    match s.saveBegin n slot with
    | some x => go x.1 x.2
    | none => s.failCore n 0x02

/-- Move a CR to the head or the tail of the order and change it; its slot of the queue memory is written (R291). -/
def State.requeue (s : State) (k : Nat) (head : Bool) (f : Cr → Cr) : State :=
  match s.cr? k with
  | none => s
  | some c =>
    match s.region? c.region with
    | none => s
    | some r =>
      let go := fun (i : Nat) (s : State) =>
        let rest := s.cp.crs.filter fun x => x.1 != k
        let e := (k, { f c with aged := s.frameClk, slot := i })
        { s with cp := { s.cp with crs := if head then e :: rest else rest ++ [e] } }
      if c.inRing then s.queueSlot r c.img.prio c.slot (go c.slot) else s.ringPut r c go

/-! ## Loading a kernel (R32, R104, R288) -/

/-- The failure of the CP's read of a kernel: a fault of the CC, or of the fault domain. -/
def State.loadFail (s : State) (n va : Nat) (e : WalkErr) : State :=
  if e.cause = .dataPoison then s.poisonFail n else s.faultOn n (e.toFault 3 va (s.core n).pc false)

/-- Read the sections of an image: source address, offset in instruction memory, length. -/
def State.readImage (s : State) (region die : Nat) : List (Nat × Nat × Nat) → Memory → Except (WalkErr × Nat) Memory
  | [], m => .ok m
  | (va, off, len) :: r, m =>
    let bad := (vaPages va len).findSome? fun p =>
      match s.cpRd region p.1 p.2 die with
      | .error e => some (e, p.1)
      | .ok _ => none
    match bad, s.cpRd region va len die with
    | some e, _ => .error e
    | none, .error e => .error (e, va)
    | none, .ok b => s.readImage region die r (m.wrBytes off b)

/-- Make the image resident, and copy the preload for a CR that starts; a failure leaves the load to be tried again
after the resume. Instruction memory that no section covers is undefined. -/
def State.tryLoad (s : State) (n : Nat) : State :=
  let c := s.core n
  match if c.loading = .done then none else kdesc c.desc with
  | none => s.updCore n fun c => { c with loading := .done }
  | some k =>
    let d := s.draw
    let secs := [(k.image, 0, 16 * k.nbund), (k.image + 0x20000, 0x20000, 4 * k.nvsec),
      (k.image + 0x24000, 0x24000, 4 * k.nxsec), (k.image + 0x28000, 0x28000, 4 * k.nmsec)]
    match s.readImage c.region (dieOf n) secs ⟨[], .free d.1⟩ with
    | .error (e, va) => s.loadFail n va e
    | .ok im =>
      let pre := if c.loading = .full then [(k.image + 0x2C000, k.preoff, k.prelen)] else []
      match s.readImage c.region (dieOf n) pre c.spad with
      | .error (e, va) => s.loadFail n va e
      | .ok sp =>
        d.2.updCore n fun c =>
          { c with imem := im, spad := sp, loading := .done, nextIssue := c.sched + 1, tried := true }

/-! ## Starting a CR (Table 1-5) -/

/-- Core `n` and its partner array in the start state of a CR of a region. -/
def State.startCore (s : State) (n region : Nat) (w0 : Word) (desc : List Byte) (s1 s2 s3 : Word) : State :=
  let c := s.core n
  let d := s.draw
  let fill := fun (last : Option Nat) => if undefinedFor last region then Fill.free d.1 else .zero
  let regs := vset (vset (vset (Vector.replicate 32 0) 1 s1) 2 s2) 3 s3
  let entry := match kdesc desc with
    | some k => k.entries.getD (fld w0 0 6) 0 % 8192
    | none => 0
  let c' : Core :=
    { Core.reset with
      status := .running, pc := entry, regs := regs, sched := c.sched, nextIssue := c.sched + 1, imem := c.imem
      spad := ⟨[], fill c.lastRegion⟩, tlb := c.tlb, stlb := c.stlb, locator := c.locator, nextTag := c.nextTag
      gens := c.gens, retired := c.retired, traceLost := c.traceLost, hold := c.hold, region := region
      since := s.frameClk, lastRegion := some region, w0 := w0, desc := desc
      loading := .full, crVa := s3, tried := true }
  let a := s.array n
  let g := d.2.drawArray (undefinedFor c.lastRegion region)
  let a' := { a with tiles := g.1.1, accs := g.1.2.1, sparse := g.1.2.2, lastRegion := some region }
  (g.2.setCore n c').setArray n a'

/-! ## Restoring a context -/

/-- Read a part of a slot. -/
def State.part (s : State) (x : SavedCtx) (die off len : Nat) : Option (List Byte) :=
  match s.cpRd x.region (x.slot + off) len die with
  | .ok b => some b
  | .error _ => none

/-- The hypervector state of a restored core. NOSAVE_HV leaves the widths of the accumulators out of the save as well
(R206), though Table 17-12 puts BACFG into the control part, which is always written: they are undefined then
(assumption 67). -/
def State.partHv (s : State) (x : SavedCtx) (die free : Nat) :
    Option (Vector Hv 16 × Vector (BitVec 32768) 4 × Hv × BitVec 4) :=
  if saveHv x.core.w0 then
    match s.part x die 0x4000 0x2000, s.part x die 0x6000 0x4000, s.part x die 0xA000 512 with
    | some h, some b, some t =>
      some (Vector.ofFn fun k : Fin 16 => BitVec.ofNat 4096 (leNat ((h.drop (512 * k.val)).take 512)),
        Vector.ofFn fun k : Fin 4 => BitVec.ofNat 32768 (leNat ((b.drop (4096 * k.val)).take 4096)),
        BitVec.ofNat 4096 (leNat t), x.core.baW8)
    | _, _, _ => none
  else
    some (Vector.ofFn fun k : Fin 16 => Config.freeHv (free + k.val),
      Vector.ofFn fun k : Fin 4 =>
        BitVec.ofNat 32768 (leNat ((List.range 4096).map fun j => Config.freeByte free (4096 * k.val + j))),
      Config.freeHv (free + 16), (Config.freeWord free).setWidth 4)

/-- The control part of a slot that a handler has written over (R312): what the write has changed no layout says, so the
registers, predicates, shapes, flags, generators and the failure record are free values (assumption 14). -/
def Core.ctrlFree (c : Core) (free : Nat) : Core :=
  let w := fun (k : Nat) => Config.freeWord (free + k)
  { c with
    regs := Vector.ofFn fun k : Fin 32 => w k.val, preds := (w 32).setWidth 8, sh := Vector.ofFn fun k : Fin 16 => w (33 + k.val)
    fstat := w 49, failRec := w 50, rngCc := (w 51).setWidth 32, rngVe := (w 52).setWidth 32, rngMe := (w 53).setWidth 32 }

/-- The control part of a restored core. -/
def State.partCtrl (s : State) (x : SavedCtx) (die free : Nat) : Option Core :=
  (s.part x die 0 0x4000).map fun b => if b = slotFill x.free 0 0x4000 then x.core else x.core.ctrlFree free

/-- The tiles, accumulators and sparsity queue of a restored partner array: undefined where NOSAVE_TILE left them out, and
the queue also where its part, which has no layout, has been written over (assumption 14). -/
def State.partTile (s : State) (x : SavedCtx) (die free : Nat) : Option (Memory × Memory × List (List Byte)) :=
  if saveTile x.core.w0 then
    match s.part x die 0x10000 0x8000, s.part x die 0x20000 0x40000, s.part x die 0xC000 0x1000 with
    | some a, some t, some q =>
      some (Memory.empty.wrBytes 0 t, Memory.empty.wrBytes 0 a,
        if q = slotFill x.free 0xC000 0x1000 then x.sparse else freeSparse (free + 2))
    | _, _, _ => none
  else some (⟨[], .free free⟩, ⟨[], .free (free + 1)⟩, freeSparse (free + 2))

/-- The scratchpad of a restored core: undefined where the slot carries nothing (R307, R40). -/
def State.partSpad (s : State) (x : SavedCtx) (die ext free : Nat) : Option Memory :=
  (outsideWindows (2 * x.core.tiles.length + 2) x.core.tiles 0 ext).foldl (fun m p =>
    match m, s.part x die (0x60000 + p.1) p.2 with
    | some m, some b => some (m.wrBytes p.1 b)
    | _, _ => none) (some ⟨[], .free free⟩)

/-- Arrays that a resumed CR holds again: those of its slots, while it still holds them (R311, R312). -/
def State.slotsBack (s : State) (x : SavedCtx) : Vector (Option Nat) 3 :=
  Vector.ofFn fun k : Fin 3 =>
    match vget x.core.slots none k.val with
    | some a => if (s.array a).holder = some (x.cr, k.val + 1) then some a else none
    | none => none

/-- Restore a context on its core and free the slot (R306): the core resumes at index `pc`. A restore that cannot be
made fails the region's fault domain (Table 18-5). -/
def State.restoreCtx (s : State) (n : Nat) (x : SavedCtx) (pc : Nat) : State :=
  let die := dieOf n
  let d := s.draw
  let f := d.1
  let s := { d.2 with draws := d.2.draws + 80 }
  let ext := match s.region? x.region with
    | some r => s.rSpadsave r * 65536
    | none => 0
  match s.partHv x die f, s.partTile x die (f + 17), s.partSpad x die ext (f + 20), s.partCtrl x die (f + 21) with
  | some hv, some tl, some sp, some ctrl =>
    let c := s.core n
    let slots := s.slotsBack x
    let back := fun (a : Nat × ArraySt) =>
      match a.2.holder with
      | some h => if h.1 = x.cr ∧ vget slots none (h.2 - 1) ≠ some a.1 then (a.1, { a.2 with holder := none }) else a
      | none => a
    let s := { s with
      cp := { s.cp with saved := s.cp.saved.filter fun y => !(y.slot == x.slot && y.cr == x.cr) }
      arrays := s.arrays.map back }
    let tr := match s.region? x.region with
      | some r => { s.chalkStart n r (fld x.core.w0 58 1 == 1) with last := x.core.sched, ended := x.core.trace.ended }
      | none => Trace.off
    let s := s.setArray n { s.array n with tiles := tl.1, accs := tl.2.1, sparse := tl.2.2, lastRegion := some x.region }
    let s := s.setCore n { ctrl with
      pc := pc, hv := hv.1, ba := hv.2.1, ties := hv.2.2.1, baW8 := hv.2.2.2, hold := c.hold, spad := sp, imem := c.imem, slots := slots, tlb := c.tlb
      stlb := c.stlb, locator := c.locator, nextTag := c.nextTag, gens := c.gens, retired := c.retired
      traceLost := c.traceLost, trace := tr, status := .frozen
      loading := if x.core.loading = .full then .full else .image }
    (s.resumeCore n).tryLoad n
  | _, _, _, _ => s.failDomain (match s.region? x.region with
      | some r => s.rFdom r
      | none => 0) 0x02

/-! ## What a frozen core waits for -/

/-- The CR of a core that is saved by a pre-emption, a YIELD or the default handling of a wait (R295, R275, R222). -/
def State.saveAway (s : State) (n : Nat) (head : Bool) : State :=
  let c := s.core n
  match s.region? c.region with
  | none => s
  | some r =>
    match s.slotFor n r with
    | none => s.resumeCore n
    | some slot =>
      s.saveOr n slot fun t => t.requeue (c.cr.getD 0) head fun x => { x with st := .saved n slot }

/-- A page fault of a frozen core is recorded once (R317). -/
def State.pageFaultOn (s : State) (n : Nat) (r : FaultRec) : State :=
  let c := s.core n
  match c.pfTag with
  | some _ => s.flushPfs
  | none =>
    let p := s.newPf n c.region r.addr.toNat r.wr r.obs r.leaf
    p.2.updCore n fun c => { c with pfTag := some p.1 }

/-- Whether WAIT_LIMIT takes the default handling in the region of core `n` (R275). -/
def State.defWait (s : State) (n : Nat) : Bool :=
  match s.region? (s.core n).region with
  | some r => s.rDefwait r
  | none => false

/-- The delivery of a frozen core's fault, or the save that it was frozen for, as far as it can be taken now (R308). -/
def State.deliver (s : State) (n : Nat) : State :=
  match (s.core n).call with
  | none => s
  | some .preempt => if s.settled n then s.saveAway n true else s
  | some .yield => if s.settled n then s.saveAway n false else s
  | some (.fault r) =>
    if r.cause = .pageFault then s.pageFaultOn n r
    else if r.cause = .waitLimit ∧ s.defWait n then (if s.settled n then s.saveAway n false else s)
    else if (s.core n).trap.isSome then s.failCore n 0x03
    else s

/-- What a freeze makes of the ME step in progress on core `n` (R184, R284): an MMA keeps its committed blocks, an MNARROW
its committed rows, and each owes the rest from there. -/
def State.meStop (s : State) (n : Nat) : State :=
  let t := { s with cur := n }
  match t.me.me.due, t.me.unitInstr .me with
  | some due, .ok (.mma d a b m q) => { t.mmaStop false d a b m q due with cur := s.cur }
  | some due, .ok (.mmas d a b m q) => { t.mmaStop true d a b m q due with cur := s.cur }
  | some _, .ok (.mnarrow d a _) => { t.narrowStop d a with cur := s.cur }
  | _, _ => s

/-- A VBULK that S0 has completes during the freeze (R170). -/
def State.bulkInFreeze (s : State) (n : Nat) : State :=
  let t := { s with cur := n }
  match t.me.ve.due, t.me.unitInstr .ve with
  | some _, .ok (.vbulk d a rm f) =>
    match execVbulk d a rm f t with
    | .next r => { r with cur := s.cur }
    | _ => s
  | _, _ => s

/-- A MOWN in progress is decided during the freeze: a grant fills the slot, a refusal is raised on the resume (R173). -/
def State.mownInFreeze (s : State) (n : Nat) : State :=
  let c := s.core n
  let t := { s with cur := n }
  match t.me.me.due, t.me.unitInstr .me with
  | some _, .ok (.mown k q) =>
    match execMown k q (t.upd fun c => { c with status := .running, call := none }) with
    | .next r =>
      let held := match (r.core n).call with
        | some (.fault f) => [f]
        | _ => []
      { r with cur := s.cur }.updCore n fun x =>
        { x with status := c.status, call := c.call, frozenAt := c.frozenAt, heldFaults := c.heldFaults ++ held }
    | _ => s
  | _, _ => s

/-- A VE step that a freeze may stop part-way. -/
def execVstep (i : Instr) (s : State) : Res :=
  match i with
  | .vcopy d a rm => execVcopy d a rm s
  | .vquant d a b sr => execVquant d a b sr s
  | .vdeq d a b rm => execVdeq d a b rm s
  | .vrsum d a rm => execVrsum d a rm s
  | .vrmax d a rm => execVrmax d a rm s
  | .vamax d a rm => execVamax d a rm s
  | .vscan d a rm => execVscan d a rm s
  | .vchain k => execVchain k s
  | i => execLink i s

/-- The elements of such a step, in groups of which it may stop (R170). -/
def Core.vstepLen (c : Core) (i : Instr) : Nat :=
  let n := fun (r : BitVec 4) => (Shape.mk r.toNat (vget c.sh 0 r.toNat)).count
  match i with
  | .vcopy d .. | .vquant d .. | .vdeq d .. | .vscan d .. => n d
  | .vrsum _ a _ | .vrmax _ a _ | .vamax _ a _ => n a
  | .vchain k =>
    match (c.chainWords (k.toNat + 1)).bind fun is => (is.head?).bind linkOf with
    | some l => n l.d
    | none => 0
  | i =>
    match linkOf i with
    | some l => n l.d
    | none => 0

/-- What a freeze makes of the VE step in progress on core `n` (R170): it stops at a boundary between groups of 32
elements, which one a free value says (assumption 12). A step whose writes only wait keeps them. -/
def State.veStop (s : State) (n : Nat) : State :=
  let t := { s with cur := n }
  let e := t.me.ve
  match e.due, t.me.unitInstr .ve with
  | some _, .ok i =>
    let d := t.draw
    let hi := 32 * (e.elem / 32 + (Config.freeWord d.1).toNat % (cdiv (t.me.vstepLen i) 32 + 1))
    if e.outs.isSome ∨ hi ≤ e.elem ∨ t.me.vstepLen i ≤ hi then s
    else
      match execVstep i (d.2.updEng n .ve fun e => { e with limit := some hi }) with
      | .next u =>
        if (u.core n).call = (s.core n).call ∧ (u.core n).heldFaults = (s.core n).heldFaults then
          { u.updEng n .ve fun e => { e with limit := none } with cur := s.cur }
        else s
      | _ => s
  | _, _ => s

/-- What a freeze leaves of the waits of core `n`: an SBWAIT or FGET is taken back, also where its reply has arrived, and
is attempted again from the start (R123); every other reply is kept (R223). -/
def State.dropWaits (s : State) (n : Nat) : Try Unit :=
  (s.unpark n).bind fun _ s =>
    let s := { s with cp := { s.cp with posts := s.cp.posts.filter fun p => !(p.core == n && p.op.isWait) } }
    .ok () (s.updCore n fun c => { c with sync := c.sync.bind fun q => if q.wait then none else some q, qHead := none })

/-- FREEZE (R309, R368): every sequencer stops, the frame is built, and the delivery begins. On a core that is already
frozen the CP goes on with the delivery. -/
def execFreeze (n : Nat) (s : State) : Res :=
  let c := s.core n
  match c.status, c.call with
  | .freezing, some w =>
    if c.unstoppable then .next s
    else
      match s.dropWaits n with
      | .wait t => .next t
      | .err _ => .next s
      | .ok _ s =>
        let s := (s.meStop n).veStop n
        let pre := match w with
          | .fault _ => false
          | _ => true
        let s := s.updCore n fun c =>
          { c with
            status := .frozen, frozenAt := s.frameClk, frame := c.buildFrame w s.frameClk, issued := false }
        let code := match w with
          | .fault r => r.cause.code
          | _ => 0
        let s := (s.chalkT n 0x7 (code * 2 ^ 20 + pre.toNat * 2 ^ 28)).chalkPad n
        .next (((s.bulkInFreeze n).mownInFreeze n).deliver n)
  | .frozen, _ => .next ((s.bulkInFreeze n).deliver n)
  | _, _ => .next s

/-! ## Trap continuations (R311-R313) -/

/-- The kernel descriptor of a region's TRAPC, if it can start (R313). -/
def State.trapKernel (s : State) (r : Region) : Option (List Byte) :=
  let w := s.rTrapc r
  if w = 0 ∨ fld w 59 5 ≠ 0 ∨ (s.kernel r.num w).isNone then none
  else
    match s.cpRd r.num (fld w 6 50 * 64) 256 with
    | .ok b => some b
    | .error _ => none

/-- The fault of a core is one that goes to TRAPC (R308). -/
def State.toTrap (s : State) (n : Nat) : Bool :=
  match (s.core n).call with
  | some (.fault r) => r.cause != .pageFault && !(r.cause == .waitLimit && s.defWait n) && (s.core n).trap.isNone
  | _ => false

/-- TRAP_DELIVERY (R311): save the trapped CR and start the continuation on the same core. -/
def execTrapDelivery (n : Nat) (s : State) : Res :=
  let c := s.core n
  if c.status != .frozen || !s.toTrap n || !s.settled n then .next s
  else
    match s.region? c.region with
    | none => .next s
    | some r =>
      match s.trapKernel r with
      | none => .next (s.failCore n 0x04)
      | some desc =>
        match s.slotFor n r with
        | none => .next s
        | some slot =>
          let k := c.cr.getD 0
          .next (s.saveOr n slot fun t =>
            let t := (t.startCore n r.num (t.rTrapc r) desc (w64 slot) 0 c.crVa).updCr k fun x =>
              { x with st := .trapped n slot }
            let tr := t.chalkStart n r (fld (t.rTrapc r) 58 1 == 1)
            (t.updCore n fun y =>
              { y with cr := some k, prio := c.prio, trap := some (slot, k), slots := c.slots, trace := tr }).tryLoad n)

end Sys2Proof.Machine
end

