-- ==== Sys2Proof/Machine/Continuation.lean ====
section
/-! DEFINITION. Continuations, windows and the chain tail of the S slot: SPAWN, JOIN, DONE, YIELD, ERET, WDECL,
WCLOSE, WFLUSH, CHTAIL, and the join at its home (R33-R37, R220-R227, R249, R257, R312, R370). -/

namespace Sys2Proof.Machine

/-! ## SPAWN and JOIN (R220, R221) -/

/-- Successors that the CP holds are enqueued, in order, as slots free (R292). -/
def State.drainOverflow (s : State) : List Cr → State
  | [] => s
  | c :: l =>
    match s.region? c.region with
    | none => s.drainOverflow l
    | some r =>
      if s.queueFull r c.img then { s with cp := { s.cp with overflow := s.cp.overflow ++ [c] } }.drainOverflow l
      else (s.enqueueOr r c).drainOverflow l

def State.flushOverflow (s : State) : State :=
  { s with cp := { s.cp with overflow := [] } }.drainOverflow s.cp.overflow

/-- The launch tag of the CR that core `n` runs (R287). -/
def State.tagOf (s : State) (n : Nat) : Nat := ((s.crOf n).map (·.tag)).getD 0

/-- SPAWN at the home of its queue (R220, R292): the image as read is refused or enqueued. -/
def State.spawnServe (s : State) (va : Word) (q : SyncReq) : State :=
  let i := CrImg.ofBytes q.img
  match s.crCheck s.me.region i with
  | .error c => s.reply s.cur (.fault c 0)
  | .ok rn =>
    match s.region? rn with
    | none => s.reply s.cur (.fault .regionDenied 0)
    | some r =>
      if s.queueFull r i then s.reply s.cur (.fault .crqFull 0)
      else (s.reply s.cur (.value 0)).enqueueOr r (s.newCr r i va (s.tagOf s.cur))

/-- SPAWN (R220, R35): after its release and the read of the image, a request of R223. -/
def execSpawn (a : Src) (s : State) : Res :=
  let va := s.sval a
  s.cpRequest va (fun _ c => c) (fun q s => s.spawnServe va q) fun s =>
    if !s.me.performed .pkg then .next (s.stallS .order)
    else
      match addrFault false va.toNat 32 32 with
      | some c => .next (s.sFault c (addr := va))
      | none =>
        match s.rdA s.cur 3 false va.toNat 32 with
        | .wait t => .next (t.stallS .wait)
        | .err e => .next (s.accFail s.cur 3 false e)
        | .ok b t =>
          .next ((t.syncSent 0 false).upd fun c => { c with sync := c.sync.map fun q => { q with img := b } })

/-- A join goes to the home of its block (R34). -/
def State.sendJoin (s : State) (n : Nat) (va pa dom : Nat) (byDone : Bool) : State :=
  let j : JoinReq := { va := va, pa := pa, dom := dom, core := n, region := (s.core n).region, tag := s.tagOf n
                       byDone := byDone, cr := (s.core n).crVa }
  { s with cp := { s.cp with joins := s.cp.joins ++ [j] } }

/-- JOIN (R221). -/
def execJoin (a : Src) (s : State) : Res :=
  s.request (s.sval a) 64 true true (fun _ c => c) fun pa dom t =>
    (t.syncSent pa false).sendJoin s.cur (s.sval a).toNat pa dom false

/-- Post a JOIN_FAULT event (R33). -/
def State.joinFault (s : State) (j : JoinReq) (c : Cause) : State :=
  match s.region? j.region with
  | some r => s.postEvent r 0x07 c.code j.cr.toNat j.va 0
  | none => s

/-- What becomes of a join at its home: to the bundle that waits, or to the CP's event at a commit; nobody waits for
that of a core that has ended. -/
def State.joinReply (s : State) (j : JoinReq) (f : Option Cause) : State :=
  if j.core < 88 then
    s.reply j.core (match f with
      | none => .value 0
      | some c => .fault c 0)
  else
    match if j.core = 88 then f else none with
    | none => s
    | some c => s.joinFault j c

/-- A join applied at its home: COUNT falls, and at zero the successor is enqueued. -/
def State.applyJoin (s : State) (j : JoinReq) : State :=
  let count := s.phNat j.dom j.pa 8
  if s.isPoisoned j.pa 64 then s.joinReply j (some .syncFail)
  else if count = 0 then s.joinReply j (some .joinUnderflow)
  else
    let s := (s.phWrite j.dom j.pa (le8 (count - 1))).markStale j.pa 8
    if count ≠ 1 then s.joinReply j none
    else
      let i := CrImg.ofBytes (s.phRead j.dom (j.pa + 32) 32)
      match s.crCheck j.region i with
      | .error c => s.joinReply j (some c)
      | .ok rn =>
        match s.region? rn with
        | none => s.joinReply j (some .regionDenied)
        | some r => (s.joinReply j none).enqueueLater r (s.newCr r i (w64 (j.va + 32)) j.tag)

/-- JOIN_APPLY (R34): a join reaches the home of its block; the CP's own follows its writes (R304, Table 3-5). -/
def execJoinApply (k : Nat) (s : State) : Res :=
  match s.cp.joins[k]? with
  | none => .next s
  | some j =>
    if j.pf.isSome then .next s
    else
      let go := fun (s : State) =>
        match s.homeReady j.core j.dom j.pa 64 with
        | .wait t => Host.Outcome.next t
        | .err _ => .next s
        | .ok _ t =>
          .next (({ t with cp := { t.cp with joins := listDel t.cp.joins k } }.applyJoin j).settleTag j.tag)
      if j.core < 88 then go s else s.cpTurn go

/-! ## Windows (R224, R225, R249) -/

/-- The tiles of a core that lie in a window. -/
def Core.winTiles (c : Core) (w : Window) : List TileCopy :=
  c.tiles.filter fun t => decide (w.spad ≤ t.off ∧ t.off < w.spad + w.size)

/-- Check 1 of R224. -/
def wdeclOk (a b : Word) : Bool :=
  let tile := 2 ^ (7 + fld b 56 3)
  let sp := fld a 0 21
  let size := fld a 21 22
  decide (fld a 43 21 = 0 ∧ fld b 61 3 = 0 ∧ fld b 56 3 ≠ 7 ∧ fld b 59 2 ≠ 0 ∧ size ≠ 0 ∧ sp % tile = 0 ∧
    size % tile = 0 ∧ sp + size ≤ 0x200000 ∧ fld b 0 56 % tile = 0)

/-- Check 2 of R224. -/
def Core.winOverlaps (c : Core) (sp size g : Nat) : Bool :=
  c.win.toList.any fun w =>
    match w with
    | none => false
    | some w => decide ((w.spad < sp + size ∧ sp < w.spad + w.size) ∨ (w.global < g + size ∧ g < w.global + w.size))

/-- Check 4 of R224: the tiles of the global range, page by page; a failure with the VA of its page. -/
def State.wdeclWalk (s : State) (region tile : Nat) (reach : Scope) :
    List (Nat × Nat) → Except (WalkErr × Nat) (List WTile)
  | [] => .ok []
  | (va, len) :: r =>
    match s.walk region va with
    | .error e => .error (e, va / 65536 * 65536)
    | .ok p =>
      match s.wdeclWalk region tile reach r with
      | .error e => .error e
      | .ok l =>
        .ok ((List.range (len / tile)).map (fun k =>
          { va := va + k * tile, pa := p.pa + va % 2 ^ p.lg + k * tile, reach := scopeMin reach p.reach, w := p.w }) ++ l)

/-- Check 5 of R224: another core's declaration of a tile with another size or reach. -/
def State.wdeclConflict (s : State) (n tile : Nat) (t : WTile) : Bool :=
  s.dir.any fun e => decide (e.pa < t.pa + tile ∧ t.pa < e.pa + e.tile)
    && (e.decl.any fun k => k != n) && (e.tile != tile || e.reach != t.reach)

/-- Every write that has stopped at a narrower scope and meets a range is performed at its reach; false while a remote
holder stands in the way of one. -/
def State.performRange (s : State) (pa n : Nat) : Bool × State :=
  let meets := fun (w : BufW) => decide (w.pa < pa + n ∧ pa < w.pa + w.bytes.length)
  let s := ((s.cores.filter fun c => c.2.buf.any meets).map (·.1)).foldl (fun s m =>
    performFirst m (lastMeets meets (s.core m).buf 0 0) s) s
  (!(s.cores.any fun c => c.2.buf.any meets), s)

/-- What the snoop filter holds of the lines of a tile becomes the tile's record of remote holders (R263). -/
def State.takeHolders (s : State) (e : DirEnt) : State :=
  let here := fun (pa : Nat) => decide (e.pa ≤ pa ∧ pa < e.pa + e.tile)
  let xs := s.snoop.filter fun x => here x.pa
  let gs := (xs.flatMap (·.groups)).eraseDups
  let s := { s with
    snoop := (s.snoop.filter fun x => !here x.pa)
      ++ if gs.isEmpty then [] else [{ pa := e.pa, holders := [], groups := gs }]
    bis := s.bis.map fun b => if here b.pa then { b with pa := e.pa } else b }
  let s := if gs.isEmpty then s else s.setEnt { e with coarse := true }
  (xs.flatMap (·.holders)).foldl (fun s h => s.addHolder h.1 e.pa h.2) s

/-- The home registers a core's declaration of a tile (R257), and whether its page refuses writes (R224). -/
def State.declare (s : State) (n tile off : Nat) (t : WTile) : State :=
  let dom := homeDom t.reach (dieOf n)
  let ro := if t.w then [] else [n]
  let s := match s.entAt dom t.pa with
    | some e => s.setEnt { e with decl := n :: e.decl, ro := ro ++ e.ro }
    | none =>
      let e : DirEnt :=
        { dom := dom, pa := t.pa, tile := tile, reach := t.reach, st := .i, busy := 0, owner := none, sharers := []
          acks := 0, decl := [n], rem := [], coarse := false, cur := none, queue := [], poisoned := false, ro := ro }
      let s := { s with dir := s.dir ++ [e] }
      if t.reach == Scope.pod then s.takeHolders e else s
  let c : TileCopy := { dom := dom, pa := t.pa, off := off, size := tile, st := .i, mask := [], inval := false, held := [] }
  s.updCore n fun x => { x with tiles := x.tiles ++ [c] }

def declareAll (n tile : Nat) : Nat → List WTile → State → State
  | _, [], s => s
  | off, t :: r, s => declareAll n tile (off + tile) r (s.declare n tile off t)

/-- Whether every earlier write to the tiles is performed before the window is registered. -/
def clearTiles (tile : Nat) : List WTile → State → Bool × State
  | [], s => (true, s)
  | t :: r, s =>
    let x := s.performRange t.pa tile
    let y := clearTiles tile r x.2
    (x.1 && y.1, y.2)

/-- The lowest free window number. -/
def Core.freeWin (c : Core) : Option Nat := listFind (fun (w : Option Window) => w.isNone) c.win.toList 0

/-- The window that the operands of a WDECL ask for (Table 10-5). -/
def windowOf (a b : Word) : Window :=
  { spad := fld a 0 21, size := fld a 21 22, tile := 2 ^ (7 + fld b 56 3), global := fld b 0 56
    reach := (reachOf (fld b 59 2)).getD .pod }

/-- WDECL at the homes of its tiles: check 5 of R224, and the registration. -/
def State.wdeclServe (s : State) (w : Window) (q : SyncReq) : State :=
  let rt := fun (r : Route) => q.wt.any fun t => s.routePa s.cur t.pa == r
  if rt .hold then s
  else if rt .none then s.reply s.cur (.fault .syncFail 0)
  else if q.wt.any fun t => s.wdeclConflict s.cur w.tile t then s.reply s.cur (.fault .winConflict 0)
  else
    let c := clearTiles w.tile q.wt s
    match if c.1 then c.2.me.freeWin else none with
    | none => c.2
    | some k =>
      ((declareAll s.cur w.tile w.spad q.wt c.2).upd fun c => { c with win := vset c.win k (some w) }).reply s.cur
        (.value (w64 k))

/-- WDECL (R224): the checks, then a request of R223. -/
def execWdecl (d : BitVec 5) (a b : Src) (s : State) : Res :=
  let av := s.sval a
  let bv := s.sval b
  let w := windowOf av bv
  let g := w64 w.global
  s.cpRequest g (fun v c => c.setReg d.toNat v) (fun q s => s.wdeclServe w q) fun s =>
    if !wdeclOk av bv || s.me.winOverlaps w.spad w.size w.global then .next (s.sFault .winCfg)
    else if s.me.freeWin.isNone then .next (s.sFault .winFull)
    else if w.global + w.size > 2 ^ 56 then .next (s.sFault .addrRange (addr := g))
    else
      match s.wdeclWalk s.me.region w.tile w.reach (vaPages w.global w.size) with
      | .error (e, va) => .next (s.accFail s.cur 3 false (.walk e va))
      | .ok ts =>
        if ts.any fun t => s.wdeclConflict s.cur w.tile t then .next (s.sFault .winConflict (addr := g))
        else if !s.me.performed .core then .next (s.stallS .wait)
        else
          .next ((s.syncSent 0 false).upd fun c => { c with sync := c.sync.map fun q => { q with wt := ts } })

/-- FLUSH messages for the dirty tiles among some (R259); the copies stay held. -/
def State.sendFlushes (s : State) (n : Nat) (ts : List TileCopy) : State :=
  let c := s.core n
  let dirty := ts.filter fun t => t.st == .m || t.st == .o
  let m := fun (t : TileCopy) =>
    ({ kind := .flush, src := n, dst := 88, dom := t.dom, pa := t.pa, bytes := c.tileBytes t, mask := t.mask } : Msg)
  let s := { s with msgs := s.msgs ++ dirty.map m }
  dirty.foldl (fun s t => s.updTile n t.dom t.pa fun t =>
    { t with st := if t.st = .o then .s else .e, mask := [] }) s

/-- A write-back of the core is still under way to its home. -/
def State.writingBack (s : State) (n : Nat) : Bool :=
  s.msgs.any fun m => m.src == n && (m.kind == .drop || m.kind == .flush)

/-- The core's declaration of a tile ends (R225, R257). -/
def State.undeclare (s : State) (n : Nat) (t : TileCopy) : State :=
  let s := s.updCore n fun c => { c with tiles := c.tiles.filter fun x => !(x.dom == t.dom && x.pa == t.pa) }
  match s.entAt t.dom t.pa with
  | none => s
  | some e =>
    let e := { e with decl := e.decl.erase n, ro := e.ro.erase n }
    (s.setEnt e).freeEnt e

/-- The bytes of a closed window are undefined (R225). -/
def State.blurWindow (s : State) (n : Nat) (w : Window) : State :=
  let d := s.draw
  d.2.updCore n fun c =>
    { c with spad := c.spad.wrBytes w.spad ((List.range w.size).map fun k => Config.freeByte d.1 (w.spad + k)) }

/-- WCLOSE and WFLUSH (R225, R223): once the window's requests have their data and earlier accesses are performed at its
reach, the write-backs go out; what follows their arrival, and the reply. -/
def State.winOp (s : State) (a : Src) (send : List TileCopy → State → State) (f : Nat → Window → State → State) : Res :=
  let v := s.sval a
  s.cpRequest v (fun _ c => c)
    (fun _ s =>
      match vget s.me.win none v.toNat with
      | none => s
      | some w => if s.writingBack s.cur then s else (f v.toNat w s).reply s.cur (.value 0))
    fun s =>
      match vget s.me.win none v.toNat with
      | none => .next (s.sFault .winCfg (addr := v))
      | some w =>
        let ts := s.me.winTiles w
        if !(s.me.performed w.reach && ts.all TileCopy.settled) then .next (s.stallS .wait)
        else .next ((send ts s).syncSent 0 false)

def execWclose (a : Src) (s : State) : Res :=
  s.winOp a (fun ts s => ts.foldl (fun s t => s.sendDrop s.cur false t) s) fun k w s =>
    (((s.me.winTiles w).foldl (fun s t => s.undeclare s.cur t) s).blurWindow s.cur w).upd fun c =>
      { c with win := vset c.win k none }

def execWflush (a : Src) (s : State) : Res :=
  s.winOp a (fun ts s => s.sendFlushes s.cur ts) fun _ _ s => s

/-! ## CHTAIL (R227) -/

def execChtail (a b : Src) (s : State) : Res :=
  let k := (s.sval a).toNat
  let v := s.sval b
  if k > 7 then .next (s.sFault .sysCfg)
  else if v.toNat % 128 ≠ 0 then .next (s.sFault .align (addr := v))
  else if !(vget s.me.ch .zero k).chainOut then .next (s.sFault .chainFmt)
  else .next ((s.issueS 1 id).updChan s.cur k fun h => { h with tail := v.setWidth 56 })

/-! ## YIELD (R222, R295) -/

def execYield (s : State) : Res :=
  s.notUc
    (if s.me.status ≠ .running then .next (s.stallS .wait)
    else
      let go := match s.region? s.me.region with
        | some r => (s.freeSlot r).isSome
        | none => false
      .next (s.issueS 1 fun c =>
        if go then { c with status := .freezing, call := some .yield, frozenAt := s.frameClk } else c))

/-! ## DONE and ERET (R33, R37, R222, R312) -/

/-- Counters 0, queues empty, engines idle, nothing in flight (R33). -/
def Core.quiet (c : Core) : Bool :=
  c.ld == 0 && c.st == 0 && c.cp == 0 && c.tl == 0 && c.inflight.isEmpty
    && c.engines.all fun e => e.2.cur.isNone && e.2.queue.isEmpty

/-- The slip and deadline events of a retiring CR (R37): `t` is the retirement tick. SLIP or HORIZON that cannot be read
counts as 0, and where the two cannot be written the frame does not slip and no SLIP event is posted: the spec gives no
outcome there (DESIGN CHOICE, notes/assumptions/65.md). -/
def State.slipEvents (s : State) (r : Region) (c : Cr) (t : Nat) : State :=
  if c.deadline = 0 ∨ t ≤ c.deadline then s
  else if c.img.ttf = 0 then s.postEvent r 0x02 0 c.va.toNat c.deadline 0 (some t)
  else
    let slip := (s.frameWord r c.img.ttf 8).getD 0
    let h := (s.frameWord r c.img.ttf 0x10).getD 0
    let excess := t - Nat.max c.deadline h
    if excess = 0 then s
    else
      match s.cpWr (s.grp 14 r).num (s.rFrames r + 32 * (c.img.ttf - 1) + 8) (le8 ((slip + excess) % 2 ^ 64) ++ le8 t) with
      | .error _ => s
      | .ok s => s.postEvent r 0x01 c.img.ttf c.va.toNat c.deadline excess (some t)

/-- A failure record that is not zero is posted (R92). -/
def State.failEvent (s : State) (r : Region) (va : Word) (rec_ : BitVec 64) : State :=
  if rec_ = 0 then s else s.postEvent r 0x03 0 va.toNat rec_.toNat 0

/-- Steps 3 and 4 of R33, after the events: the CR of core `n` retires. -/
def State.retire (s : State) (n : Nat) : State :=
  let c := s.core n
  match s.region? c.region, s.crOf n with
  | some r, some cr =>
    let x := s.trapped n
    let t := match x with
      | some x => (vget x.core.frame 0 6).toNat
      | none => s.frameClk
    let s := s.slipEvents r cr t
    let s := match x with
      | some x => s.failEvent r cr.va x.core.failRec
      | none => s
    let s := s.failEvent r cr.va c.failRec
    let s := match x with
      | some x =>
        let s := s.updCore n fun c => { c with tiles := c.tiles ++ x.core.tiles }
        { s with cp := { s.cp with saved := s.cp.saved.filter fun y => !(y.slot == x.slot && y.cr == x.cr) } }
      | none => s
    (((s.freeCore n).removeCr (c.cr.getD 0)).flushOverflow).sweepAll
  | _, _ => s.freeCore n

/-- CRSTART with SYNC and FRAME (Table 11-7). -/
def crStart (va : Nat) (claim : Bool) (sched clk : Nat) : List Word :=
  [w64 (9 + bitsOf va 5 51 * 16 + claim.toNat * 2 ^ 55), syncWord sched, frameWordOf clk]

/-- The lowest core of a region's PLACE. -/
def State.lowPlace (s : State) (r : Region) : Option Nat := (List.range 88).find? fun n => s.rPlace r n

/-- The packets of a claim, in the slice of the lowest core in PLACE (R304). -/
def State.claimChalk (s : State) (r : Region) (va : Word) : State :=
  match if s.rTracep r && s.rTrslice r != 0 then s.lowPlace r else none with
  | none => s
  | some n =>
    let c := s.core n
    let own := (s.grp 2 r).num
    let ps := crStart va.toNat true c.sched s.frameClk ++ [(0xA : Word)]
    if !c.trace.active then
      let tr := { (s.chalkStart n r true).put c.sched s.frameClk ps with last := c.sched }
      let t := (s.updCore n fun x => { x with trace := tr, region := r.num }).chalkFlush n
      t.updCore n fun x => { x with trace := c.trace, region := c.region }
    else if c.region = r.num then
      s.chalk n fun sc fc t => { t.put sc fc ps with last := sc, since := 0 }
    else s.updCore n fun x => { x with traceLost := tabSet x.traceLost own (tabGet 0 x.traceLost own + 4) }

/-- The claims of the cycle are traced as it ends: behind every other packet of the cycle (R304, R247). -/
def State.flushClaims (s : State) : State :=
  let t := s.cp.claims.foldl (fun (s : State) c =>
    match s.region? c.1 with
    | some r => s.claimChalk r c.2
    | none => s) s
  { t with cp := { t.cp with claims := [] } }

/-- The CP makes the join of a commit (R33, R34, R304); `n` is the core of the launch. A page that is not present is
served first (R317); any other failure is a JOIN_FAULT. -/
def State.commitJoin (s : State) (n : Nat) (j : JoinReq) : State :=
  match s.xlateCp j.region j.va true with
  | .ok (pa, reach) =>
    let j := { j with pa := pa, dom := domOf (s.locReach pa reach) (dieOf n), pf := none }
    { s with cp := { s.cp with joins := s.cp.joins ++ [j] } }
  | .error e =>
    if e.cause = .pageFault then
      let p := s.newPf n j.region j.va true 3 e.entry
      { p.2 with cp := { p.2.cp with joins := p.2.cp.joins ++ [{ j with dom := dieOf n, pf := some p.1 }] } }
    else s.joinFault j e.cause

/-- RESOLVE of the record that joins of a commit wait for: they are made again, from the C-die that they noted. -/
def State.resolveJoins (s : State) (tag : Nat) : State :=
  let l := s.cp.joins.filter fun j => j.pf == some tag
  l.foldl (fun s j => (s.commitJoin (44 * j.dom) j).settleTag j.tag)
    { s with cp := { s.cp with joins := s.cp.joins.filter fun j => j.pf != some tag } }

/-- The masked bytes of a dust page, in runs: offset and bytes. -/
def maskRuns (m : Memory) (cells : List Host.Cell) : List (Nat × List Byte) :=
  (cells.filter fun c => c.2 != 0).foldr (fun c l =>
    match l with
    | [] => [(c.1, [m.rd c.1])]
    | x :: r => if c.1 + 1 = x.1 then (c.1, m.rd c.1 :: x.2) :: r else (c.1, [m.rd c.1]) :: x :: r) []

/-- Commit of a completed undercoat launch (R304): the masked bytes replace the real pages' bytes, and the launch's
CR retires. A commit that cannot be performed fails the region's fault domain. The launch's record is never popped, so that
no deadline is fixed for it (R30), and it posts no DLMISS: the spec names no other tick for one (DESIGN CHOICE,
notes/assumptions/65.md). -/
def State.commitUc (s : State) (id : Nat) : State :=
  match s.cp.ucs.find? fun u => u.1 == id with
  | none => s
  | some (_, u) =>
    let s := if (s.core u.core).uc = some id then s.freeCore u.core else s
    let s := { s with cp := { s.cp with ucs := s.cp.ucs.filter fun x => x.1 != id } }
    match s.region? u.region with
    | none => s
    | some r =>
      let die := dieOf u.core
      let put := fun (s : State) (d : Nat × Nat × Memory × Memory) =>
        (maskRuns d.2.2.1 d.2.2.2.cells).foldl (fun (s : Option State) c =>
          s.bind fun s =>
            match s.cpWr u.region (d.1 + c.1) c.2 die with
            | .ok s => some s
            | .error _ => none) (some s)
      let done := u.dust.foldl (fun (s : Option State) d => s.bind fun s => put s d) (some s)
      let tag := ((s.cp.lqs.find? fun q => q.num == u.queue).map (·.tag)).getD 0
      match done with
      | none => (s.failDomain (s.rFdom r) 0x05).settleTag tag
      | some s =>
        let s := (s.stat u.region 2 (· + 1)).stat u.region 6 fun v => v - 65536 * u.dust.length
        let s : State :=
          if u.real.trace then { s with cp := { s.cp with claims := s.cp.claims ++ [(u.region, u.va)] } } else s
        let joinc := u.real.joinc
        let j : JoinReq := { va := joinc, pa := 0, dom := 0, core := 88, region := u.region, tag := tag, byDone := true
                             cr := u.va }
        let s := if joinc = 0 then s else s.commitJoin u.core j
        s.settleTag tag

/-- DONE of an undercoat launch (Table 17-11): it is complete, or committed when it has been adopted. -/
def State.doneUc (s : State) (id : Nat) : State :=
  match s.cp.ucs.find? fun u => u.1 == id with
  | none => s.freeCore s.cur
  | some (_, u) =>
    if u.st = .adopted then s.commitUc id
    else
      let f := fun (x : Nat × Undercoat) => (x.1, { x.2 with st := .complete })
      { s with cp := { s.cp with ucs := listUpd1 (fun x => x.1 == id) f s.cp.ucs } }.freeCore s.cur

/-- CREND of the CR of core `n`, and the packets before it (R244, R312): true once the trace unit has written all. A
trapped CR's CREND stands in its own slice, also where its continuation is not traced. -/
def State.endTrace (s : State) (n : Nat) : Bool × State :=
  let x := s.trapped n
  let c := s.core n
  let own := match x with
    | some x => x.core.trace.active
    | none => false
  let s := match if own && !c.trace.active then s.region? c.region else none with
    | some r => s.updCore n fun c => { c with trace := { s.chalkStart n r true with last := c.sched } }
    | none => s
  let t := (s.core n).trace
  if !t.active then (true, s)
  else if !t.ended then
    let s := (s.chalkT n 0xA (x.isSome.toNat * 2 ^ 20)).chalkPad n
    (false, s.updCore n fun c => { c with trace := { c.trace with ended := true } })
  else (t.store.isEmpty, s.chalkPad n)

/-- The trace is written, and then `f` (R33, R244). -/
def State.afterTrace (s : State) (n : Nat) (f : State → State) : Res :=
  let r := s.endTrace n
  .next (if r.1 then f r.2 else r.2.stallS .wait)

/-- The join of step 2 of R33, and what follows its reply. -/
def State.doneJoin (s : State) (joinc : Nat) : Res :=
  let n := s.cur
  let j : JoinReq := { va := joinc, pa := 0, dom := 0, core := n, region := s.me.region, tag := 0, byDone := true
                       cr := s.me.crVa }
  match s.me.sync with
  | some q =>
    match q.reply with
    | none => .next (s.stallS .wait)
    | some (.fault c _) => .next ((s.joinFault j c).retire n)
    | some _ => .next (s.retire n)
  | none =>
    match s.blockAt n joinc true with
    | .wait t => .next (t.stallS .wait)
    | .err (.walk e va) =>
      if e.cause = .pageFault then .next (s.accFail n 3 true (.walk e va))
      else s.afterTrace n fun s => (s.joinFault j e.cause).retire n
    | .err e => .next (s.accFail n 3 true e)
    | .ok p t =>
      match t.routePa n p.1 with
      | .hold => .next (t.stallS .wait)
      | .none => t.afterTrace n fun s => (s.joinFault j .syncFail).retire n
      | _ => t.afterTrace n fun s => (s.syncSent p.1 false).sendJoin n joinc p.1 p.2 true

/-- Every window of the core is closed: true once its write-backs have been performed and its declarations have ended
(R222, R225). -/
def State.closeAll (s : State) : Bool × State :=
  let n := s.cur
  let c := s.me
  if c.tiles.any fun t => !t.settled then (false, s)
  else if c.tiles.any fun t => t.st.valid then (false, c.tiles.foldl (fun s t => s.sendDrop n false t) s)
  else if s.writingBack n then (false, s)
  else
    (true, (c.tiles.foldl (fun s t => s.undeclare n t) s).updCore n fun c => { c with win := Vector.replicate 16 none })

/-- DONE (R33, R222, R312). -/
def execDone (s : State) : Res :=
  if !s.me.quiet then .next (s.stallS .wait)
  else
    match s.me.uc with
    | some id => if s.me.performed .pkg then .next (s.doneUc id) else .next (s.stallS .wait)
    | none =>
      let r := s.closeAll
      if !(r.1 && r.2.me.performed .pkg) then .next (r.2.stallS .wait)
      else
        match r.2.crOf s.cur with
        | none => .next (r.2.freeCore s.cur)
        | some c =>
          if c.img.joinc = 0 then r.2.afterTrace s.cur fun t => t.retire s.cur else r.2.doneJoin c.img.joinc

/-- ERET (R230, R312): outside a trap continuation, and for a frame that cannot restart, an illegal instruction. -/
def execEret (s : State) : Res :=
  match s.trapped s.cur with
  | none => .next (s.sFault .illegalInsn (info0 := s.me.sWord))
  | some x =>
    if fld (vget x.core.frame 0 0) 8 1 = 0 then .next (s.sFault .illegalInsn (info0 := s.me.sWord))
    else if !(s.me.quiet && s.me.performed .pod && s.me.buf.isEmpty) then .next (s.stallS .wait)
    else
      let r := s.closeAll
      if !r.1 then .next (r.2.stallS .wait)
      else
        let rpc := fld (vget x.core.frame 0 1) 0 13
        let pc := if rpc = x.core.pc % 8192 then x.core.pc else rpc
        let s := r.2.updCr x.cr fun c => { c with st := .running s.cur }
        .next ((s.chalkFlush s.cur).restoreCtx s.cur x pc)

end Sys2Proof.Machine
end

