-- ==== Sys2Proof/Machine/CoreEvents.lean ====
section
/-! DEFINITION. Events at a core and of the CR schedule: release, aging, pop, deadline, pre-emption, the expiry of a
wait, page faults, and the ways in which a request fails (R29-R31, R37, R143, R273, R293-R295, R317-R321, R337,
R359). -/

namespace Sys2Proof.Machine

/-! ## The CR schedule -/

/-- A waiting CR of the same queue reaches its effective release before this one (R29). Which queue holds a CR whose PRIO
exceeds the region's ceiling the spec does not say: DESIGN CHOICE, the one of the PRIO that it asks for
(assumption 31). -/
def State.releasedBefore (s : State) (k : Nat) (c : Cr) : Bool :=
  let at_ := s.effRelease c
  let rec go : List (Nat × Cr) → Bool → Bool
    | [], _ => false
    | x :: r, seen =>
      if x.1 = k then go r true
      else
        (s.aside x.2 && x.2.region == c.region && x.2.img.prio == c.img.prio &&
          (decide (s.effRelease x.2 < at_) || (!seen && decide (s.effRelease x.2 = at_)))) || go r seen
  go s.cp.crs false

/-- CR_RELEASE (R29, R30): a waiting CR joins the tail of its queue at its effective release; one that a slip has moved
stands aside again. -/
def execCrRelease (k : Nat) (s : State) : Res :=
  match s.cr? k with
  | none => .next s
  | some c =>
    if !s.aside c then .next s
    else if s.effRelease c ≤ s.frameClk ∧ !s.releasedBefore k c then
      .next (s.requeue k false fun x => { x with st := .queued, rel := s.effRelease c })
    else .next (s.updCr k fun x => { x with st := .waiting })

/-- A CR stands in its queue's order. -/
def Cr.inOrder (c : Cr) : Bool :=
  match c.st with
  | .queued | .saved _ _ => true
  | _ => false

/-- CR_AGING (R293). -/
def execCrAging (k : Nat) (s : State) : Res :=
  match s.cr? k with
  | none => .next s
  | some c =>
    match s.region? c.region with
    | none => .next s
    | some r =>
      let step := s.rAgelim r * 4096
      if c.inOrder ∧ step ≠ 0 ∧ c.aged + step ≤ s.frameClk ∧ c.prio < s.rCeil r then
        .next (s.updCr k fun c => { c with prio := c.prio + 1, aged := c.aged + step })
      else .next s

/-- Cores that run CRs of a region's subtree, but for one core; an undercoat launch does not count (R299). -/
def State.coresUnder (s : State) (region but : Nat) : Nat :=
  (s.cores.filter fun c =>
    c.1 != but && c.2.status != .idle && c.2.uc.isNone && s.within region c.2.region).length

/-- Every CORES limit that applies to a region has room (R290, R294). -/
def State.coresRoom (s : State) (r : Region) (but : Nat) : Bool :=
  (s.limits 4 r).all fun x => decide (s.coresUnder x.num but < fld (x.at 0x10) 0 7)

/-- A late CR of the same frame holds this one (R37): by the effective release that rules it, so that no CR holds itself. -/
def State.frameHeld (s : State) (c : Cr) : Bool :=
  c.img.ttf != 0 && s.cp.crs.any fun x =>
    let running := match x.2.st with
      | .running _ => true
      | _ => false
    x.2.region == c.region && x.2.img.ttf == c.img.ttf && x.2.deadline != 0
      && (x.2.late || (running && decide (x.2.deadline ≤ s.frameClk))) && decide (x.2.deadline ≤ s.relOf c)

/-- A CR could be popped on core `n`, were the core idle (R294). -/
def State.poppable (s : State) (n : Nat) (c : Cr) : Bool :=
  match s.region? c.region with
  | none => false
  | some r =>
    let own := match c.st with
      | .queued => !s.aside c
      | .saved m _ => m == n
      | _ => false
    own && r.st == .active && s.rPlace r n && s.coresRoom r n && (s.array n).holder.isNone && !s.frameHeld c

/-- The CRs poppable on core `n`, in order. -/
def State.poppables (s : State) (n : Nat) : List (Nat × Cr) := s.cp.crs.filter fun x => s.poppable n x.2

def Region.creditOf (r : Region) (e : Nat) : Int := tabGet 0 r.credit e

/-- The choice of R294: the CR, and the state with the credits changed. -/
def State.choose (s : State) (n : Nat) : Option (Nat × Cr × State) :=
  let l := s.poppables n
  let e := l.foldl (fun m x => Nat.max m x.2.prio) 0
  let top := l.filter fun x => x.2.prio == e
  let cand := s.cp.regions.filter fun r => top.any fun x => x.2.region == r.num
  let total : Int := (cand.map fun r => (s.rCores r : Int)).foldl (· + ·) 0
  let upd := fun (r : Region) => (r, r.creditOf e + (s.rCores r : Int))
  let best := (cand.map upd).foldl (fun (b : Option (Region × Int)) x =>
    match b with
    | none => some x
    | some y => if x.2 > y.2 ∨ (x.2 = y.2 ∧ x.1.num < y.1.num) then some x else some y) none
  match best with
  | none => none
  | some b =>
    match top.find? fun x => x.2.region == b.1.num with
    | none => none
    | some x =>
      let new := fun (r : Region) =>
        match cand.find? fun y => y.num == r.num with
        | some _ =>
          let v := r.creditOf e + (s.rCores r : Int) - (if r.num = b.1.num then total else 0)
          { r with credit := tabSet r.credit e v }
        | none => r
      some (x.1, x.2, { s with cp := { s.cp with regions := s.cp.regions.map new } })

/-- A queued CR starts on core `n` (R32). -/
def State.popNew (s : State) (n k : Nat) (c : Cr) (r : Region) : State :=
  let dl := if c.img.deadline = 0 then 0 else s.effRelease c + 64 * c.img.deadline
  let s := s.updCr k fun x =>
    { x with st := .running n, deadline := if x.deadline = 0 then dl else x.deadline, rel := s.effRelease c }
  let s := s.startCore n r.num c.img.w0 c.desc (w64 c.img.frame) (w64 c.img.joinc) c.va
  let tr := s.chalkStart n r c.img.trace
  let s := s.updCore n fun y => { y with cr := some k, prio := c.prio, trace := tr }
  let s := s.chalk n fun sc fc t => { t.put sc fc (crStart c.va.toNat false sc fc) with last := sc, since := 0 }
  s.tryLoad n

/-- A saved CR resumes on its own core (R40, R306). -/
def State.popSaved (s : State) (n slot k : Nat) (c : Cr) : State :=
  match s.cp.saved.find? fun x => x.slot == slot && x.cr == k with
  | none => s
  | some x =>
    let st := match x.core.trap with
      | some t => CrSt.trapped n t.1
      | none => .running n
    let s := s.updCr k fun y => { y with st := st }
    s.restoreCtx n { x with core := { x.core with prio := c.prio } } x.core.pc

/-- No lower core that went idle in the same cycle has a CR to choose: such cores choose in ascending order (R294). -/
def State.turn (s : State) (n : Nat) : Bool :=
  (List.range n).all fun m =>
    let c := s.core m
    !(c.status == .idle && c.drained && c.since == (s.core n).since && (s.cp.crs.any fun x => s.poppable m x.2))

/-- CR_POP (R31, R32, R294): the slot of the popped CR is read in the queue memory (R291). -/
def execCrPop (n : Nat) (s : State) : Res :=
  s.cpTurn fun s =>
  if (s.core n).status ≠ .idle || !(s.core n).drained || !s.turn n then .next s
  else
    match s.choose n with
    | none => .next s
    | some (k, c, t) =>
      match c.st, t.region? c.region with
      | .queued, some r => .next (t.queueSlot r c.img.prio c.slot fun t => (t.popNew n k c r).flushOverflow)
      | .saved _ slot, some r => .next (t.queueSlot r c.img.prio c.slot fun t => (t.popSaved n slot k c).flushOverflow)
      | _, _ => .next s

/-- DEADLINE_PASSED (R37). -/
def execDeadlinePassed (n : Nat) (s : State) : Res :=
  match (s.core n).cr, s.crOf n with
  | some k, some c =>
    if c.deadline ≠ 0 ∧ c.deadline ≤ s.frameClk then .next (s.updCr k fun c => { c with late := true }) else .next s
  | _, _ => .next s

/-- A running CR that the CP may pre-empt (R295). -/
def State.victim (s : State) (n : Nat) : Bool :=
  let c := s.core n
  c.status == .running && c.uc.isNone && decide (c.since + 60000 ≤ s.frameClk)
    && (s.cp.crs.any fun x => s.poppable n x.2 && decide (c.prio < x.2.prio))
    && (match s.region? c.region with
      | some r => (s.freeSlot r).isSome
      | none => false)

/-- The victim that comes before another: lowest priority, longest run, lowest core (R295). -/
def State.worse (s : State) (a b : Nat) : Bool :=
  let x := s.core a
  let y := s.core b
  decide (x.prio < y.prio ∨ (x.prio = y.prio ∧ (x.since < y.since ∨ (x.since = y.since ∧ a < b))))

/-- PREEMPTION (R295): the CP calls for a freeze of the first victim; of a core frozen for it the context is saved. -/
def execPreemption (n : Nat) (s : State) : Res :=
  let c := s.core n
  if c.status = .frozen ∧ c.call = some .preempt then .next (s.deliver n)
  else if s.victim n && !(s.cores.any fun x => x.1 != n && s.victim x.1 && s.worse x.1 n) then
    .next (s.updCore n fun c => { c with status := .freezing, call := some .preempt, frozenAt := s.frameClk })
  else .next s

/-! ## Waits (R140-R143, R147, R150, R273) -/

/-- The wait whose bundle stands at the PC of core `n`: its limit and the record's address. -/
def State.waitAtPc (s : State) (n : Nat) : Option (Instr × Word × Word) :=
  let c := s.core n
  let v := fun (a : Src) => a.ival c.reg
  match decodeIn .s c.sWord.toNat with
  | .ok (.waita d a b sc) => some (.waita d a b sc, c.reg d.toNat, v a)
  | .ok (.waitq d a b) => some (.waitq d a b, c.reg d.toNat, v a)
  | .ok (.sbwait d a b) => some (.sbwait d a b, c.reg d.toNat, v a)
  | .ok (.fget d a b) => some (.fget d a b, v b, v a)
  | _ => none

/-- The condition of a wait that reads holds now: the condition wins (Table 13-3). -/
def State.waitHolds (s : State) (i : Instr) : Bool :=
  let s := s.upd fun c => { c with issued := false }
  let won := fun (r : Res) => match r with
    | .next t => t.me.issued || t.me.status != s.me.status
    | _ => false
  match i with
  | .waita d a b sc => won (execWaita d a b sc s)
  | .waitq d a b =>
    match execWaitq d a b s with
    | .next t => won (.next t) || (t.me.qHead.isSome && won (execWaitq d a b t))
    | _ => false
  | _ => false

/-- WAIT_LIMIT (R143, Table 6-5): the limit of the wait of core `n` has passed. On a core frozen for it, the default
handling goes on (R275). -/
def execWaitLimit (n : Nat) (s : State) : Res :=
  let c := s.core n
  if c.status = .frozen then .next (s.deliver n)
  else
    match c.waitAt, s.waitAtPc n with
    | some t0, some (i, lim, addr) =>
      let s := { s with cur := n }
      if c.status ≠ .running ∨ lim = 0 ∨ c.sched < t0 + lim.toNat ∨ s.waitHolds i then .next s
      else
        let fail := fun (s : State) (i0 i1 : Word) =>
          Host.Outcome.next (s.faultOn n
            { cause := .waitLimit, obs := 3, addr := addr, info0 := i0, info1 := i1, rpc := c.pc })
        -- a parked request: what has reached its home comes first, and then the removal (Table 13-3)
        let parked := fun (i1 : Word) =>
          match c.sync with
          | some q =>
            if !q.parked || q.reply.isSome || s.cp.posts.any (fun p => p.pa == q.pa && !p.op.last) then .next s
            else
              match s.unpark n with
              | .ok v t => fail (t.updCore n fun c => { c with sync := none }) v i1
              | .wait t => .next t
              | .err _ => .next s
          | none => .next s
        match i with
        | .waita .. => fail s c.waitVals.1 c.waitVals.2
        | .waitq .. => fail s (c.qHead.getD c.waitVals.1) c.waitVals.2
        | .sbwait _ _ b => parked (b.ival c.reg)
        | _ => parked 0
    | _, _ => .next s

/-- WAIT_REREAD (R273): a wait that is not satisfied reads its word again when its bundle is next tried. -/
def execWaitReread (n : Nat) (s : State) : Res :=
  if (s.core n).stall = .wait then .next (s.updCore n fun c => { c with tried := false }) else .next s

/-! ## Page faults (R317, R318) -/

/-- PAGE_FAULT_SAVE (R318): once the 12,000th cycle has ended, in which a RESOLVE still resumes the core, the context is
saved and the CR held aside. -/
def execPageFaultSave (n : Nat) (s : State) : Res :=
  let c := s.core n
  match c.pfTag, s.region? c.region with
  | some tag, some r =>
    if c.status = .frozen ∧ c.frozenAt + 12000 < s.frameClk ∧ s.settled n then
      match s.slotFor n r with
      | none => .next s
      | some slot =>
        .next (s.saveOr n slot fun t => t.updCr (c.cr.getD 0) fun x => { x with st := .aside n slot tag })
    else .next s
  | _, _ => .next s

/-- The walk that a waiting access needs, again (R317): whether it faults once more, and where its leaf stands. -/
def State.walkAgain (s : State) (region va : Nat) (wr : Bool) : Option Nat :=
  match s.xlateCp region va wr with
  | .error e => if e.cause = .pageFault then some e.entry else none
  | .ok _ => none

/-- A save that is due before the RESOLVE of a record: its cycle has passed (R318). -/
def State.saveDue (s : State) (tag n : Nat) : State :=
  match if (s.core n).pfTag = some tag then execPageFaultSave n s else .next s with
  | .next t => t
  | _ => s

/-- RESOLVE at a frozen core: it resumes in step, or waits under a new TAG. -/
def State.resolveCore (s : State) (tag n : Nat) : State :=
  let c := s.core n
  match c.call with
  | some (.fault r) =>
    if c.pfTag = some tag ∧ c.status = .frozen then
      match s.walkAgain c.region r.addr.toNat r.wr with
      | none => s.resumeCore n
      | some leaf =>
        let p := s.newPf n c.region r.addr.toNat r.wr r.obs leaf
        p.2.updCore n fun c => { c with pfTag := some p.1 }
    else s
  | _ => s

/-- RESOLVE for a CR held aside: SAVED, at the head of its queue's order, or aside under a new TAG. -/
def State.resolveAside (s : State) (tag : Nat) (x : Nat × Cr) : State :=
  match x.2.st with
  | .aside n slot t =>
    if t ≠ tag then s
    else
      match s.cp.saved.find? fun y => y.slot == slot && y.cr == x.1 with
      | none => s
      | some y =>
        match y.core.call with
        | some (.fault r) =>
          match s.walkAgain y.region r.addr.toNat r.wr with
          | none => s.requeue x.1 true fun c => { c with st := .saved n slot }
          | some leaf =>
            let p := s.newPf n y.region r.addr.toNat r.wr r.obs leaf
            p.2.updCr x.1 fun c => { c with st := .aside n slot p.1 }
        | _ => s.requeue x.1 true fun c => { c with st := .saved n slot }
  | _ => s

/-- RESOLVE (R317, R318, Table 18-7): the driver answers a record. -/
def execResolve (tag : Nat) (s : State) : Res :=
  if s.cp.pfs.any fun p => p.tag == tag then
    let s := { s with cp := { s.cp with pfs := s.cp.pfs.filter fun p => p.tag != tag } }
    let s := s.cores.foldl (fun t c => (t.saveDue tag c.1).resolveCore tag c.1) s
    .next ((s.cp.crs.foldl (fun t x => t.resolveAside tag x) s).resolveJoins tag).flushPfs
  else .next s

/-! ## Requests that fail (R321, R337, R359) -/

/-- The report of a failed access: the failure record, and the write is performed nowhere from now on (R93); or a read
issued again or given up (R321). R93 leaves open whether a store, an AMO or a CAS that is reported under TIMEOUT,
DEAD_LINK or ATOMIC_UNKNOWN was performed before its report: one that no home has applied by then never is, as the agenda
orders the two (DESIGN CHOICE, notes/assumptions/36.md). -/
def State.reportAcc (s : State) (n k : Nat) (a : Access) (f : FailCause) : State :=
  let gone := s.updCore n fun c => { c with buf := c.buf.filter fun w => w.tag != some a.tag }.retireTag a s.frameClk
    (s.frameClk - 16 * s.dev.rsplim.toNat)
  match a.kind with
  | .store _ | .amo .. | .cas .. => gone.failAcc n k a f
  | .sync => s
  | _ => if a.retried then gone.readTimeout n k a else s.retag n k a

/-- The waiting bundle of core `n` has its request applied at the home now, if the home can take it. -/
def State.applySync (s : State) (n : Nat) : State :=
  let run := fun (r : Res) => match r with
    | .next t => { t with cur := s.cur }
    | _ => s
  let c := { s with cur := n }
  match s.cp.posts.find? fun p => p.core == n && p.op.byteCount.isNone with
  | some p => run (execSbarHomeStep p.pa c)
  | none =>
    match listFind (fun (j : JoinReq) => j.core == n) s.cp.joins 0 with
    | some k => run (execJoinApply k c)
    | none =>
      match decodeIn .s c.me.sWord.toNat with
      | .ok (.spawn a) => run (execSpawn a c)
      | .ok (.wdecl d a b) => run (execWdecl d a b c)
      | .ok (.wclose a) => run (execWclose a c)
      | .ok (.wflush a) => run (execWflush a c)
      | .ok (.tlbinv a b) => run (execTlbinv a b c)
      | _ => s

/-- The report of a failed request of the waiting bundle: SYNC_FAIL. A free value says whether the request has been
applied by then (R151, R223); if not, it never is (R321). A wait that fails has changed nothing. -/
def State.reportSync (s : State) (n : Nat) : State :=
  let d := s.draw
  let waits := ((s.core n).sync.map (·.wait)).getD false
  let s := if !waits && (Config.freeWord d.1).getLsbD 0 then d.2.applySync n else d.2
  let s : State := { s with cp := { s.cp with
    posts := s.cp.posts.filter fun p => !(p.core == n && p.op.byteCount.isNone)
    joins := s.cp.joins.filter fun j => j.core != n } }
  s.reply n (.fault .syncFail 0)

/-- The waiting bundle has a request out, not parked and not answered. -/
def Core.syncOpen (c : Core) : Option SyncReq :=
  match c.sync with
  | some q => if q.reply.isNone && !q.parked then some q else none
  | none => none

/-- A step in progress of an engine of core `n` is to read memory. -/
def State.reading (s : State) (n : Nat) (u : Unit8) : Bool :=
  let c := s.core n
  let e := c.eng u
  e.due.isSome && !e.read &&
    match c.chainOf u with
    | some x => x.step != .edges && x.step != .post && x.step != .seq
    | none => if u = .me then { s with cur := n }.mmaRemote else unitReads u (c.unitWord u)

/-- The failure of a request of an engine's step (R321). A write-class one enters the failure record, through the step's
own write (R92); a read is issued again once, and its second failure is RD_TIMEOUT in that observer. -/
def State.unitReport (s : State) (n : Nat) (u : Unit8) (q : Ask) (f : FailCause) : State :=
  s.updEng n u fun e =>
    if q.wr then { e with ask := none, fails := e.fails ++ [(q.sp, q.addr, f)] }
    else if q.second then { e with ask := some { q with dead := true } }
    else { e with ask := some { q with second := true, at_ := s.frameClk, lim := s.dev.rsplim.toNat, err := none } }

/-- RSPLIM has passed without a reply, or, for an error that came before, RSPLIM/2 (R321, R337). Of the ME, a remote transfer
that delivers nothing is ME_REMOTE (R180). -/
def State.unitLate (s : State) (n : Nat) (u : Unit8) : State :=
  match ((s.core n).eng u).ask with
  | some q =>
    if q.dead then s
    else
      match q.err with
      | some f => if s.frameClk < q.at_ + q.lim / 2 then s else s.unitReport n u q f
      | none => if s.frameClk < q.at_ + q.lim then s else s.unitReport n u q .timeout
  | none =>
    let t := { s with cur := n }
    if u = .me ∧ t.mmaRemote then { t.meFault .meRemote with cur := s.cur } else s

/-- An error reply to the request that an engine's step waits for: it is reported once RSPLIM/2 cycles have passed (R337). -/
def State.unitErr (s : State) (n : Nat) (u : Unit8) (f : FailCause) : State :=
  match ((s.core n).eng u).ask with
  | some q => if q.err.isSome then s else s.updEng n u fun e => { e with ask := some { q with err := some f } }
  | none => s

/-- REQUEST_TIMEOUT (R321): access `k` of core `n`; one past the last access, the waiting bundle's request; 1,000 and
above, the step of the observer `k` - 1,000. RSPLIM does not run for a held message (R359). -/
def execRequestTimeout (n k : Nat) (s : State) : Res :=
  let c := s.core n
  if k ≥ 1000 then
    match unitOfObs (k - 1000) with
    | some u => .next (s.unitLate n u)
    | none => .next s
  else
    match c.inflight[k]? with
    | some a =>
      if a.held || a.atSrc || decide (s.frameClk < a.at_ + a.lim) then .next s
      else .next (s.reportAcc n k a (a.err.getD .timeout))
    | none =>
      match if k = c.inflight.length then c.syncOpen else none with
      | some q => if s.frameClk < q.at_ + q.lim then .next s else .next (s.reportSync n)
      | none => .next s

/-- LATE_DROP (R321): a reply whose tag or generation matches no request is dropped and counted. -/
def execLateDrop (n : Nat) (tag gen : Nat) (s : State) : Res :=
  if (s.core n).inflight.any fun a => a.tag == tag && a.gen == gen then .next s else .next s.lateReply

/-- ERR (R337): the requester holds the report; `k` as for REQUEST_TIMEOUT. A write that its home has applied meets no
POISON or REFUSED (R93). -/
def execErr (n k : Nat) (e : FailCause) (s : State) : Res :=
  let c := s.core n
  if k ≥ 1000 then
    match unitOfObs (k - 1000) with
    | some u => .next (s.unitErr n u e)
    | none => .next s
  else
    match c.inflight[k]? with
    | some a =>
      if a.err.isSome || a.held || a.atSrc || (a.applied && (e == .poison || e == .refused)) then .next s
      else .next (s.updCore n fun c => { c with inflight := listSet c.inflight k { a with err := some e } })
    | none =>
      if k = c.inflight.length ∧ c.syncOpen.isSome then
        .next (s.updCore n fun c => { c with sync := c.sync.map fun q => { q with err := true } })
      else .next s

/-- DELAYED_FAILURE_REPORT (R337): RSPLIM/2 after the issue the error is reported. -/
def execDelayedFailureReport (n k : Nat) (s : State) : Res :=
  let c := s.core n
  if k ≥ 1000 then
    match unitOfObs (k - 1000) with
    | some u => .next (if (((c.eng u).ask.bind fun q => q.err)).isSome then s.unitLate n u else s)
    | none => .next s
  else
  match c.inflight[k]? with
  | some a =>
    match a.err with
    | some e => if s.frameClk < a.at_ + a.lim / 2 then .next s else .next (s.reportAcc n k a e)
    | none => .next s
  | none =>
    match if k = c.inflight.length then c.syncOpen else none with
    | some q => if q.err && decide (q.at_ + q.lim / 2 ≤ s.frameClk) then .next (s.reportSync n) else .next s
    | none => .next s

/-- S0 reports an uncorrectable error to the step in progress of an engine of core `n` (R164, R219): VE_BULK_FAIL or
HAM_FAIL, if the step is S0's. -/
def State.s0Error (s : State) (n : Nat) (u : Unit8) : Option Res :=
  let t := { s with cur := n }
  if (t.eng u).due.isNone then none
  else
    match u, t.me.unitInstr u with
    | .ve, .ok (.vbulk d ..) => some (t.bulkFail (t.shape d))
    | .hu, _ =>
      (s.cp.searches.find? fun x => x.core == n).map fun x =>
        match x.op with
        | .search .. => .next (s.searchLost n x)
        | .write r e v => t.hamLost e v r
    | _, _ => none

/-- An error that is corrected changes nothing and is counted (R319). -/
def State.corrected (s : State) : State :=
  let v := s.dev.ceCount
  { s with dev := { s.dev with ceCount := if v = BitVec.allOnes 32 then v else v + 1 } }

/-- DATA_POISON (R319): a read in flight of core `n`, or a step of the observer `k` - 1,000, meets an error that
cannot be corrected; from 2,000 on, one strikes the core's copy of tile `k` - 2,000, and is found when the copy is read
(R268); with `k` 3,000 the error is corrected, and with 3,001 it stands in CP state, in boot-time state or in a structure
that no single fault domain owns (R320). An error of S0 is its step's own fault. -/
def execDataPoison (n k : Nat) (s : State) : Res :=
  let c := s.core n
  if k = 3000 then .next s.corrected
  else if k = 3001 then .next s.deviceFatal
  else if k ≥ 2000 then
    match c.tiles[k - 2000]? with
    | some t =>
      if t.st.valid then .next (s.updTile n t.dom t.pa fun t => { t with bad := true }) else .next s
    | none => .next s
  else if k ≥ 1000 then
    match unitOfObs (k - 1000) with
    | some u =>
      match s.s0Error n u with
      | some r => r
      | none =>
        if !s.reading n u then .next s
        else if c.status = .frozen ∨ u = .me then .next (s.poisonFail n)
        else .next (s.updEng n u fun e => { e with hit := true })
    | none => .next s
  else
    match c.inflight[k]? with
    | some a =>
      match a.kind with
      | .store _ | .pref _ | .sync | .wquery .. => .next s
      | _ =>
        let s := match (if a.sp then c.tileSp a.addr else none) with
          | some t => s.ownerError n t
          | none => s
        .next (s.poisonFail n)
    | none => .next s

/-- HOLD_END (R359): a message held at its source takes its tag, its generation and its deadline, and is routed or
refused. -/
def execHoldEnd (n k : Nat) (s : State) : Res :=
  match (s.core n).inflight[k]? with
  | some a => if a.atSrc then .next (s.tryAcc n k a) else .next s
  | none => .next s

end Sys2Proof.Machine
end

