-- ==== Sys2Proof/Machine/Launch.lean ====
section
/-! DEFINITION. Launch queues at their queue points, the launch predictor, and undercoat launches as the CP starts,
claims and discards them (R285-R287, R298-R305). -/

namespace Sys2Proof.Machine

def State.lq? (s : State) (q : Nat) : Option LaunchQ := s.cp.lqs.find? fun x => x.num == q

def State.updLq (s : State) (q : Nat) (f : LaunchQ → LaunchQ) : State :=
  { s with cp := { s.cp with lqs := listUpd1 (fun x => x.num == q) f s.cp.lqs } }

/-- The region that a record of a queue names. -/
def LaunchQ.regionOf (q : LaunchQ) (i : CrImg) : Nat := if i.region = 0 then q.region else i.region

/-! ## The predictor (R298) -/

/-- enc of a launch: its CODE and ENTRY, and its EXACT argument words. -/
def launchEnc (i : CrImg) (args : Vector Word 4) (ign : Nat) : Hv :=
  (List.range 4).foldl (fun h k =>
    if bitsOf ign k 1 = 1 then h else h ^^^ (expand (vget args 0 k)).rotateLeft (512 * k)) (expand (w64 (fld i.w0 0 56)))

/-- hist of a queue. -/
def LaunchQ.history (q : LaunchQ) : Hv :=
  let acc := (q.hist.zipIdx 1).foldl (fun l e => haccAll 1 true (e.1.rotateLeft e.2) l) (List.replicate 4096 0)
  hthrAll (expand (w64 q.pa)) acc

/-- Train: the history before the launch is the key (step 1). S0 sees a search for the key and the write (R279); that the
check for an equal key is a search of its own is a DESIGN CHOICE (assumption 68). -/
def State.predTrain (s : State) (key : Hv) (q : Nat) (i : CrImg) (args : Vector Word 4) : State :=
  let same := s.cp.pred.filter fun p => p.key == key
  let low := same.foldl (fun (m : Option Nat) p => some (Nat.min p.idx (m.getD p.idx))) none
  let at_ := low.getD s.cp.nextw
  let e : PredEnt := { idx := at_, key := key, queue := q, img := i, args := args }
  { s with cp := { s.cp with
    pred := e :: s.cp.pred.filter fun p => p.idx != at_
    nextw := if low.isSome then s.cp.nextw else (s.cp.nextw + 1) % 1024
    predIn := s.cp.predIn ++ [none, some at_] } }

/-- Query: the nearest entry of the queue, then the lowest (step 2). -/
def State.predQuery (s : State) (v : Hv) (q : Nat) : Option PredEnt :=
  let better := fun (a b : Nat × PredEnt) => a.1 < b.1 || (a.1 == b.1 && decide (a.2.idx < b.2.idx))
  let own := (s.cp.pred.filter fun p => p.queue == q).map fun p => (hvDist p.key v, p)
  let near := (own.filter fun x => decide (x.1 ≤ s.cp.pdist)).foldl (fun (m : Option (Nat × PredEnt)) x =>
    match m with
    | none => some x
    | some y => some (if better x y then x else y)) none
  near.map (·.2)

/-- Both steps at a queue point, for a launch whose descriptor can be read. -/
def State.predict (s : State) (q : LaunchQ) (i : CrImg) (args : Vector Word 4) : State :=
  match if s.cp.predEn && !q.nopred then s.kernel (q.regionOf i) i.w0 else none with
  | none => s
  | some k =>
    let s := s.predTrain q.history q.num i args
    let q' := { q with hist := (launchEnc i args k.ign :: q.hist).take 4 }
    let hit := s.predQuery q'.history q.num
    let s := { s with cp := { s.cp with predIn := s.cp.predIn ++ [none] } }.updLq q.num fun x =>
      { x with hist := q'.hist, hit := hit.map fun (p : PredEnt) => (p.img, p.args) }
    match hit with
    | some p => s.stat (q.regionOf p.img) 0 (· + 1)
    | none => s

/-! ## Queue points (R286, R303) -/

/-- Four argument words. -/
def argWords (b : List Byte) : Vector Word 4 := Vector.ofFn fun k : Fin 4 => w64 (dwAt b k.val)

/-- The CODE and ENTRY words and the EXACT argument words of a claim agree (R303, step 1). -/
def Undercoat.agrees (u : Undercoat) (i : CrImg) (args : Vector Word 4) : Bool :=
  fld u.img.w0 0 56 == fld i.w0 0 56 &&
    (List.range 4).all fun k => bitsOf u.ign k 1 == 1 || vget u.args 0 k == vget args 0 k

/-- The undercoat launch of a queue. -/
def State.ucFor (s : State) (q : LaunchQ) : Option (Nat × Undercoat) := s.cp.ucs.find? fun u => u.2.queue == q.num

/-- A queue point at which no claim is attempted (R286): the undercoat launch that predicted this position can never be
claimed, and is discarded (assumption 39). -/
def State.passUc (s : State) (q : LaunchQ) : State :=
  match s.ucFor q with
  | some (id, _) => s.discardUc id 5
  | none => s

/-- A claim at a queue point: the state, and whether it has succeeded. The registrations end at CLOSE (R303). -/
def State.claim (s : State) (q : LaunchQ) (i : CrImg) (args : Option (Vector Word 4)) : State × Bool :=
  match s.ucFor q with
  | none => (s, false)
  | some (id, u) =>
    match args with
    | none => (s.passUc q, false)
    | some a =>
      if !u.agrees i a then (s.discardUc id 4, false)
      else if u.stale then (s.discardUc id 3, false)
      else
        let f := fun (x : Nat × Undercoat) =>
          (x.1, { x.2 with real := i, regd := [], st := if x.2.st = .running then .adopted else x.2.st })
        let s := { s with cp := { s.cp with ucs := listUpd1 (fun x => x.1 == id) f s.cp.ucs } }
        (if u.st = .complete then s.commitUc id else s, true)

/-- HEAD moves past launch `k`, which holds a fresh launch tag until it completes (R286, R287). -/
def State.headOn (s : State) (q : LaunchQ) (k : Nat) : State :=
  let s := { s with cp := { s.cp with nextLaunch := s.cp.nextLaunch + 1 } }
  (s.updLq q.num fun x => { x with head := k + 1, tag := s.cp.nextLaunch - 1, pend := none }).paWr (q.pa + 0x10)
    (le8 (k + 1))

/-- The record of a launch leaves the CP: HEAD moves on, unless it has moved at the launch's claim (R303). -/
def State.launchOut (s : State) (q : LaunchQ) : State :=
  if q.tag = 0 then s.headOn q q.head else s.updLq q.num fun x => { x with pend := none }

/-- Step 4 of R286: the record is refused, held or enqueued, under the launch's tag. -/
def State.launchGo (s : State) (q : LaunchQ) (i : CrImg) (va : Word) : State :=
  let bad := fun (c : Cause) =>
    let t := s.launchOut q
    match t.lq? q.num with
    | some q => t.launchBad q c
    | none => t
  match s.crCheck q.region i with
  | .error c => bad c
  | .ok rn =>
    match s.region? rn with
    | none => bad .regionDenied
    | some r =>
      if s.queueFull r i then s.updLq q.num fun x => { x with pend := some (i, va) }
      else
        let t := s.launchOut q
        t.enqueueOr r (t.newCr r i va (if q.tag = 0 then t.cp.nextLaunch - 1 else q.tag))

/-- The launch at the head of a queue reaches its queue point. The argument block stands at FRAME in the CR's own region
(R28, R286). -/
def State.queuePoint (s : State) (q : LaunchQ) : State :=
  let s := s.updLq q.num fun x => { x with hit := none }
  let va := q.ring + 32 * (q.head % 2 ^ q.log2n)
  match s.cpRd q.region va 32 with
  | .error e =>
    if e.cause = .dataPoison then
      s.failDomain (match s.region? q.region with
        | some r => s.rFdom r
        | none => 0) 0x01
    else
      let t := (s.passUc q).headOn q q.head
      match t.lq? q.num with
      | some q => t.launchBad q e.cause
      | none => t
  | .ok b =>
    let i := CrImg.ofBytes b
    let args := match s.cpRd (q.regionOf i) i.frame 32 with
      | .ok b => some (argWords b)
      | .error _ => none
    let s := match args with
      | some a => s.predict q i a
      | none => s
    let t := s.headOn q q.head
    let c := t.claim q i args
    if c.2 then c.1
    else
      let s := (s.claim q i args).1
      match s.lq? q.num with
      | some q => s.launchGo q i (w64 va)
      | none => s

/-- The registered physical pieces of a virtual range; a page without a translation has no home. -/
def State.regPieces (s : State) (region va n : Nat) : List (Nat × Nat) :=
  (vaPages va n).filterMap fun p =>
    match s.xlateCp region p.1 false with
    | .ok x => some (x.1, p.2)
    | .error _ => none

/-- The ranges that a queue point reads: the launch record, the argument block and the descriptor (R286, R288, R298). -/
def State.launchReads (s : State) (q : LaunchQ) : List (Nat × Nat) :=
  let at_ := fun (region va n : Nat) => s.regPieces region va n
  let va := q.ring + 32 * (q.head % 2 ^ q.log2n)
  at_ q.region va 32 ++
    match s.cpRd q.region va 32 with
    | .error _ => []
    | .ok b =>
      let i := CrImg.ofBytes b
      at_ (q.regionOf i) i.frame 32 ++ at_ (q.regionOf i) i.code 256

/-- LAUNCH_QUEUE_POINT (R286): the queue's region is ACTIVE and every launch below has completed. -/
def execLaunchQueuePoint (q : Nat) (s : State) : Res :=
  s.cpTurn fun s =>
  match s.lq? q with
  | none => .next s
  | some x =>
    match s.region? x.region with
    | none => .next s
    | some r =>
      if r.st ≠ .active then .next s
      else
        match x.pend with
        | some (i, va) => .next (s.launchGo x i va)
        | none =>
          if x.tag = 0 ∧ x.head < x.tail then
            .next (s.cpAwait (s.launchReads x) fun s => s.queuePoint x)
          else .next s

/-! ## Undercoat launches (R299-R302) -/

/-- The range of a footprint on argument words: start and length. -/
def KFoot.range (f : KFoot) (args : Vector Word 4) : Int × Nat :=
  (((vget args 0 f.barg).toNat : Int) + f.boff, (vget args 0 f.larg).toNat * f.lmul + f.ladd)

/-- A footprint is well formed (R299). -/
def KFoot.ok (f : KFoot) (ign : Nat) (args : Vector Word 4) : Bool :=
  let r := f.range args
  !f.v || (bitsOf ign f.barg 1 == 0 && bitsOf ign f.larg 1 == 0 &&
    (r.2 == 0 || decide (0 ≤ r.1 ∧ r.1 + r.2 ≤ 2 ^ 56)))

/-- The ranges of the footprints in use. -/
def footRanges (l : List KFoot) (args : Vector Word 4) : List (Nat × Nat) :=
  (l.filter (·.v)).map fun f => ((f.range args).1.toNat, (f.range args).2)

/-- The lowest core that may run an undercoat launch of a region (R299). Its partner array, which is in slot 0 of every core
that runs, is in no other core's slot: an array stands in one slot of one core only (R172; assumption 39). -/
def State.ucCore (s : State) (r : Region) : Option Nat :=
  (List.range 88).find? fun n => s.rPlace r n && (s.core n).status == .idle && (s.core n).drained && (s.array n).holder.isNone
    && (s.poppables n).isEmpty

/-- Start the undercoat launch of a predicted record on a core (R299), for the launch after the one at whose queue point it
was predicted: that one may still be held (R292). -/
def State.ucGo (s : State) (q : LaunchQ) (r : Region) (d : KDesc) (desc : List Byte) (i : CrImg) (args : Vector Word 4)
    (n : Nat) : State :=
  let k := if q.pend.isSome && q.tag == 0 then q.head + 1 else q.head
  let va := w64 (q.ring + 32 * (k % 2 ^ q.log2n))
  let rd := footRanges (d.foots.take 2) args
  let wr := footRanges (d.foots.drop 2) args
  let id := s.cp.nextLaunch
  let regd := (((i.frame, 32) :: rd ++ wr).map fun p => s.regPieces r.num p.1 p.2).flatten
  let u : Undercoat :=
    { queue := q.num, k := k, core := n, region := r.num, img := i, args := args, va := va, ign := d.ign, real := i
      st := .running, stale := false, reads := rd, writes := wr, regd := regd, dust := [] }
  let s := { s with cp := { s.cp with ucs := s.cp.ucs ++ [(id, u)], nextLaunch := id + 1 } }.stat r.num 1 (· + 1)
  let s := s.startCore n r.num i.w0 desc (w64 i.frame) (w64 i.joinc) va
  (s.updCore n fun y => { y with uc := some id, prio := Nat.min i.prio (s.rCeil r) }).tryLoad n

/-- A hit starts an undercoat launch when R299's conditions hold. -/
def State.ucStart (s : State) (q : LaunchQ) (i : CrImg) (args : Vector Word 4) : State :=
  match s.crCheck q.region i with
  | .error _ => s
  | .ok rn =>
    match s.region? rn, s.kernel rn i.w0, s.cpRd rn (fld i.w0 6 50 * 64) 256 with
    | some r, some d, .ok desc =>
      let ok := s.cp.predEn && r.st == .active && s.rUcen r && s.rDustq r != 0 && d.elig
        && (d.foots.all fun f => f.ok d.ign args) && i.ttf == 0 && i.release == 0
        && !(s.cp.ucs.any fun u => u.2.queue == q.num)
      match if ok then s.ucCore r else none with
      | some n => s.ucGo q r d desc i args n
      | none => s
    | _, _, _ => s

/-- UNDERCOAT_START (R299): the hit of a queue's last queue point is used up. -/
def execUndercoatStart (q : Nat) (s : State) : Res :=
  s.cpTurn fun s =>
  match s.lq? q with
  | none => .next s
  | some x =>
    match x.hit with
    | none => .next s
    | some (i, args) => .next ((s.updLq q fun x => { x with hit := none }).ucStart x i args)

/-- UNDERCOAT_DISCARD (R301): the launch of core `n` is stale, a CR has become poppable on its core, or its region is
no longer ACTIVE. -/
def execUndercoatDiscard (n : Nat) (s : State) : Res :=
  let inactive := fun (u : Undercoat) => match s.region? u.region with
    | some r => r.st != .active
    | none => true
  let busy := !(s.poppables n).isEmpty
  match s.cp.ucs.find? fun u => u.2.core == n && (u.2.stale || inactive u.2 || (u.2.st != .complete && busy)) with
  | none => .next s
  | some (id, u) => .next (s.discardUc id (if u.stale then 3 else 5))

end Sys2Proof.Machine
end

