-- ==== Sys2Proof/Machine/Fabric.lean ====
section
/-! DEFINITION. The scale-up fabric: flits, the link layer, port and lane states, allowances, messages at their homes,
routes, the package split and the token (R3, R327-R349, R358-R361, R367). -/

namespace Sys2Proof.Machine

/-! ## Device events (R367) -/

/-- Insert an event among those of its cycle: ascending TYPE, then UNIT. -/
def putEvent (x : Nat × Nat × Nat × Nat) : List (Nat × Nat × Nat × Nat) → List (Nat × Nat × Nat × Nat)
  | [] => [x]
  | y :: r => if x.1 < y.1 ∨ (x.1 = y.1 ∧ x.2.1 < y.2.1) then x :: y :: r else y :: putEvent x r

/-- A device event of this cycle, posted when the cycle ends. -/
def State.devEvent (s : State) (typ unit w2 w3 : Nat) : State :=
  { s with fab := { s.fab with devEvents := putEvent (typ, unit, w2, w3) s.fab.devEvents } }

/-- A physical range that the CP can use: present memory that it has a route to and that is not poisoned (R297, R315). -/
def State.paGood (s : State) (pa n : Nat) : Bool :=
  paUsable pa n && (match s.routePa (88 + s.cpOf 2) pa with
    | .none => false
    | _ => true) && !s.isPoisoned pa n

/-- Post one record to the queue that FEVQ names, under R297; all its addresses are physical. A descriptor or a slot that
cannot be used drops the event, which LOST counts where it can be written. -/
def State.postDev (s : State) (x : Nat × Nat × Nat × Nat) : State :=
  let q := s.fab.fevq.toNat
  if q = 0 ∨ !s.paGood q 64 then s
  else
    let w := fun k => s.paNat (q + 8 * k) 8
    let n := 2 ^ (w 1 % 32)
    let slot := w 0 % 2 ^ 56 + 64 * (w 3 % n)
    if (w 3 + 2 ^ 64 - w 2) % 2 ^ 64 = n ∨ !s.paGood slot 64 then
      s.paWr (q + 0x20) (le8 (Nat.min (w 4 + 1) (2 ^ 64 - 1)))
    else
      let b := le8 (x.1 + x.2.1 * 2 ^ 8) ++ le8 s.frameClk ++ le8 x.2.2.1 ++ le8 x.2.2.2 ++ List.replicate 32 0
      (s.paWr slot b).paWr (q + 0x18) (le8 ((w 3 + 1) % 2 ^ 64))

/-- The events of the cycle that ends. -/
def State.flushDev (s : State) : State :=
  { s.fab.devEvents.foldl State.postDev s with fab := { (s.fab.devEvents.foldl State.postDev s).fab with devEvents := [] } }

/-! ## Flits (R330) -/

/-- One byte into a CRC-64 (polynomial 0x42F0E1EBA9EA3693, high bit first; notes/assumptions/50.md). -/
def crcByte (c : Nat) (b : Byte) : Nat :=
  (List.range 8).foldl (fun c _ => if c ≥ 2 ^ 63 then Nat.xor (c * 2 % 2 ^ 64) 0x42F0E1EBA9EA3693 else c * 2)
    (Nat.xor c (b.toNat * 2 ^ 56))

def crc64 (bs : List Byte) : Nat := Nat.xor (bs.foldl crcByte (2 ^ 64 - 1)) (2 ^ 64 - 1)

/-- The CRC of a flit's beats 0-14. -/
def flitCrc (f : Nat) : Nat := crc64 (leBytes 240 f)

def flFtype (f : Flit) : Nat := bitsOf f.toNat 0 4
def flSeq (f : Flit) : Nat := bitsOf f.toNat 4 12
def flAck (f : Flit) : Nat := bitsOf f.toNat 16 12
def flVc (f : Flit) : Nat := bitsOf f.toNat 28 4
def flSv (f : Flit) : Nat := bitsOf f.toNat 32 4
def flCvc (f : Flit) : Nat := bitsOf f.toNat 36 4
def flCcnt (f : Flit) : Nat := bitsOf f.toNat 40 8
def flLanes (f : Flit) : Nat := bitsOf f.toNat 48 16
def flReq (f : Flit) : Bool := bitsOf f.toNat 64 1 == 1
def flPayload (f : Flit) : Nat := bitsOf f.toNat 128 1792
def flCrcOk (f : Flit) : Bool := bitsOf f.toNat 1920 64 == flitCrc f.toNat

/-- A flit with its CRC. -/
def mkFlit (ftype seq ack vc sv cvc ccnt lanes : Nat) (req : Bool) (payload : Nat) : Flit :=
  let b := ftype + seq * 2 ^ 4 + ack * 2 ^ 16 + vc * 2 ^ 28 + sv * 2 ^ 32 + cvc * 2 ^ 36 + ccnt * 2 ^ 40
    + lanes * 2 ^ 48 + req.toNat * 2 ^ 64 + payload % 2 ^ 1792 * 2 ^ 128
  BitVec.ofNat 2048 (b + flitCrc b * 2 ^ 1920)

/-- A flit that waits for its number, its acknowledgement and its CRC. -/
def protoFlit (ftype vc sv payload : Nat) : Flit :=
  BitVec.ofNat 2048 (ftype + vc * 2 ^ 28 + sv * 2 ^ 32 + payload % 2 ^ 1792 * 2 ^ 128)

/-! ## Messages (R331, R332) -/

/-- The class that fits a message code; none for a reserved code. -/
def clsOf (c : Nat) : Option Nat :=
  if (1 ≤ c ∧ c ≤ 8) ∨ (0x10 ≤ c ∧ c ≤ 0x14) then some 0
  else if 0x20 ≤ c ∧ c ≤ 0x28 then some 1
  else if 0x18 ≤ c ∧ c ≤ 0x1B then some 2
  else if c = 0x1C ∨ c = 0x1D then some 3 else none

/-- The message header at bit `o` of a flit. -/
def hdrAt (f : Nat) (o port vc at_ : Nat) : FMsg :=
  let b := fun lo n => bitsOf f (o + lo) n
  { code := b 0 6, cls := b 6 2, tc := b 8 2, tag := b 10 12, gen := b 22 4, ddev := b 26 14, ddie := b 40 5
    sdev := b 45 14, sdie := b 59 5, sport := b 64 7, poison := b 71 1 == 1, deadline := b 72 7, pa := b 79 49 * 128
    size := 0, err := 0, info := 0, bytes := [], mask := [], port := port, vc := vc, at_ := at_ }

/-- The message of the slot at bit `o`. -/
def slotMsg (f : Nat) (o port vc at_ : Nat) : FMsg :=
  let b := fun lo n => bitsOf f (o + lo) n
  let h := hdrAt f o port vc at_
  let size := Nat.min (b 135 6 + 1) 32
  { h with pa := h.pa + b 128 7, size := size, err := b 141 3, info := b 144 48, bytes := leBytes size (b 192 256) }

/-- The message of a LINE flit's line. -/
def lineMsg (f : Nat) (port vc at_ : Nat) : FMsg :=
  { hdrAt f 128 port vc at_ with
    size := 128, bytes := leBytes 128 (bitsOf f 384 1024)
    mask := (List.range 128).map fun i => bitsOf f (256 + i) 1 == 1 }

/-- The 16 bytes of a message header. -/
def FMsg.header (m : FMsg) : Nat :=
  m.code + m.cls * 2 ^ 6 + m.tc * 2 ^ 8 + m.tag * 2 ^ 10 + m.gen * 2 ^ 22 + m.ddev * 2 ^ 26 + m.ddie * 2 ^ 40
    + m.sdev * 2 ^ 45 + m.sdie * 2 ^ 59 + m.sport * 2 ^ 64 + m.poison.toNat * 2 ^ 71 + m.deadline * 2 ^ 72
    + m.pa / 128 % 2 ^ 49 * 2 ^ 79

/-- The 56 bytes of a slot. -/
def FMsg.slot (m : FMsg) : Nat :=
  let e := m.pa % 128 + (Nat.max m.size 1 - 1) * 2 ^ 7 + m.err * 2 ^ 13 + m.info % 2 ^ 48 * 2 ^ 16
  m.header + e * 2 ^ 128 + leNat m.bytes % 2 ^ 256 * 2 ^ 192

/-- The header and the line of a LINE payload. -/
def FMsg.line (m : FMsg) : Nat :=
  let mask := (m.mask.zipIdx.map fun b => if b.1 then 2 ^ b.2 else 0).foldl (· + ·) 0
  m.header + mask % 2 ^ 128 * 2 ^ 128 + leNat m.bytes % 2 ^ 1024 * 2 ^ 256

/-- The bytes of a line that a MASK carries. -/
def FMsg.carried (m : FMsg) : List (Nat × Byte) :=
  (m.bytes.zipIdx.zip m.mask).filterMap fun x => if x.2 then some (m.pa + x.1.2, x.1.1) else none

/-- The virtual channel of a message (Table 19-8). -/
def FMsg.channel (m : FMsg) : Nat := if m.cls = 2 then 9 else if m.cls = 3 then 8 else 2 * m.tc + m.cls % 2

/-! ## Lanes and allowances (R333, R334, R339-R341) -/

/-- Lanes built on port `n`. -/
def Port.built (p : Port) (n : Nat) : Nat := if n ≥ 64 then 4 else if p.bond then 16 else 8

/-- A lane of the active set: one that leaves is in it no longer once the set without it has been asked for (R361). -/
def LaneSt.inStripe : LaneSt → Bool
  | .active => true
  | _ => false

/-- The active set, as a mask. -/
def Port.mask (p : Port) : Nat :=
  ((List.range 16).map fun i => if (vget p.lanes .off i).st.inStripe then 2 ^ i else 0).foldl (· + ·) 0

def Port.laneCount (p : Port) : Nat := (p.lanes.toList.filter fun l => l.st.inStripe).length

/-- ENTRIES of this side (R334). -/
def Port.ownEntries (p : Port) (n : Nat) : Nat := p.laneCount * (if n ≥ 64 then 32 else 16)

/-- The highest class that a number of entries opens (R341). -/
def openTcOf (entries : Nat) : Nat := if entries ≥ 40 then 3 else if entries ≥ 32 then 2 else if entries ≥ 24 then 1 else 0

/-- A VC is open on a port. -/
def Port.vcOpen (p : Port) (v : Nat) : Bool := v ≥ 8 || decide (v / 2 ≤ p.openTc)

def Port.openVcs (p : Port) : List Nat := (List.range 10).filter p.vcOpen

/-- Reserved entries of a VC (R340): none of a closed one. -/
def Port.share (p : Port) (v : Nat) : Nat := if p.vcOpen v then 4 else 0

/-- A flit of a VC takes an allowance: a reserved entry if one is free, and otherwise a pool entry (R340). -/
def Port.pay (p : Port) (v : Nat) : Port :=
  let r := vget p.reserve 0 v
  if 0 < r then { p with reserve := vset p.reserve v (r - 1) } else { p with pool := p.pool - 1 }

/-- Allowances from the peer's ENTRIES, less what the replay buffer will take again (R340). -/
def Port.allow (p : Port) (entries : Nat) : Port :=
  let p := { p with entries := entries, openTc := openTcOf entries, freed := Vector.replicate 10 0 }
  let p := { p with
    reserve := Vector.ofFn fun v : Fin 10 => p.share v.val
    pool := (entries : Int) - 4 * p.openVcs.length }
  p.replay.foldl (fun p x => if flFtype x.flit = 4 then p else p.pay (flVc x.flit)) p

/-- The number of entries has changed, and the open classes with it (R334, R341): a VC that opens takes four entries out of
the pool, and one that closes gives the pool what its reserve still holds. The pool is below 0 while more entries are in
use than there are. -/
def Port.rescale (p : Port) (e : Nat) : Port :=
  let q := { p with entries := e, openTc := openTcOf e, pool := p.pool + e - p.entries }
  (List.range 10).foldl (fun q v =>
    if p.vcOpen v == q.vcOpen v then q
    else { q with reserve := vset q.reserve v (q.share v), pool := q.pool + vget q.reserve 0 v - q.share v }) q

/-- The set has changed (R334). -/
def Port.recount (p : Port) (n : Nat) : Port := p.rescale (p.ownEntries n)

/-- Allowances that the peer returns: the reserve first, then the pool. -/
def Port.refill (p : Port) (v k : Nat) : Port :=
  let r := vget p.reserve 0 v
  let a := Nat.min k (p.share v - r)
  if v < 10 then { p with reserve := vset p.reserve v (r + a), pool := p.pool + (k - a : Nat) } else p

/-! ## Sending (R335) -/

/-- The lane that carries a beat: with `a` active lanes, the one of rank `n` mod `a` in ascending order (R333). -/
def beatLane (set n : Nat) : Option Nat :=
  let lanes := (List.range 16).filter fun i => bitsOf set i 1 == 1
  lanes[n % lanes.length]?

/-- The 16 beats of a flit on the wire, in order, each with its lane (R330, R333). -/
def OnWire.beats (w : OnWire) : List (Option Nat × BitVec 128) :=
  (List.range 16).map fun i => (beatLane w.set (w.beat + i), BitVec.ofNat 128 (bitsOf w.flit.toNat (128 * i) 128))

/-- A flit goes on the wire after those before it. A STRIPE goes under the set that it announces, from beat 0 (R333). -/
def Port.put (p : Port) (f : Flit) : Port :=
  let stripe := flFtype f == 6
  let set := if stripe then flLanes f else p.txSet
  let beat := if stripe then 0 else p.beat
  { p with out := p.out ++ [⟨set, beat, f⟩], txSet := set, beat := beat + 16 }

/-- Put a flit on the wire with the acknowledgement and the next allowance that is due. -/
def Port.wire (p : Port) (ftype seq vc sv lanes : Nat) (req : Bool) (payload : Nat) : Port :=
  let due := (List.range 10).find? fun v => vget p.freed 0 v != 0
  let cvc := due.getD 0
  let cnt := Nat.min (vget p.freed 0 cvc) 255
  let f := mkFlit ftype seq ((p.rxNext + 4095) % 4096) vc sv cvc cnt lanes req payload
  { p.put f with owe := none, freed := vset p.freed cvc (vget p.freed 0 cvc - cnt) }

/-- A flit of the replay buffer goes on the wire. -/
def Port.wireSeq (p : Port) (seq : Nat) (f : Flit) : Port := p.wire (flFtype f) seq (flVc f) (flSv f) 0 false (flPayload f)

/-- Number `a` is at or below `b`, modulo 4,096. -/
def seqLe (a b : Nat) : Bool := decide ((b + 4096 - a) % 4096 < 2048)

/-- A port that moves flits. -/
def Port.flows (p : Port) : Bool := p.st == .active || p.st == .degraded || p.st == .draining

/-- A flit takes a number and, but for DRAIN, an allowance; none when it must wait. None passes on a closed VC (R358). -/
def Port.sendOne (p : Port) (vc : Nat) (f : Flit) (clk : Nat) : Option Port :=
  if !p.flows || decide (256 ≤ p.replay.length) || !p.vcOpen vc then none
  else
    let paid := if (flFtype f) = 4 then some p
      else if 0 < vget p.reserve 0 vc ∨ 0 < p.pool then some (p.pay vc) else none
    paid.map fun p =>
      let q := p.wireSeq p.txSeq f
      { q with
        txSeq := (p.txSeq + 1) % 4096, replay := q.replay ++ [⟨p.txSeq, f, 1⟩]
        stripeSeq := p.stripeSeq.filter fun k => seqLe k ((p.txSeq + 1) % 4096)
        ackAt := if p.replay.isEmpty then clk else p.ackAt
        drainTx := if (flFtype f) = 4 then vc :: q.drainTx else q.drainTx }

/-- A message's DEADLINE loses the time that it has waited here, in units of 512 cycles (R332). -/
def ageFlit (f : Flit) (wait : Nat) : Flit :=
  let d := bitsOf f.toNat 200 7
  if flFtype f = 4 then f else BitVec.ofNat 2048 (f.toNat - Nat.min d (wait / 512) * 2 ^ 200)

/-- Send what can be sent, in order within each VC. -/
def pump (clk : Nat) : List TxFlit → List Nat → List TxFlit → Port → Port
  | [], _, kept, p => { p with txq := kept.reverse }
  | x :: r, blocked, kept, p =>
    match if blocked.contains x.vc then none else p.sendOne x.vc (ageFlit x.flit (clk - x.at_)) clk with
    | some p => pump clk r blocked kept p
    | none => pump clk r (x.vc :: blocked) (x :: kept) p

/-- The VCs of TC0 (Table 19-8). -/
def tc0Vc (v : Nat) : Bool := decide (v < 2)

/-- TC0 VCs take strict priority over TC1-TC3 (R344): a flit of theirs that can go takes an allowance and a number first. -/
def Port.go (p : Port) (clk : Nat) : Port :=
  pump clk (p.txq.filter (fun x => tc0Vc x.vc) ++ p.txq.filter fun x => !tc0Vc x.vc) [] [] p

/-- Resend every unacknowledged flit from the `k`-th on (R335). -/
def Port.resendFrom (p : Port) (k : Nat) : Port :=
  let again := p.replay.drop k
  let q := again.foldl (fun p x => p.wireSeq x.seq x.flit) p
  { q with
    replay := p.replay.take k ++ again.map fun x => { x with count := x.count + 1 }
    replayed := Nat.min (p.replayed + again.length) (2 ^ 32 - 1), resent := p.resent + again.length }

/-- The place of a number in the replay buffer. -/
def Port.place (p : Port) (seq : Nat) : Option Nat := listFind (fun (x : Sent) => x.seq == seq) p.replay 0

/-- An ACK releases what it covers. When it advances, the times sent are counted anew (R336). -/
def Port.acked (p : Port) (a clk : Nat) : Port :=
  let r := p.replay.dropWhile fun x => seqLe x.seq a
  if r.length = p.replay.length then p else { p with replay := r.map fun x => { x with count := 0 }, ackAt := clk }

/-- A NAK of the `k`-th flit is served: it and those after it are sent again. The port notes the cycle, and what its wire
held before. -/
def Port.serveNak (p : Port) (k clk : Nat) : Port := { p.resendFrom k with naked := some (clk, p.out.length) }

/-! ## Ports of the state -/

/-- A port exists, and is not the odd port of a bonded pair (R350). -/
def State.portOwn (s : State) (n : Nat) : Bool := decide (n < 95) && s.portNo n == n

def PortSt.code : PortSt → Nat
  | .down => 0
  | .train => 1
  | .ident => 2
  | .active => 3
  | .degraded => 4
  | .draining => 5
  | .dark => 6
  | .quarantine => 7

/-- The global ports that carry traffic, as announced to the group (R346). -/
def State.liveGlobals (s : State) : Word :=
  w64 (((List.range 64).map fun n => if (s.port n).carries 0 then 2 ^ n else 0).foldl (· + ·) 0)

/-- A port moves to a state, or stays in it with a new set, and the event is posted (R338). -/
def State.portTo (s : State) (n : Nat) (st : PortSt) (p : Port) : State :=
  let old := (s.port n).st
  if old = st ∧ (s.port n).mask = p.mask then s.setPort n { p with st := st }
  else
    let since := if old = st then p.since else s.frameClk
    let s := s.setPort n { p with st := st, since := since, resent := 0 }
    let s := s.devEvent 0x10 n (old.code + st.code * 16 + p.mask * 2 ^ 8) (p.resent % 2 ^ 32)
    { s with fab := { s.fab with announced := s.liveGlobals } }

/-- Change the path record of a destination and VC. -/
def State.setPath (s : State) (x : Path) : State :=
  { s with fab := { s.fab with paths := x :: s.fab.paths.filter fun y => !(y.dst == x.dst && y.vc == x.vc) } }

/-- Hand a flit to a port. -/
def State.handTo (s : State) (q vc : Nat) (f : Flit) : State :=
  let p := s.port q
  s.setPort q ({ p with txq := p.txq ++ [TxFlit.mk vc f s.frameClk] }.go s.frameClk)

/-- Send a flit to a device over a port, holding it while messages of an old path may be under way (R343). -/
def State.sendOn (s : State) (dst vc q : Nat) (f : Flit) : State :=
  match s.fab.paths.find? fun x => x.dst == dst && x.vc == vc with
  | none => (s.setPath ⟨dst, vc, q, 1, s.frameClk, 0, []⟩).handTo q vc f
  | some x =>
    if x.held.isEmpty ∧ (x.port = q ∨ x.sent ≤ x.covered ∨ x.at_ + s.dev.rsplim.toNat / 2 ≤ s.frameClk) then
      (s.setPath { x with port := q, sent := x.sent + 1, at_ := s.frameClk }).handTo q vc f
    else s.setPath { x with held := x.held ++ [f] }

/-- The message of a flit that this device sends on: that of its first slot or its line. -/
def flitMsg (f : Flit) (at_ : Nat) : FMsg :=
  if (flFtype f) = 2 ∧ (flSv f) % 2 = 1 then lineMsg f.toNat 95 (flVc f) at_ else slotMsg f.toNat 128 95 (flVc f) at_

/-- A flit of this device is held at its source (R347, R359). -/
def State.holdFlit (s : State) (die : Nat) (f : Flit) : State :=
  { s with fab := { s.fab with waiting := s.fab.waiting ++ [(die, f)] } }

/-- Send a flit towards its destination, from a die of this device, where it is held while its route is (R347); one of
another device passes on, and is never held (R343, R346). A request without a live route gets an ERR with DEAD_LINK
(R342). -/
def State.sendFlit (s : State) (f : Flit) (die : Nat := 0) : State :=
  let m := flitMsg f s.frameClk
  let own := m.sdev == s.fab.fabId
  match if own then s.route m.tc m.ddev die else s.relay m.tc m.sdev m.ddev die with
  | .go q => if own then s.sendOn m.ddev m.channel q f else s.handTo q m.channel f
  | r =>
    if own && r == .hold then s.holdFlit die f
    else if m.cls ≠ 0 then s
    else
      let e := s.respond m 0x27 1 [] false
      let g := protoFlit 1 e.channel 1 e.slot
      match s.route e.tc e.ddev die with
      | .go q => s.sendOn e.ddev e.channel q g
      | .hold => s.holdFlit die g
      | _ => s

/-- The flits held at their sources are routed again (R359). -/
def State.sendWaiting (s : State) : State :=
  s.fab.waiting.foldl (fun s x => s.sendFlit x.2 x.1) { s with fab := { s.fab with waiting := [] } }

def State.sendMsg (s : State) (m : FMsg) : State := s.sendFlit (protoFlit 1 m.channel 1 m.slot) m.sdie

/-- A message with a line travels in a LINE flit (R331). -/
def State.sendLine (s : State) (m : FMsg) : State := s.sendFlit (protoFlit 2 m.channel 1 m.line) m.sdie

/-- Release the messages held for a destination and VC (R343): they are counted on with those before them. -/
def State.release (s : State) (x : Path) : State := x.held.foldl (fun s f => s.sendFlit f) (s.setPath { x with held := [] })

/-- Discard a replay buffer: an ERR for each request in it, and every other message is dropped (R336). -/
def State.discardReplay (s : State) (n : Nat) : State :=
  let p := s.port n
  let s := s.setPort n { p with replay := [], kept := none }
  p.replay.foldl (fun s x =>
    if (flFtype x.flit) = 4 then s
    else
      let m := flitMsg x.flit s.frameClk
      if m.cls = 0 then s.sendMsg (s.respond m 0x27 1 [] false) else s) s

/-- Messages that wait at a port and meet `f` are sent afresh (Table 19-12). -/
def State.rerouteIf (s : State) (n : Nat) (f : Nat → Bool) : State :=
  let p := s.port n
  let s := s.setPort n { p with txq := p.txq.filter fun x => !f x.vc }
  (p.txq.filter fun x => f x.vc).foldl (fun s x =>
    if flFtype x.flit = 4 then s else s.sendFlit (ageFlit x.flit (s.frameClk - x.at_))) s

/-- Messages that wait at a port that no longer carries them are sent afresh (Table 19-12). -/
def State.reroute (s : State) (n : Nat) : State := s.rerouteIf n fun _ => true

/-- The messages of the classes that a port has closed are sent afresh, and the others go on (Table 19-12). -/
def State.resume (s : State) (n : Nat) : State :=
  let s := s.rerouteIf n fun v => !(s.port n).vcOpen v
  s.setPort n ((s.port n).go s.frameClk)

/-- All lanes that are built start to train. -/
def Port.trainLanes (p : Port) (n : Nat) : Port :=
  { p with lanes := Vector.ofFn fun i : Fin 16 =>
      let l := vget p.lanes .off i.val
      if i.val < p.built n then { l with st := if l.st = .failed then .failed else .train, good := 0 } else .off }

/-- To DOWN (Table 19-6): nothing is left of the link. -/
def State.toDown (s : State) (n : Nat) : State :=
  let p := s.port n
  let s := s.portTo n .down { p with
    lanes := Vector.replicate 16 .off, held := false, openTc := 0, reserve := Vector.replicate 10 0, pool := 0, entries := 0
    drainTx := [], drainRx := [], mute := false, asked := none, identTx := false, stripeSeq := none }
  let s := (s.discardReplay n).reroute n
  let p := s.port n
  if p.reconf then s.portTo n .dark { p with reconf := false } else s

/-- To TRAIN with the replay buffer kept (R336). -/
def State.toTrainKept (s : State) (n : Nat) : State :=
  let p := s.port n
  s.portTo n .train { p.trainLanes n with
    kept := some s.frameClk, mute := false, asked := none, identTx := false, stripeSeq := none }

/-- To TRAIN (Table 19-6). -/
def State.toTrain (s : State) (n : Nat) : State :=
  let p := s.port n
  s.portTo n .train { p.trainLanes n with identTx := false, mute := false, asked := none }

/-- The VCs that the peer has open: those that this side's entries open to it (R340, R341). -/
def Port.peerVcs (p : Port) (n : Nat) : List Nat :=
  (List.range 10).filter fun v => v ≥ 8 || decide (v / 2 ≤ openTcOf (p.ownEntries n))

/-- The end of a drain (Table 19-6). -/
def State.drained (s : State) (n : Nat) : State :=
  let p := s.port n
  if p.st == .draining && p.replay.isEmpty && p.txq.isEmpty && (p.openVcs.all fun v => p.drainTx.contains v)
      && ((p.peerVcs n).all fun v => p.drainRx.contains v) then
    s.portTo n .dark { p with held := true, drainTx := [], drainRx := [] }
  else s

/-- RECONF (R347): the port leaves the live sets and drains. -/
def State.startDrain (s : State) (n : Nat) : State :=
  let p := s.port n
  let marks := p.openVcs.map fun v => TxFlit.mk v (protoFlit 4 v 0 0) s.frameClk
  let s := s.portTo n .draining { p with reconf := false, txq := p.txq ++ marks }
  (s.setPort n ((s.port n).go s.frameClk)).drained n

/-! ## The active set (R339, R360, R361) -/

/-- Lanes after a change to a set, which serves both directions (R361): a lane whose own change the set does not bring stays
as it is. A set that names a lane without light, or a failed one, is answered as it stands and then asked to be changed
again, so that both sides come to one set (assumption 54). -/
def Port.applySet (p : Port) (set : Nat) : Port :=
  let f := fun (i : Nat) (l : Lane) =>
    let on := bitsOf set i 1 == 1
    match l.st with
    | .active => if on then l else { l with st := .train, good := 0 }
    | .leaving => if on then l else { l with st := .train, good := 0 }
    | .joining | .train | .prove => if on then { l with st := .active, tries := 0, good := 0 } else l
    | _ => l
  { p with lanes := Vector.ofFn fun i : Fin 16 => f i.val (vget p.lanes .off i.val) }

/-- The state that the lanes of a port give it (Tables 19-5, 19-6): a lane that leaves is no active one. -/
def Port.laneState (p : Port) (n : Nat) : PortSt :=
  if (p.lanes.toList.filter fun l => l.st == .active).length = p.built n then .active else .degraded

/-- A port's set has changed to what its lanes say. Only from ACTIVE and DEGRADED does this move the port (Table 19-6); what
waits in a class that has closed is sent afresh in DRAINING too (R358). -/
def State.newSet (s : State) (n : Nat) (p : Port) : State :=
  let q := p.recount n
  if p.st = .active ∨ p.st = .degraded then
    if q.laneCount = 0 then (s.setPort n q).toTrainKept n
    else (s.portTo n (q.laneState n) q).resume n
  else if p.st = .draining then ((s.setPort n q).resume n).drained n
  else s.setPort n q

/-- Ask for a set: STRIPE with REQ = 1 (R339). -/
def Port.ask (p : Port) (set seq : Nat) : Port := { p.wire 6 seq 0 0 set true 0 with asked := some set }

/-- The set that the planned changes of a port lead to (Table 19-7). -/
def Port.wanted (p : Port) : Nat :=
  ((List.range 16).map fun i =>
    match (vget p.lanes .off i).st with
    | .active | .joining => 2 ^ i
    | _ => 0).foldl (· + ·) 0

/-- Planned changes that no request under way will bring are asked for. -/
def Port.askOn (p : Port) : Port :=
  if p.asked.isNone && p.wanted != p.txSet && p.wanted != 0 then p.ask p.wanted p.txSeq else p

/-- A lane's state is replaced. -/
def Port.setLane (p : Port) (i : Nat) (l : Lane) : Port := { p with lanes := vset p.lanes i l }

def Port.lane (p : Port) (i : Nat) : Lane := vget p.lanes .off i

/-- One attempt more (Table 19-7). -/
def Lane.attempt (l : Lane) : Lane :=
  if l.tries + 1 ≥ 8 then ⟨.failed, l.tries + 1, 0⟩ else ⟨.train, l.tries + 1, 0⟩

/-- Lanes go DARK. -/
def Port.darken (p : Port) (ls : List Nat) : Port :=
  ls.foldl (fun p i =>
    match (p.lane i).st with
    | .active | .leaving | .joining => p.setLane i { p.lane i with st := .dark, good := 0 }
    | _ => p) p

/-! ## Receiving (R332, R335) -/

/-- A flit is discarded: NAK the number expected, once in 256 cycles (R335). -/
def Port.discard (p : Port) (clk : Nat) : Port :=
  let again := match p.nak with
    | some (n, t) => n != p.rxNext || decide (t + 256 ≤ clk)
    | none => true
  if p.mute || !again then p else { p.wire 3 p.rxNext 0 0 0 false 0 with nak := some (p.rxNext, clk) }

/-- The message count of a source and VC rises, and a DACK is due (R343). -/
def State.countMsg (s : State) (src vc : Nat) : State :=
  let old := match s.fab.counts.find? fun x => x.1 == src && x.2.1 == vc with
    | some x => x.2.2
    | none => 0
  let put := fun (l : List (Nat × Nat × Nat)) => (l.filter fun x => !(x.1 == src && x.2.1 == vc)) ++ [(src, vc, old + 1)]
  { s with fab := { s.fab with counts := put s.fab.counts, dacks := put s.fab.dacks } }

/-- An error that a response names (R331). -/
def errCause (e : Nat) : FailCause :=
  match e with
  | 1 => .deadLink
  | 2 => .refused
  | 3 => .timeout
  | 4 => .atomicUnknown
  | _ => .poison

/-- The access of a core that a response answers: its tag and generation match (R321). -/
def State.requestOf (s : State) (m : FMsg) : Option (Nat × Nat) :=
  if m.sport < 88 then
    (listFind (fun (a : Access) => a.tag == m.tag && a.gen == m.gen && !a.held && !a.atSrc)
      (s.core m.sport).inflight 0).map fun k => (m.sport, k)
  else none

/-- A response (R321, R332). From a holder that a back-invalidation has been sent to, or from one in mode X: its dirty bytes,
and the notice that it holds no more (Table 12-5). One that answers an access of a core: the error that it names, or the
access is complete. Any other is dropped and counted. -/
def State.response (s : State) (m : FMsg) : State :=
  let asked := s.bis.any fun b => b.pa == s.recOf m.pa && b.dev == m.sdev && b.at_.isSome
  let owner := (s.holdersOf m.pa).any fun h => h.1 == m.sdev && h.2
  let holds := (s.holdersOf m.pa).any fun h => h.1 == m.sdev
  if (asked || owner) && m.code == 0x21 then
    let t := s.holderBack m.sdev m.pa m.carried
    if m.poison then t.poisonAt m.pa else t
  else if (asked && m.code == 0x22) || (holds && m.code == 0x24) then s.dropHolder m.sdev m.pa
  else
    match s.requestOf m with
    | some (n, k) =>
      let r := if m.code = 0x27 then execErr n k (errCause m.err) s
        else match (s.core n).inflight[k]? with
          | some a => .next (s.tryAcc n k a)
          | none => .next s
      match r with
      | .next t => t
      | _ => s
    | none => s.lateReply

/-- A message whose deadline is spent is dropped and applies nothing. -/
def FMsg.spent (m : FMsg) (clk : Nat) : Bool := decide (m.deadline * 512 ≤ clk - m.at_)

/-- A die of Table 0-2 as the die links reach it: a D-die through its M-die (R3). -/
def linkDie (d : Nat) : Nat := if d < 13 then d else d - 11

/-- The die links bring a message from its port to the die that it names, and the home to its memory (R3, R328). -/
def State.arrived (s : State) (m : FMsg) : Bool := s.dieReach (portDie m.port) (linkDie m.ddie) && s.stackUp m.pa

/-- What a SYNC message asks of a block (R332, Table 13-3), with its operand in the data bytes (assumption 53). -/
def FMsg.homeOp (m : FMsg) : HomeOp :=
  let v := leNat (m.bytes.take 8)
  match (Config.syncOp m.info).toNat with
  | 0 => .arrive v
  | 1 => .wait (w64 v)
  | 2 => .fill (w64 v)
  | _ => .get

/-- A SYNC message of another device (R332): its request stands at the block and takes its turn there, as one of a core of
this device does (R144-R150); the home answers with a message. -/
def State.syncIn (s : State) (m : FMsg) : State :=
  if m.spent s.frameClk || paDev m.pa != s.fab.fabId then s
  else if !s.arrived m then s.sendMsg (s.respond m 0x27 1 [] false)
  else if s.isPoisoned m.pa 32 then s.sendMsg (s.respond m 0x27 5 [] false)
  else
    let l := s.fab.syncs
    let id := 1000 + ((List.range (l.length + 1)).find? fun k => !l.any fun x => x.1 == 1000 + k).getD 0
    let dom := match s.entFor 0 m.pa with
      | some e => e.home
      | none => 3
    { s with
      fab := { s.fab with syncs := l ++ [(id, m)] }
      cp := { s.cp with posts := s.cp.posts ++ [{ pa := m.pa, dom := dom, va := 0, core := id, op := m.homeOp }] } }

/-- Requests of other devices whose deadline is spent before their home has come to them apply nothing (R332). -/
def State.dropSyncs (s : State) : State :=
  let gone := fun (n : Nat) =>
    s.cp.posts.any (fun p => p.core == n) && s.fab.syncs.any fun x => x.1 == n && x.2.spent s.frameClk
  { s with
    fab := { s.fab with syncs := s.fab.syncs.filter fun x => !gone x.1 }
    cp := { s.cp with posts := s.cp.posts.filter fun p => !gone p.core } }

/-- A message that a port has accepted. -/
def State.accept (s : State) (n : Nat) (m : FMsg) (relay : Flit) : State :=
  if clsOf m.code ≠ some m.cls ∨ m.sport > 0x62 then
    let p := s.port n
    s.setPort n { p with bad := Nat.min (p.bad + 1) 65535 }
  else if m.deadline = 0 then s
  else if m.ddev ≠ s.fab.fabId then s.sendFlit relay (portDie n)
  else
    let s := s.countMsg m.sdev m.vc
    if m.code = 7 then s.syncIn m
    else if m.cls = 0 then { s with fab := { s.fab with inbox := s.fab.inbox ++ [m] } }
    else if m.cls = 3 then { s with fab := { s.fab with bisIn := s.fab.bisIn ++ [m] } }.backInv m.pa
    else if m.cls = 1 then s.response m
    else s

/-- The messages of a flit, each with the flit that would relay it. -/
def flitMsgs (f : Flit) (n at_ : Nat) : List (FMsg × Flit) :=
  let slot := fun o => (slotMsg f.toNat o n (flVc f) at_, protoFlit 1 (flVc f) 1 (bitsOf f.toNat o 448))
  if (flFtype f) = 1 then ((List.range 4).filter fun i => bitsOf (flSv f) i 1 == 1).map fun i => slot (128 + 448 * i)
  else
    (if bitsOf (flSv f) 0 1 = 1 then [(lineMsg f.toNat n (flVc f) at_, protoFlit 2 (flVc f) 1 (bitsOf f.toNat 128 1280))] else [])
      ++ if bitsOf (flSv f) 1 1 = 1 then [slot (128 + 1280)] else []

/-- What every intact flit brings: its ACK and its allowance. -/
def State.ackOf (s : State) (n : Nat) (f : Flit) : State :=
  s.setPort n (((s.port n).acked (flAck f) s.frameClk).refill (flCvc f) (flCcnt f))

/-- What waits at a port goes, as far as it can. -/
def State.goPort (s : State) (n : Nat) : State := s.setPort n ((s.port n).go s.frameClk)

/-- A flit of a kind arrives at a port that moves flits; `g` is what it does when it is intact, and only then do new flits go
(R335). A flit whose CRC is bad or whose FTYPE is reserved is discarded. -/
def State.rx (s : State) (n kind : Nat) (f : Flit) (g : State → State) : Res :=
  let p := s.port n
  if !s.portOwn n || !p.flows then .next s
  else if !(flCrcOk f) then
    .next (s.setPort n ({ p with crcerr := Nat.min (p.crcerr + 1) 65535 }.discard s.frameClk))
  else if (flFtype f) > 6 then .next (s.setPort n (p.discard s.frameClk))
  else if (flFtype f) ≠ kind then .next s
  else if p.mute && kind != 6 then .next s
  else .next (((g (s.ackOf n f)).goPort n).drained n)

/-- A flit that takes a number is accepted in order only (R335). -/
def State.rxSeq (s : State) (n kind : Nat) (f : Flit) (g : State → State) : Res :=
  s.rx n kind f fun s =>
    let p := s.port n
    if (flSeq f) ≠ p.rxNext then s.setPort n (p.discard s.frameClk)
    else
      let p := { p with rxNext := (p.rxNext + 1) % 4096, owe := some (p.owe.getD s.frameClk), nak := none }
      let p := if (flFtype f) = 4 ∨ (flVc f) ≥ 10 then p else { p with freed := vset p.freed (flVc f) (vget p.freed 0 (flVc f) + 1) }
      g (s.setPort n p)

/-- NULL (R330). -/
def execNull (n : Nat) (f : Flit) (s : State) : Res := s.rx n 0 f id

/-- SLOTS (R335). -/
def execSlots (n : Nat) (f : Flit) (s : State) : Res :=
  s.rxSeq n 1 f fun s => (flitMsgs f n s.frameClk).foldl (fun s m => s.accept n m.1 m.2) s

/-- LINE (R331). -/
def execLine (n : Nat) (f : Flit) (s : State) : Res :=
  s.rxSeq n 2 f fun s => (flitMsgs f n s.frameClk).foldl (fun s m => s.accept n m.1 m.2) s

/-- NAK (R335): after the STRIPE of a laser fault, one that names a number at or above its SEQ is ignored (R360). -/
def execNak (n : Nat) (f : Flit) (s : State) : Res :=
  s.rx n 3 f fun s =>
    let p := s.port n
    let stale := match p.stripeSeq with
      | some q => seqLe q (flSeq f)
      | none => false
    match if stale then none else p.place (flSeq f) with
    | some k => s.setPort n (p.serveNak k s.frameClk)
    | none => s

/-- DRAIN (R338). -/
def execDrain (n : Nat) (f : Flit) (s : State) : Res :=
  s.rxSeq n 4 f fun s =>
    let p := s.port n
    s.setPort n { p with drainRx := (flVc f) :: p.drainRx }

/-- This side's IDENT (R330). -/
def State.sendIdent (s : State) (n : Nat) : State :=
  let p := s.port n
  let load := s.fab.fabId + n * 2 ^ 16 + p.bond.toNat * 2 ^ 24 + p.ownEntries n * 2 ^ 32 + p.rxNext * 2 ^ 48
  s.setPort n { { p with txSet := p.mask, beat := 0 }.wire 5 0 0 0 0 false load with identTx := true }

/-- Both IDENTs have been exchanged with the expected peer (R336, R347): the same one is the peer that the last exchange has
accepted, whatever a QUARANTINE has met since. -/
def State.identOk (s : State) (n : Nat) (dev port entries next : Nat) : State :=
  let p := s.port n
  let same := p.peer == some (dev, port)
  let inTime := match p.kept with
    | some t => decide (s.frameClk ≤ t + 600000)
    | none => false
  let s := if same && inTime then s else s.discardReplay n
  let p := s.port n
  let p := { p with foundDev := dev, foundPort := port, peer := some (dev, port), drainRx := [], drainTx := [], nak := none, txSet := p.mask }
  let p := if same && inTime then
      let q := p.acked ((next + 4095) % 4096) s.frameClk
      ({ q with kept := none, ackAt := s.frameClk }.allow entries).resendFrom 0
    else
      let q := { p with txSeq := next, kept := none }
      if p.held && same then q.rescale entries else q.allow entries
  let p := { p with held := false }
  let s := (s.portTo n (p.laneState n) p).resume n
  if (s.port n).reconf then s.startDrain n else s

/-- IDENT (R338). -/
def execIdent (n : Nat) (f : Flit) (s : State) : Res :=
  let p := s.port n
  if !s.portOwn n || p.st != .ident then .next s
  else if !(flCrcOk f) then .next (s.setPort n { p with crcerr := Nat.min (p.crcerr + 1) 65535 })
  else if (flFtype f) ≠ 5 then .next s
  else
    let b := fun lo k => bitsOf (flPayload f) lo k
    let s := if p.identTx then s else s.sendIdent n
    if p.peerV && (b 0 16 != p.peerDev || b 16 8 != p.peerPort) then
      .next ((s.portTo n .quarantine { s.port n with foundDev := b 0 14, foundPort := b 16 7 }).reroute n)
    else .next (s.identOk n (b 0 16) (b 16 8) (b 32 16) (b 48 12))

/-- A change of set has been answered, or asked for by the peer: the lanes follow, and both sides post it (R361). -/
def State.takeSet (s : State) (n : Nat) (p : Port) (set : Nat) : State := s.newSet n (p.applySet set).askOn

/-- A STRIPE with REQ = 1 reports a loss of light of the peer alone (R339): it drops lanes that carry here, the peer sends
nothing again, and this side has seen no loss itself. A planned change looks the same: a free value decides. -/
def Port.peerDark (p : Port) (f : Flit) (free : Nat) : Bool :=
  !p.mute && p.asked != some (flLanes f) && seqLe p.rxNext (flSeq f)
    && ((List.range 16).any fun i => bitsOf p.mask i 1 == 1 && bitsOf (flLanes f) i 1 == 0)
    && (Config.freeWord free).getLsbD 0

/-- A STRIPE goes on the wire, before what a NAK of the same cycle has sent again (Table 19-12). -/
def Port.wireStripe (p : Port) (seq set clk : Nat) : Port :=
  let len := match p.naked with
    | some (t, len) => if t = clk then len else p.out.length
    | none => p.out.length
  (p.out.drop len).foldl (fun q x => q.put x.flit) ({ p with out := p.out.take len }.wire 6 seq 0 0 set false 0)

/-- The answer to a STRIPE with REQ = 1 (R339, R360): from the next new number, or, at a loss of light, from the oldest
number that is not acknowledged. After this side's own laser fault its STRIPE has answered one for the same set. -/
def Port.answer (p : Port) (f : Flit) (clk free : Nat) : Port :=
  if p.stripeSeq.isSome && p.asked == some (flLanes f) && !p.mute then p
  else
  let q := { p with mute := false, asked := if p.asked = some (flLanes f) then none else p.asked }
  if p.peerDark f free then (q.wireStripe ((q.replay.head?.map (·.seq)).getD q.txSeq) (flLanes f) clk).resendFrom 0
  else q.wireStripe q.txSeq (flLanes f) clk

/-- STRIPE (R339, R360, R361). A side that has seen a loss of light discards every flit until the STRIPE of the set that it
has asked for. -/
def execStripe (n : Nat) (f : Flit) (s : State) : Res :=
  s.rx n 6 f fun s =>
    let p := s.port n
    if p.mute && p.asked != some (flLanes f) then s
    else if flReq f then
      let d := s.draw
      d.2.takeSet n (p.answer f s.frameClk d.1) (flLanes f)
    else if p.asked = some (flLanes f) then s.takeSet n { p with mute := false, asked := none } (flLanes f)
    else s

/-! ## Messages at their homes (R332) -/

/-- Remote holders that stand in the way of a message at its home are back-invalidated (R264). -/
def State.askHolders (s : State) (pa n : Nat) (wr : Bool) : State :=
  match s.entFor 0 pa with
  | some e => if s.quiet e && e.remBlocks wr then s.sendBis e.pa (s.tileHolders e) else s
  | none => s.askLine pa n wr

/-- A message of one of some codes in the inbox is served by `g`; where the home makes it wait, `g` gives the state in which
it waits. One that a die link stops gets an ERR with DEAD_LINK (R342). -/
def State.serve (s : State) (k : Nat) (codes : List Nat) (g : FMsg → State → State ⊕ State) : Res :=
  match s.fab.inbox[k]? with
  | none => .next s
  | some m =>
    if !codes.contains m.code then .next s
    else
      let out := fun (t : State) => { t with fab := { t.fab with inbox := listDel t.fab.inbox k } }
      if m.spent s.frameClk || paDev m.pa != s.fab.fabId then .next (out s)
      else if !s.arrived m then .next ((out s).sendMsg (s.respond m 0x27 1 [] false))
      else
        match g m s with
        | .inl t => .next (out t)
        | .inr t => .next t

/-- The tile of an address has requests under way, or a remote holder stands in the way. -/
def State.homeBusy (s : State) (pa n : Nat) (wr : Bool) : Bool :=
  match s.entFor 0 pa with
  | some e => !s.quiet e || e.remBlocks wr
  | none => s.lineBlocks pa n wr

/-- What a message waits for at its home: remote holders that stand in its way are back-invalidated. -/
def State.homeWaits (s : State) (m : FMsg) (wr : Bool) : State ⊕ State := .inr (s.askHolders m.pa m.size wr)

/-- The bytes that another device reads at this home: what has been performed at POD (R79). -/
def State.homeRd (s : State) (pa n : Nat) : List Byte :=
  match s.entFor 0 pa with
  | some e => ((s.tileData e).1.drop (pa - e.pa)).take n
  | none => s.phRead 3 pa n

/-- A remote request of Table 12-5 that comes as a message: it waits, or it is served and its data goes to its sender. -/
def State.homeShare (s : State) (m : FMsg) (x : Bool) : State ⊕ State :=
  match s.remoteWaits m.sdev m.pa x with
  | some t => .inr t
  | none => .inl (s.serveRemote m.sdev m.pa x m.sdie m.tag m.gen m.sport)

/-- RD, and a GR of another device (R251): DATA in reply, poisoned when the line or tile is (R265, R268). RS: the data of
the tile or line, whose sender is recorded as a holder (Table 12-5). -/
def execRd (k : Nat) (s : State) : Res :=
  s.serve k [0x01, 0x10, 0x13] fun m s =>
    if m.code = 0x10 then s.homeShare m false
    else if s.homeBusy m.pa m.size false then s.homeWaits m false
    else .inl (s.sendMsg (s.respond m 0x20 0 (s.homeRd m.pa m.size) (s.isPoisoned m.pa m.size)))

/-- Bytes that another device writes are applied at this home: a GW at a window tile (R251), and else in the L2, or for an
update of a line that is not there in memory, without a fill (R237). -/
def State.homeApply (s : State) (fill : Bool) (x : Nat × List Byte) : State :=
  match s.entFor 0 x.1 with
  | some e => s.gwWrite e x.1 x.2
  | none => ((if fill then s.phWrite 3 x.1 x.2 else s.homePut 88 3 x.1 x.2)).markStale x.1 x.2.length

/-- A write or an update at the home: a reply, or ERR with POISON (R265). Poison that comes with the data stays with it
(R268, R331). -/
def State.homeWrite (s : State) (m : FMsg) (parts : List (Nat × List Byte)) (code : Nat := 0x22)
    (back : List Byte := []) (fill : Bool := true) : State ⊕ State :=
  if s.homeBusy m.pa m.size true then s.homeWaits m true
  else if s.isPoisoned m.pa m.size then .inl (s.sendMsg (s.respond m 0x27 5 [] false))
  else
    let s := if (s.entFor 0 m.pa).isSome then s else s.expose 88 0 3 m.pa m.size false
    if (s.entFor 0 m.pa).isNone && !s.exposed 88 0 3 m.pa m.size false then .inr s
    else
      let s := parts.foldl (fun s x => s.homeApply fill x) s
      let s := if m.poison && !parts.isEmpty then s.poisonAt m.pa else s
      .inl (s.sendMsg (s.respond m code 0 back false))

/-- An AMO (4), a CAS (5) or an XRED (6) of another device, applied at this home as one event (R67, R90, R192): an XRED
element by element. What INFO asks for, and how the operands stand in the slot, the spec does not lay out: an opaque
constant gives the operation, and a CAS holds the expected value before the new one (assumption 53). -/
def State.homeUpdate (s : State) (m : FMsg) : State ⊕ State :=
  let o := (Config.msgOp m.code m.info).toNat
  if m.code = 6 then
    let ty := bitsOf o 4 5
    let sz := Nat.max 1 (tyWidth ty / 8)
    let xs := chunks sz (m.bytes.length / sz) m.bytes
    s.homeWrite m (fill := false) (xs.zipIdx.map fun x =>
      let pa := m.pa + sz * x.2
      (pa, leBytes sz (redElem ty (bitsOf o 0 2) (leNat (s.homeRd pa sz)) x.1)))
  else
    let w := if m.code = 5 then m.size / 2 else m.size
    let v := fun k => leNat ((m.bytes.drop (w * k)).take w)
    let kind : AccKind := if m.code = 5 then .cas 0 (v 0) (v 1) else .amo 0 (bitsOf o 0 3) (bitsOf o 3 1 == 1) (v 0)
    let old := s.homeRd m.pa w
    let new := ({ kind := kind, size := w } : Access).atHome (leNat old)
    s.homeWrite m (new.toList.map fun x => (m.pa, leBytes w x)) 0x20 old false

/-- WR, and a GW of another device (R251): the slot's bytes are written; the updates that other devices make at this home;
and RX and UP, which make their sender the only holder (Table 12-5). -/
def execWr (k : Nat) (s : State) : Res :=
  s.serve k [0x02, 0x04, 0x05, 0x06, 0x11, 0x12, 0x14] fun m s =>
    if m.code = 0x02 ∨ m.code = 0x14 then s.homeWrite m [(m.pa, m.bytes)]
    else if m.code = 0x11 ∨ m.code = 0x12 then s.homeShare m true
    else s.homeUpdate m

/-- LWR: the bytes that the MASK carries are written. -/
def execLwr (k : Nat) (s : State) : Res :=
  s.serve k [0x03] fun m s => s.homeWrite m (m.carried.map fun x => (x.1, [x.2]))

/-- CPMSG: taken by the CP. What INFO asks for is not laid out; the CPs' own work is modelled where it is done
(notes/assumptions/53.md). -/
def execCpmsg (k : Nat) (s : State) : Res :=
  s.serve k [0x08] fun m s => .inl (s.sendMsg (s.respond m 0x22 0 [] false))

/-! ## Back-invalidations on the fabric (R264) -/

/-- The BI or BI-D to a holder. -/
def State.biMsg (s : State) (b : BiReq) : FMsg :=
  { code := if b.dirty then 0x1D else 0x1C, cls := 3, tc := 0, tag := 0, gen := 0, ddev := b.dev, ddie := 0
    sdev := s.fab.fabId, sdie := 0, sport := 0x58, poison := false
    deadline := Nat.min (s.dev.rsplim.toNat / 2 / 512) 127, pa := b.pa, size := 0, err := 0, info := 0, bytes := []
    mask := [], port := 95, vc := 8, at_ := s.frameClk }

/-- Back-invalidations that stand to be sent go out, unless their route is held; one without a route is never answered. -/
def State.sendOutBis (s : State) : State :=
  let new := s.bis.filter fun b => b.at_.isNone && s.route 0 b.dev != .hold
  let s : State := { s with bis := s.bis.map fun b => if new.contains b then { b with at_ := some s.frameClk } else b }
  (new.filter fun b => b.dev != s.fab.fabId).foldl (fun s b => s.sendMsg (s.biMsg b)) s

/-- A back-invalidation received at a busy entry still waits there. -/
def State.biWaits (s : State) (m : FMsg) : Bool :=
  s.dir.any fun e => e.covers m.pa && (e.cur.toList ++ e.queue).any fun x => x.kind == .bi

/-- The dirty lines that a recalled replica has left for its home: one LINE each (R264). -/
def State.sendDirty (s : State) (m : FMsg) : State :=
  let at_ := fun (x : Nat × List Byte × List Bool) => decide (s.recOf x.1 = s.recOf m.pa)
  let one := fun (s : State) (x : Nat × List Byte × List Bool) =>
    s.sendLine { s.respond m 0x21 0 x.2.1 (s.isPoisoned x.1 128) with tc := 0, pa := x.1, mask := x.2.2 }
  (s.fab.biData.filter at_).foldl one { s with fab := { s.fab with biData := s.fab.biData.filter fun x => !at_ x } }

/-- The acknowledgements of the back-invalidations that have been served, each behind its dirty bytes. -/
def State.ackBis (s : State) : State :=
  let done := s.fab.bisIn.filter fun m => !s.biWaits m
  let s := { s with fab := { s.fab with bisIn := s.fab.bisIn.filter fun m => s.biWaits m } }
  done.foldl (fun s m => (s.sendDirty m).sendMsg { s.respond m 0x22 0 [] false with tc := 0 }) s

/-- The data that other packages have been granted, and the replies to their SYNC messages, go to them (Table 12-5, R332). -/
def State.sendOwed (s : State) : State :=
  s.fab.owed.foldl (fun s m => if m.mask.isEmpty then s.sendMsg m else s.sendLine m) { s with fab := { s.fab with owed := [] } }

/-! ## Timers of the link layer (R335, R336, R338) -/

/-- ACK_TIMER (R335). -/
def execAckTimer (n : Nat) (s : State) : Res :=
  let p := s.port n
  if s.portOwn n && p.flows && (p.owe.isSome || p.freed.toList.any (· != 0)) then
    .next (s.setPort n (p.wire 0 0 0 0 0 false 0))
  else .next s

/-- LINK_RETRAIN (R336). -/
def execLinkRetrain (n : Nat) (s : State) : Res :=
  let p := s.port n
  let stuck := (p.replay.any fun x => decide (16 ≤ x.count))
    || (!p.replay.isEmpty && decide (p.ackAt + 60000 ≤ s.frameClk))
  if s.portOwn n && (p.st == .active || p.st == .degraded) && stuck then .next (s.toTrainKept n) else .next s

/-- REPLAY_BUFFER_DISCARD (R336). -/
def execReplayBufferDiscard (n : Nat) (s : State) : Res :=
  match (s.port n).kept with
  | some t => if s.portOwn n && decide (t + 600000 < s.frameClk) then .next (s.discardReplay n) else .next s
  | none => .next s

/-- SIGNAL_DETECT (R338). -/
def execSignalDetect (n lane : Nat) (s : State) : Res :=
  let p := s.port n
  if s.portOwn n && p.st == .down && p.en && s.fab.fabV && decide (lane < p.built n) then .next (s.toTrain n)
  else .next s

/-- LANE_LOCK (R338): a locked lane carries beats from IDENT on. -/
def execLaneLock (n lane : Nat) (s : State) : Res :=
  let p := s.port n
  if !s.portOwn n || !(p.st == .train || p.st == .ident) || (p.lane lane).st != .train then .next s
  else
    let q := p.setLane lane ⟨.active, 0, 0⟩
    if p.st = .train then .next ((s.portTo n .ident q).sendIdent n) else .next (s.setPort n q)

/-- TRAIN_TIMEOUT (R338). -/
def execTrainTimeout (n : Nat) (s : State) : Res :=
  let p := s.port n
  if s.portOwn n && p.st == .train && decide (p.since + 600000 ≤ s.frameClk) then .next (s.toDown n) else .next s

/-- DARK_TIMEOUT (R338). -/
def execDarkTimeout (n : Nat) (s : State) : Res :=
  let p := s.port n
  if s.portOwn n && p.st == .dark && decide (p.since + p.darklim * 1024 ≤ s.frameClk) then .next (s.toDown n)
  else .next s

/-! ## Lanes (R334, R339) -/

/-- BER_WINDOW (R339): `errs` bit errors before correction in a window of 2^26 bits. -/
def execBerWindow (n lane errs : Nat) (s : State) : Res :=
  let p := s.port n
  let l := p.lane lane
  if !s.portOwn n || !p.flows || decide (16 ≤ lane) then .next s
  else
    match l.st with
    | .active =>
      if errs * 100000 ≤ 2 ^ 26 then .next s
      else
        let q := p.setLane lane { l with st := .leaving }
        .next (s.newSet n (if q.wanted = 0 then q else q.ask q.wanted p.txSeq))
    | .prove =>
      if 2 ^ 26 < errs * 1000000 then .next (s.setPort n (p.setLane lane l.attempt))
      else if l.good + 1 < 2 then .next (s.setPort n (p.setLane lane { l with good := l.good + 1 }))
      else
        let q := p.setLane lane { l with st := .joining, good := 2 }
        .next (s.setPort n (q.ask q.wanted p.txSeq))
    | _ => .next s

/-- The lanes of a loss of light: one, or with 16 + `q` the four of quartet `q`, which go dark in one cycle (R334). -/
def lightLanes (lane : Nat) : List Nat :=
  if lane < 16 then [lane] else if lane < 20 then (List.range 4).map (· + 4 * (lane - 16)) else []

/-- LOSS_OF_LIGHT (R339): the receiver drops the lanes at once and asks the sender to restripe. -/
def execLossOfLight (n lane : Nat) (s : State) : Res :=
  let p := s.port n
  let q := p.darken (lightLanes lane)
  if !s.portOwn n || q == p then .next s
  else if !p.flows || q.laneCount = 0 then .next (s.newSet n q)
  else .next (s.newSet n { q.ask q.mask p.txSeq with mute := true })

/-- The ports and lanes that a laser pluggable feeds (R6). -/
def laserLanes (n k : Nat) : List Nat :=
  let a := if n % 8 = k % 8 then (if k < 8 then [0, 1, 2, 3] else [4, 5, 6, 7]) else []
  a

/-- The lanes of a port, or of a bonded pair, that a laser pluggable feeds. -/
def Port.laserLanes (p : Port) (n k : Nat) : List Nat :=
  Machine.laserLanes n k ++ if p.bond then (Machine.laserLanes (n + 1) k).map (· + 8) else []

/-- A sending port loses lanes (R360, step 1). -/
def State.laserPort (s : State) (k n : Nat) : State :=
  let p := s.port n
  let q := p.darken (p.laserLanes n k)
  if q == p then s
  else if !p.flows || q.laneCount = 0 then s.newSet n q
  else
    let first := (p.replay.head?.map (·.seq)).getD p.txSeq
    let q := (q.ask q.mask first).resendFrom 0
    s.newSet n { q with stripeSeq := some first }

/-- LASER_FAULT (R334). -/
def execLaserFault (k : Nat) (s : State) : Res :=
  if k ≥ 16 then .next s
  else
    let s := ((List.range 64).filter s.portOwn).foldl (fun s n => s.laserPort k n) s
    .next ({ s with fab := { s.fab with laser := s.fab.laser ||| (1#16 <<< k) } }.devEvent 0x12 k 0 0)

/-- EQUALISER_CONVERGED (R339). -/
def execEqualiserConverged (n lane : Nat) (s : State) : Res :=
  let p := s.port n
  if s.portOwn n && p.flows && (p.lane lane).st == .train then
    .next (s.setPort n (p.setLane lane { p.lane lane with st := .prove, good := 0 }))
  else .next s

/-- EQUALISER_TIMEOUT (R339). -/
def execEqualiserTimeout (n lane : Nat) (s : State) : Res :=
  let p := s.port n
  if s.portOwn n && (p.lane lane).st == .train then .next (s.setPort n (p.setLane lane (p.lane lane).attempt))
  else .next s

/-- LIGHT_PRESENT (R339). -/
def execLightPresent (n lane : Nat) (s : State) : Res :=
  let p := s.port n
  if s.portOwn n && (p.lane lane).st == .dark then
    .next (s.setPort n (p.setLane lane { p.lane lane with st := .train, good := 0 }))
  else .next s

/-! ## Route changes (R343, R346) -/

/-- DACK (R343). -/
def execDack (src vc seq : Nat) (s : State) : Res :=
  match s.fab.paths.find? fun x => x.dst == src && x.vc == vc with
  | none => .next s
  | some x =>
    let x := { x with covered := Nat.max x.covered seq }
    if x.sent ≤ x.covered ∧ !x.held.isEmpty then .next ((s.setPath x).release x) else .next (s.setPath x)

/-- ROUTE_HOLD_TIMEOUT (R343). -/
def execRouteHoldTimeout (dst vc : Nat) (s : State) : Res :=
  match s.fab.paths.find? fun x => x.dst == dst && x.vc == vc with
  | none => .next s
  | some x =>
    if x.at_ + s.dev.rsplim.toNat / 2 ≤ s.frameClk ∧ !x.held.isEmpty then .next (s.release x) else .next s

/-- DACK_RETURN (R343): the DACK travels in TC0 (R340). -/
def execDackReturn (src vc seq : Nat) (s : State) : Res :=
  if s.fab.dacks.contains (src, vc, seq) then
    let s := { s with fab := { s.fab with dacks := s.fab.dacks.filter fun x => x != (src, vc, seq) } }
    let m : FMsg :=
      { code := 0x28, cls := 1, tc := 0, tag := 0, gen := 0, ddev := src, ddie := 0, sdev := s.fab.fabId, sdie := 0
        sport := 0x58, poison := false, deadline := Nat.min (s.dev.rsplim.toNat / 2 / 512) 127, pa := 0, size := 0
        err := 0, info := (Config.dackInfo vc seq).toNat, bytes := [], mask := [], port := 95, vc := 1, at_ := s.frameClk }
    .next (s.sendMsg m)
  else .next s

/-- GLOBAL_PORT_ANNOUNCE (R346). -/
def execGlobalPortAnnounce (pos : Nat) (up : Word) (s : State) : Res :=
  if pos < 32 ∧ pos ≠ s.fab.fabId % 32 then
    .next { s with fab := { s.fab with peersUp := tabSet s.fab.peersUp pos up } }
  else .next s

/-! ## Registers that act (R338, R345, R347, R349) -/

/-- FAB_ID (R345). -/
def execFabId (v : Word) (s : State) : Res :=
  let d := fld v 0 14
  let wire := fun (s : State) (q : Nat) =>
    let p := s.port (64 + q)
    s.setPort (64 + q) { p with peerDev := d / 32 * 32 + (d % 32 + q + 1) % 32, peerPort := 64 + (30 - q), peerV := true }
  .next ((List.range 31).foldl wire { s with fab := { s.fab with fabId := d, fabV := fld v 14 1 == 1 } })

/-- RECONF (R347, R358). -/
def execReconf (n : Nat) (s : State) : Res :=
  let p := s.port n
  if !s.portOwn n then .next s
  else if p.st = .active ∨ p.st = .degraded then .next (s.startDrain n)
  else if p.st = .train ∧ p.kept.isSome then .next (s.setPort n { p with reconf := true })
  else .next s

/-- RELOCK (R338, R339). -/
def execRelock (n : Nat) (s : State) : Res :=
  if !s.portOwn n then .next s
  else
    let p := s.port n
    let again := fun (l : Lane) => if l.st = .failed then ⟨.train, 0, 0⟩ else l
    let s := s.setPort n { p with lanes := p.lanes.map again }
    if (p.st == .dark || p.st == .down || p.st == .quarantine) && p.en && s.fab.fabV then .next (s.toTrain n)
    else .next s

/-- EN (R338). -/
def execEn (n : Nat) (on : Bool) (s : State) : Res :=
  if !s.portOwn n then .next s
  else
    let s := s.setPort n { s.port n with en := on }
    if on ∨ (s.port n).st = .down then .next s
    else .next ((s.setPort n { s.port n with reconf := false }).toDown n)

/-- TOKEN_MOVE (R349): only while the package is whole. -/
def execTokenMove (s : State) : Res :=
  match s.fab.token, s.fab.tokenMsg with
  | some h, none =>
    if s.dieReach 0 1 && !s.fab.split then .next { s with fab := { s.fab with tokenMsg := some (0, 1 - h) } }
    else .next s
  | _, _ => .next s

/-- A message of the handover reaches its CP. -/
def State.tokenStep (s : State) (k : Nat) (f : Nat → FabState → FabState) : Res :=
  match s.fab.tokenMsg with
  | some (j, to_) => if j = k ∧ s.dieReach 0 1 ∧ !s.fab.split then .next { s with fab := f to_ s.fab } else .next s
  | none => .next s

def execTokenOffer (s : State) : Res := s.tokenStep 0 fun t f => { f with tokenMsg := some (1, t) }

def execTokenAccept (s : State) : Res := s.tokenStep 1 fun t f => { f with token := none, tokenMsg := some (2, t) }

def execTokenCommit (s : State) : Res := s.tokenStep 2 fun t f => { f with token := some t, tokenMsg := none }

/-! ## The package split (R348, R349) -/

/-- CP_REACHABILITY_CHECK (R348). -/
def execCpReachabilityCheck (s : State) : Res :=
  let apart := if s.dieReach 0 1 then none else some (s.fab.apart.getD s.frameClk)
  if s.fab.checked + 1000 ≤ s.frameClk then .next { s with fab := { s.fab with apart := apart, checked := s.frameClk } }
  else .next s

/-- Ports of an N-die (Table 0-2). -/
def nPorts (d : Nat) : List Nat :=
  if d = 0 then List.range 32 ++ (List.range 16).map (· + 64) else (List.range 32).map (· + 32) ++ (List.range 15).map (· + 80)

/-- Every fault domain with a region fails. -/
def State.failAll (s : State) (code : Nat) : State :=
  (s.cp.regions.map fun r => s.rFdom r).eraseDups.foldl (fun s d => s.failDomain d code) s

/-- PACKAGE_SPLIT (R348, R349): a side that holds the token fails every region with PARTITION, and the replicas of what it is
cut off from are lost (R265); where neither CP holds it, the package is device-fatal. -/
def execPackageSplit (s : State) : Res :=
  match s.fab.apart with
  | none => .next s
  | some t =>
    if s.fab.split ∨ s.frameClk < t + 6000 then .next s
    else
      let halted := match s.fab.token with
        | some h => [1 - h]
        | none => [0, 1]
      let s := { s with fab := { s.fab with split := true, haltedCps := halted, tokenMsg := none } }
      let s := (halted.map nPorts).flatten.foldl (fun s n =>
        if s.portOwn n && (s.port n).st != .down then s.toDown n else s) s
      .next (if s.fab.token.isNone then s.deviceFatal else (s.failAll 6).loseReplicas)

/-! ## Die links (R3, R327-R329) -/

/-- The modules of die link `l` that are up, of `m` built. -/
def State.linkMods (s : State) (l m : Nat) : Nat := m - vget s.fab.linkLost 0 l

/-- The receive buffer of a die link: 64 flits for each module that is up, 32 for one at x32 (R327). -/
def State.linkEntries (s : State) (l m : Nat) : Nat := 64 * s.linkMods l m - 32 * vget s.fab.linkHalf 0 l

/-- The state of die link `l` (R329): ACTIVE only with every module built, at its full width. -/
def State.linkState (s : State) (l m : Nat) : PortSt :=
  if s.linkMods l m = 0 then (if (vget s.fab.linkTrain none l).isSome then .train else .down)
  else if s.linkMods l m = m ∧ vget s.fab.linkHalf 0 l = 0 then .active else .degraded

/-- A die link changes; a transition is posted (R338, R367). -/
def State.linkTo (s : State) (l : Nat) (f : Nat → FabState → FabState) : State :=
  match dieLinks[l]? with
  | none => s
  | some (a, b, m) =>
    let t := { s with fab := f m s.fab }
    if s.linkState l m = t.linkState l m ∧ s.linkMods l m = t.linkMods l m then t
    else
      t.devEvent 0x11 (a * 32 + b)
        ((s.linkState l m).code + (t.linkState l m).code * 16 + (2 ^ t.linkMods l m - 1) * 2 ^ 8) 0

/-- DIE_LINK_MODULE_FAILURE (R3): one module more of link `l` of Table 19-1 is lost. A link without a module trains
(Table 19-6). -/
def execDieLinkModuleFailure (l : Nat) (s : State) : Res :=
  .next (s.linkTo l fun m f =>
    let k := vget f.linkLost 0 l
    if m ≤ k then f
    else { f with
      linkLost := vset f.linkLost l (k + 1), linkHalf := vset f.linkHalf l (Nat.min (vget f.linkHalf 0 l) (m - k - 1))
      linkTrain := if m = k + 1 then vset f.linkTrain l (some s.frameClk) else f.linkTrain })

/-- A die link that has trained for 600,000 cycles without a module is down (R329, Table 19-6). -/
def State.linkTimeout (s : State) (l : Nat) : State :=
  match vget s.fab.linkTrain none l with
  | some t => if t + 600000 ≤ s.frameClk then s.linkTo l fun _ f => { f with linkTrain := vset f.linkTrain l none } else s
  | none => s

/-- What happens outside and has no row of its own. -/
def State.outside (s : State) (o : Outside) : State :=
  match o with
  | .moduleHalf l => s.linkTo l fun m f =>
    let h := vget f.linkHalf 0 l
    if h + vget f.linkLost 0 l < m then { f with linkHalf := vset f.linkHalf l (h + 1) } else f
  | .linkSignal l => s.linkTo l fun m f =>
    if vget f.linkLost 0 l = m then { f with linkTrain := vset f.linkTrain l (some ((vget f.linkTrain none l).getD s.frameClk)) }
    else f
  | .linkUp l k h => s.linkTo l fun m f =>
    let up := m - vget f.linkLost 0 l
    if k ≤ up ∨ m < k ∨ k < h ∨ (up = 0 ∧ vget f.linkTrain none l = none) then f
    else { f with
      linkLost := vset f.linkLost l (m - k), linkHalf := vset f.linkHalf l h, linkTrain := vset f.linkTrain l none }
  | .laserBack k => { s with fab := { s.fab with laser := s.fab.laser &&& ~~~(1#16 <<< k) } }

end Sys2Proof.Machine
end

