-- ==== Sys2Proof/Machine/Ethernet.lean ====
section
/-! DEFINITION. The two Ethernet ports: queues bound to regions, sending, receiving, flow control and link changes
(R351-R357). -/

namespace Sys2Proof.Machine

def State.eth (s : State) (x : Nat) : EthPort := vget s.fab.eth .reset x

def State.updEth (s : State) (x : Nat) (f : EthPort → EthPort) : State :=
  { s with fab := { s.fab with eth := vset s.fab.eth x (f (s.eth x)) } }

/-- One more in a counter of `n` bits that saturates. -/
def sat (n k : Nat) : Nat := Nat.min (k + 1) (2 ^ n - 1)

def State.ethQ (s : State) (x q : Nat) (rx : Bool) : Option EthQ :=
  s.fab.ethq.find? fun e => e.port == x && e.num == q && e.rx == rx

def State.setEthQ (s : State) (e : EthQ) : State :=
  { s with fab := { s.fab with
    ethq := listUpd1 (fun y => y.port == e.port && y.num == e.num && y.rx == e.rx) (fun _ => e) s.fab.ethq } }

/-- The port's accesses are those of the CP of C1 (R353); an address beyond R70's range fails. -/
def State.ethRd (s : State) (region va n : Nat) : Except WalkErr (List Byte) :=
  if va + n > 2 ^ 56 then .error ⟨.addrRange, 0, 0⟩ else s.cpRd region va n 1

def State.ethWr (s : State) (region va : Nat) (bs : List Byte) : Except WalkErr State :=
  if va + bs.length > 2 ^ 56 then .error ⟨.addrRange, 0, 0⟩ else s.cpWr region va bs 1

/-- The bytes of a completion record (R354). -/
def completion (len status idx : Nat) : List Byte := leBytes 2 len ++ leBytes 6 status ++ le8 idx

/-- A queue stops (R356): ENET_QERR is posted with the faulting VA. A read of poisoned data fails the domain. -/
def State.ethStop (s : State) (e : EthQ) (err : WalkErr) (status va : Nat) : State :=
  match s.region? e.region with
  | none => s
  | some r =>
    if err.cause = .dataPoison then s.failDomain (s.rFdom r) 0x01
    else
      let s := match s.ethQ e.port e.num e.rx with
        | some q => s.setEthQ { q with stopped := true }
        | none => s
      s.postEvent r 0x08 status 0 va (e.port + e.rx.toNat * 2 + e.num * 4)

/-- Write the completion record of an index and advance HEAD (R354). -/
def State.ethComplete (s : State) (e : EthQ) (idx len status : Nat) : State :=
  let a := e.cq + 16 * (idx % 2 ^ e.log2n)
  match s.ethWr e.region a (completion len status idx) with
  | .error x => s.ethStop e x 3 a
  | .ok t =>
    match t.ethWr e.region (e.va + 0x10) (le8 (idx + 1)) with
    | .error x => t.ethStop e x 3 (e.va + 0x10)
    | .ok t =>
      match t.ethQ e.port e.num e.rx with
      | some q => t.setEthQ { q with head := idx + 1 }
      | none => t

/-- TAIL of a queue, as an acquire at POD. -/
def State.ethTail (s : State) (e : EthQ) : Except WalkErr Nat :=
  match s.ethRd e.region (e.va + 0x18) 8 with
  | .error x => .error x
  | .ok b => .ok (leNat b)

/-- A descriptor of a ring: the address and the length. -/
def State.ethDesc (s : State) (e : EthQ) (idx : Nat) : Except WalkErr (Nat × Nat × Bool) :=
  match s.ethRd e.region (e.ring + 16 * (idx % 2 ^ e.log2n)) 16 with
  | .error x => .error x
  | .ok b => .ok (dwAt b 0 % 2 ^ 56, dwAt b 1 % 2 ^ 16, dwAt b 0 / 2 ^ 56 == 0 && dwAt b 1 / 2 ^ 16 == 0)

/-! ## Sending (R354) -/

/-- One byte into the frame check sequence of IEEE 802.3. -/
def fcsByte (c : Nat) (b : Byte) : Nat :=
  (List.range 8).foldl (fun c _ => if c % 2 = 1 then Nat.xor (c / 2) 0xEDB88320 else c / 2) (Nat.xor c b.toNat)

/-- The frame check sequence. -/
def fcs (bs : List Byte) : List Byte := leBytes 4 (Nat.xor (bs.foldl fcsByte 0xFFFFFFFF) 0xFFFFFFFF)

/-- Send the published descriptors from an index on, in ring order. -/
def State.ethSend (s : State) (e : EthQ) (tail : Nat) : Nat → Nat → State
  | 0, _ => s
  | f + 1, idx =>
    if tail ≤ idx then s
    else
      let put := fun (s : State) (len status : Nat) =>
        match s.ethQ e.port e.num false with
        | some q => s.setEthQ { q with wire := q.wire ++ [(idx, len, status)] }
        | none => s
      match s.ethDesc e idx with
      | .error x => (put s 0 3).ethStop e x 3 (e.ring + 16 * (idx % 2 ^ e.log2n))
      | .ok (va, len, ok) =>
        if !ok || decide (len < 60 ∨ 9212 < len) then (put s 0 3).ethSend e tail f (idx + 1)
        else
          match s.ethRd e.region va len with
          | .error x => (put s 0 2).ethStop e x 2 va
          | .ok b =>
            ((put s len 0).updEth e.port fun p => { p with out := p.out ++ [b ++ fcs b] }).ethSend e tail f (idx + 1)

/-- ETH_TX_POLL (R354). -/
def execEthTxPoll (x q : Nat) (s : State) : Res :=
  match s.ethQ x q false with
  | none => .next s
  | some e =>
    if e.stopped || e.closing || !(s.eth x).up || (s.eth x).paused.getLsbD e.prio then .next s
    else
      match s.ethTail e with
      | .error err => .next (s.ethStop e err 3 (e.va + 0x18))
      | .ok tail => .next (s.ethSend e tail (2 ^ e.log2n - e.wire.length) (e.head + e.wire.length))

/-- ETH_TX_COMPLETION (R354): the oldest frame of the queue has left. -/
def execEthTxCompletion (x q : Nat) (s : State) : Res :=
  match s.ethQ x q false with
  | none => .next s
  | some e =>
    match e.wire with
    | [] => .next s
    | (idx, len, status) :: r =>
      let s := s.setEthQ { e with wire := r }
      let s := if status = 0 then s.updEth x fun p => { p with tx := sat 32 p.tx } else s
      .next (s.ethComplete { e with wire := r } idx len status)

/-! ## Receiving (R355) -/

/-- The priority of a frame: that of its VLAN tag, or 0. -/
def framePrio (f : List Byte) : Nat :=
  if (f.drop 12).take 2 = [0x81, 0x00] then ((f.drop 14).headD 0).toNat / 32 else 0

/-- The destination address, first byte lowest. -/
def frameDst (f : List Byte) : Nat := leNat (f.take 6)

/-- The lowest-numbered queue of a list. -/
def lowestQ (l : List EthQ) : Option EthQ :=
  l.foldl (fun (m : Option EthQ) e =>
    match m with
    | none => some e
    | some y => if e.num < y.num then some e else some y) none

/-- The receive queue that takes a frame; one that is being unbound takes none (DEDUCED, assumption 57). -/
def State.ethSteer (s : State) (x : Nat) (f : List Byte) : Option EthQ :=
  let qs := s.fab.ethq.filter fun e => e.port == x && e.rx && !e.closing && e.prio == framePrio f
  match lowestQ (qs.filter fun e => e.mac == frameDst f) with
  | some e => some e
  | none => lowestQ (qs.filter fun e => e.mac == 2 ^ 48 - 1)

/-- Whether a queue has a published descriptor; an unreadable TAIL stops it. -/
def State.ethReady (s : State) (e : EthQ) : Bool × State :=
  if e.stopped then (false, s)
  else
    match s.ethTail e with
    | .error err => (false, s.ethStop e err 3 (e.va + 0x18))
    | .ok t => (decide (e.head < t), s)

/-- Write a frame into the next published descriptor's buffer. -/
def State.ethWrite (s : State) (e : EthQ) (f : List Byte) : State :=
  match s.ethDesc e e.head with
  | .error x => (s.ethComplete e e.head 0 3).ethStop e x 3 (e.ring + 16 * (e.head % 2 ^ e.log2n))
  | .ok (va, size, ok) =>
    if !ok || decide (size < 64 ∨ 9216 < size) then s.ethComplete e e.head 0 3
    else
      match s.ethWr e.region va (f.take size) with
      | .error x => (s.ethComplete e e.head 0 2).ethStop e x 2 va
      | .ok t =>
        (t.updEth e.port fun p => { p with rx := sat 32 p.rx }).ethComplete e e.head f.length
          (if size < f.length then 1 else 0)

/-- DROPS of a queue rises. -/
def State.ethDrop (s : State) (e : EthQ) : State :=
  match s.ethRd e.region (e.va + 0x30) 8 with
  | .error x => s.ethStop e x 3 (e.va + 0x30)
  | .ok b =>
    match s.ethWr e.region (e.va + 0x30) (le8 (sat 64 (leNat b))) with
    | .error x => s.ethStop e x 3 (e.va + 0x30)
    | .ok t => t

/-- A frame that finds no descriptor is held under flow control, or dropped. -/
def State.ethHold (s : State) (x : Nat) (e : EthQ) (f : List Byte) : State :=
  let p := s.eth x
  if !p.pfcen.getLsbD e.prio then s.ethDrop e
  else if (p.held.map fun h => h.2.length).foldl (· + ·) 0 + f.length > 262144 then
    s.updEth x fun p => { p with overrun := sat 16 p.overrun }
  else s.updEth x fun p => { p with held := p.held ++ [(e.num, f)], pausing := p.pausing ||| (1#8 <<< e.prio) }

/-- ETH_RX_FRAME (R355): a frame without its FCS, and whether that was good. -/
def execEthRxFrame (x : Nat) (fcsOk : Bool) (f : List Byte) (s : State) : Res :=
  if x ≥ 2 || !(s.eth x).up || decide (f.length < 60 ∨ 9212 < f.length) then .next s
  else if !fcsOk then .next (s.updEth x fun p => { p with fcserr := sat 16 p.fcserr })
  else
    match s.ethSteer x f with
    | none => .next (s.updEth x fun p => { p with noqueue := sat 16 p.noqueue })
    | some e =>
      let r := s.ethReady e
      if r.1 && !((s.eth x).held.any fun h => h.1 == e.num) then .next (r.2.ethWrite e f)
      else .next (r.2.ethHold x e f)

/-- The first held frame whose queue has a descriptor. -/
def State.ethNext (s : State) (x : Nat) : List (Nat × List Byte) → Option (EthQ × List Byte)
  | [] => none
  | h :: r =>
    match s.ethQ x h.1 true with
    | some e => if (s.ethReady e).1 then some (e, h.2) else s.ethNext x r
    | none => s.ethNext x r

/-- Pause for a priority ends once no frame of it is held. -/
def State.unpause (s : State) (x prio : Nat) : State :=
  let left := (s.eth x).held.any fun h => match s.ethQ x h.1 true with
    | some y => y.prio == prio
    | none => false
  if left then s else s.updEth x fun p => { p with pausing := p.pausing &&& ~~~(1#8 <<< prio) }

/-- ETH_HELD_FRAME_DELIVERY (R355). -/
def execEthHeldFrameDelivery (x : Nat) (s : State) : Res :=
  match s.ethNext x (s.eth x).held with
  | none => .next s
  | some (e, f) =>
    let drop := fun (l : List (Nat × List Byte)) =>
      match listFind (fun (h : Nat × List Byte) => h.1 == e.num) l 0 with
      | some k => listDel l k
      | none => l
    .next (((s.updEth x fun p => { p with held := drop p.held }).unpause x e.prio).ethWrite e f)

/-- ETH_PAUSE (R354): a pause counts on a priority whose flow control is enabled. -/
def execEthPause (x prio : Nat) (on : Bool) (s : State) : Res :=
  if prio < 8 && (s.eth x).pfcen.getLsbD prio then
    .next (s.updEth x fun p =>
      { p with paused := if on then p.paused ||| (1#8 <<< prio) else p.paused &&& ~~~(1#8 <<< prio) })
  else .next s

/-- ETH_LINK_CHANGE (R357). -/
def execEthLinkChange (x : Nat) (up : Bool) (s : State) : Res :=
  let p := s.eth x
  if x ≥ 2 || p.up == up || (up && !p.en) then .next s
  else
    .next ((s.updEth x fun p => { p with up := up, paused := if up then p.paused else 0 }).devEvent 0x13 x
      (p.up.toNat + up.toNat * 16) 0)

/-! ## Binding (R353, Table 18-8) -/

/-- The queue is bound to another region. -/
def State.ethInUse (s : State) (port q region : Nat) (rx : Bool) : Bool := (s.ethQ port q rx).any fun e => e.region != region

/-- ENETQ's binding: the reply code, and the state. -/
def State.ethBind (s : State) (port q region va : Nat) (rx : Bool) : Nat × State :=
  let inUse := s.ethInUse port q region rx
  match s.region? region with
  | none => (0x08, s)
  | some r =>
    if r.st ≠ .active then (0x08, s)
    else if va % 64 ≠ 0 ∨ va + 64 > 2 ^ 56 then (0x09, s)
    else if inUse then (0x03, s)
    else
      let d := match s.ethRd region va 64 with
        | .ok b => b
        | .error _ => []
      let w := dwAt d
      if bitsOf (w 1) 9 55 ≠ 0 ∨ bitsOf (w 4) 48 16 ≠ 0 ∨ w 7 ≠ 0 then (0x02, s)
      else
        let e : EthQ :=
          { port := port, rx := rx, num := q, region := region, va := va, ring := bitsOf (w 0) 0 56
            log2n := bitsOf (w 1) 0 5, prio := bitsOf (w 1) 6 3, mac := bitsOf (w 4) 0 48, cq := bitsOf (w 5) 0 56
            head := w 2, stopped := false, closing := false, wire := [] }
        let s' := { s with fab := { s.fab with
          ethq := (s.fab.ethq.filter fun y => !(y.port == port && y.num == q && y.rx == rx)) ++ [e] } }
        match s.ethRd region va 64 with
        | .error x => (0x00, s'.ethStop e x 3 va)
        | .ok _ =>
          if e.log2n < 4 ∨ 14 < e.log2n ∨ bitsOf (w 1) 5 1 ≠ rx.toNat then (0x02, s)
          else if e.ring % 4096 ≠ 0 ∨ e.cq % 4096 ≠ 0 then (0x09, s)
          else (0x00, s')

/-- ENETQ's checks before it unbinds a queue (Table 18-8): a refusal code. -/
def State.ethUnbindCode (s : State) (port q region : Nat) (rx : Bool) : Option Nat :=
  if (s.region? region).all fun r => r.st != .active then some 0x08
  else if s.ethInUse port q region rx then some 0x03
  else none

/-- The frames in progress of a queue that is to be unbound have finished: those on the wire, and those held for a
receive queue (R353), which a stopped queue consumes no more (R356). -/
def State.ethFinished (s : State) (e : EthQ) : Bool :=
  if e.rx then e.stopped || !((s.eth e.port).held.any fun h => h.1 == e.num) else e.wire.isEmpty

/-- A queue is unbound; no frame stays held for its number. -/
def State.ethUnbind (s : State) (e : EthQ) : State :=
  let s := { s with fab := { s.fab with
    ethq := s.fab.ethq.filter fun y => !(y.port == e.port && y.num == e.num && y.rx == e.rx) } }
  if e.rx then (s.updEth e.port fun p => { p with held := p.held.filter fun h => h.1 != e.num }).unpause e.port e.prio
  else s

end Sys2Proof.Machine
end

