-- ==== Sys2Proof/Machine/Boot.lean ====
section
/-! DEFINITION. Boot and firmware: the image and its checks, recovery, attestation, resets and the loss of power
(R322-R324). -/

namespace Sys2Proof.Machine

/-- A slice of a byte string. -/
def bytesAt (b : List Byte) (off n : Nat) : List Byte := (b.drop off).take n

/-- The digest that a firmware image is signed over (R322, step 4). -/
def imageDigest (b : List Byte) : BitVec 384 :=
  Config.sha384 (b.take 0x100 ++ bytesAt b 0x1200 (leNat (bytesAt b 0x10 8)))

/-- The fused minimum SVN (R322). -/
def State.minSvn (s : State) : BitVec 8 := s.dev.svn.getD Config.fusedSvn

/-- The layout of Table 18-6 holds: MAGIC, HVER, the SVN word, BODYLEN of 1 to 8 MiB and the whole body, ENTRY inside it;
what follows the body counts for nothing (assumption 40). -/
def imageShape (b : List Byte) : Bool :=
  let n := leNat (bytesAt b 0x10 8)
  bytesAt b 0 4 == [0x59, 0x4B, 0x46, 0x57] && leNat (bytesAt b 4 4) == 1 && decide (leNat (bytesAt b 8 8) < 2 ^ 9)
    && decide (1048576 ≤ n ∧ n ≤ 8388608 ∧ 0x1200 + n ≤ b.length ∧ leNat (bytesAt b 0x18 8) < n)

/-- Steps 2 to 6 of R322: keys, signatures and SVN. -/
def State.imageOk (s : State) (b : List Byte) : Bool :=
  let ek := bytesAt b 0x40 96
  let lk := bytesAt b 0xA0 56
  imageShape b && Config.sha384 ek == Config.fusedKeyDigest 0 && Config.sha384 lk == Config.fusedKeyDigest 1
    && Config.ecdsaVerify ek (imageDigest b) (bytesAt b 0x100 96)
    && Config.lmsVerify lk (imageDigest b) (bytesAt b 0x200 4096)
    && decide (s.minSvn.toNat ≤ leNat (bytesAt b 8 1))

/-- Steps 7 and 8 of R322: measurements, the raised minimum, and the image runs. -/
def State.startImage (s : State) (b : List Byte) : State :=
  let raise := leNat (bytesAt b 9 1) % 2 == 1
  { s with dev := { s.dev with
    meas0 := Config.romDigest, meas1 := imageDigest b, fwrun := true, recovery := false
    svn := if raise then some (BitVec.ofNat 8 (leNat (bytesAt b 8 1))) else s.dev.svn } }

/-- The image in the package flash. -/
def State.flashBytes (s : State) : List Byte := s.dev.flash.getD Config.flashImage

/-- The boot ROM (R322): the image starts, or recovery begins (R324). -/
def State.boot (s : State) : State :=
  if s.imageOk s.flashBytes then s.startImage s.flashBytes
  else { s with dev := { s.dev with recovery := true, fwrun := false } }

/-- What outlasts a loss of power: fuses, the leaf counter and the flash slot (R322, R323). -/
def DevState.fused (d : DevState) : DevState :=
  { DevState.reset with svn := d.svn, leaf := d.leaf, flash := d.flash }

/-- POWER_ON_RESET (R322): every register has its reset value, and the boot ROM runs. -/
def execPowerOnReset (s : State) : Res :=
  .next { State.reset with dev := s.dev.fused, agenda := s.agenda, draws := s.draws }.boot

/-- FUNCTION_LEVEL_RESET (R322): the boot ROM restarts. FRAME_CLK counts from power-on (Table 10-8), memory keeps what
it holds, and what is broken or measured stays so (notes/assumptions/56.md). -/
def execFunctionLevelReset (s : State) : Res :=
  let fab := { FabState.reset with
    linkLost := s.fab.linkLost, linkHalf := s.fab.linkHalf, linkTrain := s.fab.linkTrain, laser := s.fab.laser
    mons := s.fab.mons, pwr := s.fab.pwr }
  .next { State.reset with
    mem := s.mem, poison := s.poison, dev := s.dev.fused, fab := fab, frameClk := s.frameClk, agenda := s.agenda
    draws := s.draws }.boot

/-- POWER_LOSS (R323, R324): a leaf taken for a signature in progress stays taken, and a flash slot that is being
written is invalid. -/
def execPowerLoss (s : State) : Res :=
  .next { State.reset with
    dev := { s.dev.fused with powered := false, flash := if s.dev.flashBusy then some [] else s.dev.flash }
    agenda := s.agenda, draws := s.draws }

/-! ## Attestation (R323) -/

/-- The report over the host's nonce. -/
def State.attestReport (s : State) : List Byte :=
  Config.report Config.reportVersion (s.dev.data.rdBytes 0 48) Config.serial s.dev.meas0 s.dev.meas1 s.minSvn
    s.frameClk

/-- Report and signatures in MBX_DATA: with the LMS signature of a leaf, or with the ECDSA one alone. -/
def State.attestData (s : State) (leaf : Option Nat) : State :=
  let r := s.attestReport
  let b := r ++ Config.ecdsaSign r ++ (match leaf with
    | some k => Config.lmsSign k r
    | none => [])
  { s with dev := { s.dev with data := s.dev.data.wrBytes 0 (b.take 4096) } }

end Sys2Proof.Machine
end

