-- ==== Sys2Proof/Machine/Branch.lean ====
section
/-! DEFINITION. Branches, calls, jumps and loops (R133, R134). -/

namespace Sys2Proof.Machine

/-- Control goes to index `t` if it is one of 0-8,191; otherwise the illegal-instruction fault, and the core changes
by nothing (R133, R100). INFO0 holds the offending word (Table 18-2; notes/assumptions/9.md). -/
def State.jumpTo (s : State) (t : Int) (f : Core → Core) : Res :=
  if 0 ≤ t ∧ t < 8192 then .next (s.issueAt t.toNat 2 f)
  else .next (s.sFault .illegalInsn (info0 := s.me.sWord))

def execJmp (a : Src) (s : State) : Res := s.jumpTo (s.sval a).toNat id
def execRet (s : State) : Res := s.jumpTo (s.me.reg 31).toNat id
def execBrx (a b : Src) (s : State) : Res :=
  s.jumpTo ((s.me.pc + 1 + Nat.min (s.sval a).toNat (s.sval b).toNat : Nat) : Int) id

def execBr (p : BitVec 3) (n : Bool) (off : BitVec 19) (s : State) : Res :=
  if s.me.pred p.toNat != n then s.jumpTo (s.me.pc + off.toInt) id else .next (s.issueS 1 id)

def execCall (p : BitVec 3) (n : Bool) (off : BitVec 19) (s : State) : Res :=
  if s.me.pred p.toNat != n then s.jumpTo (s.me.pc + off.toInt) fun c => c.setReg 31 (w64 (c.pc + 1))
  else .next (s.issueS 1 id)

/-- LOOP (R134): the branch that acts checks its target before sd changes (R133). -/
def execLoop (d : BitVec 5) (imm : BitVec 14) (s : State) : Res :=
  let v := s.me.reg d.toNat
  if v = 0 then .next (s.issueS 1 id)
  else if v = 1 then .next (s.issueS 1 fun c => c.setReg d.toNat 0)
  else s.jumpTo (s.me.pc + imm.toInt) fun c => c.setReg d.toNat (v - 1)

end Sys2Proof.Machine
end

