-- ==== Sys2Proof/Machine/Float.lean ====
section
/-! DEFINITION. Floating-point instructions of the S slot (R130-R132). -/

namespace Sys2Proof.Machine

/-- The word of lane 0 for one rounding of the CC (R62) and the generator afterwards: only SR advances it. -/
def Core.ccDraw (c : Core) (rm : RMode) : Nat × BitVec 32 :=
  if rm = .sr then ((xorshift c.rngCc).toNat, xorshift c.rngCc) else (0, c.rngCc)

/-- An FP result with its CC flags (R66, R130): `f` gets the lane word. -/
def State.setF (s : State) (ival : Nat) (d : BitVec 5) (rm : RMode) (f : Nat → Word × FFlags) : Res :=
  let w := s.me.ccDraw rm
  let r := f w.1
  .next (s.issueS ival fun c => ({ c with rngCc := w.2 }.post (ccFlags r.2)).setReg d.toNat r.1)

/-- A result in the low bits of sd, the rest 0. -/
def low (r : Nat × FFlags) : Word × FFlags := (w64 r.1, r.2)

def execFadd (d : BitVec 5) (a b : Src) (rm : RMode) (s : State) : Res :=
  s.setF 3 d rm fun w => low (fAdd fp32 rm w (s.sfval a) (s.sfval b))
def execFsub (d : BitVec 5) (a b : Src) (rm : RMode) (s : State) : Res :=
  s.setF 3 d rm fun w => low (fSub fp32 rm w (s.sfval a) (s.sfval b))
def execFmul (d : BitVec 5) (a b : Src) (rm : RMode) (s : State) : Res :=
  s.setF 3 d rm fun w => low (fMul fp32 rm w (s.sfval a) (s.sfval b))
def execFfma (d : BitVec 5) (a b : Src) (rm : RMode) (s : State) : Res :=
  s.setF 3 d rm fun w => low (fFma fp32 rm w (s.sfval a) (s.sfval b) (s.sfval (.reg d)))

/-- FMIN and FMAX: exact, so the rounding never changes the value (R64, R130). -/
def State.minMaxF (s : State) (d : BitVec 5) (wantMax : Bool) (a b : Src) : Res :=
  s.setF 1 d .rne fun _ => low (fp32.finish .rne 0 (fMinMax wantMax (s.sfval a) (s.sfval b)))

def execFmin (d : BitVec 5) (a b : Src) (s : State) : Res := s.minMaxF d false a b
def execFmax (d : BitVec 5) (a b : Src) (s : State) : Res := s.minMaxF d true a b

def execFcvtI64F32 (d : BitVec 5) (a : Src) (rm : RMode) (s : State) : Res :=
  s.setF 1 d rm fun w =>
    let r := toIntSat rm w (-(2 ^ 63)) (2 ^ 63 - 1) 0 (s.sfval a)
    (BitVec.ofInt 64 r.1, r.2)

def execFcvtF32I64 (d : BitVec 5) (a : Src) (rm : RMode) (s : State) : Res :=
  s.setF 1 d rm fun w => low (fp32.round rm w (intVal (s.sval a).toInt))

/-- FCVT from FP32 into a narrower format (R59, R131). -/
def State.narrowF (s : State) (f : FFmt) (d : BitVec 5) (a : Src) (rm : RMode) : Res :=
  s.setF 1 d rm fun w => low (f.round rm w (s.sfval a))

def execFcvtBf16F32 (d : BitVec 5) (a : Src) (rm : RMode) (s : State) : Res := s.narrowF bf16 d a rm
def execFcvtFp16F32 (d : BitVec 5) (a : Src) (rm : RMode) (s : State) : Res := s.narrowF fp16 d a rm
def execFcvtE4m3F32 (d : BitVec 5) (a : Src) (rm : RMode) (s : State) : Res := s.narrowF e4m3 d a rm
def execFcvtE5m2F32 (d : BitVec 5) (a : Src) (rm : RMode) (s : State) : Res := s.narrowF e5m2 d a rm

/-- FCVT into FP32 from the low bits of a: exact (R131). -/
def State.widenF (s : State) (f : FFmt) (d : BitVec 5) (a : Src) : Res :=
  s.setF 1 d .rne fun _ => low (fp32.round .rne 0 (f.decode ((s.sval a).toNat % 2 ^ f.bits)))

def execFcvtF32Bf16 (d : BitVec 5) (a : Src) (s : State) : Res := s.widenF bf16 d a
def execFcvtF32Fp16 (d : BitVec 5) (a : Src) (s : State) : Res := s.widenF fp16 d a
def execFcvtF32E4m3 (d : BitVec 5) (a : Src) (s : State) : Res := s.widenF e4m3 d a
def execFcvtF32E5m2 (d : BitVec 5) (a : Src) (s : State) : Res := s.widenF e5m2 d a

def execFcmp (p : BitVec 3) (a b : Src) (c : FCond) (s : State) : Res :=
  let r := fCompare c (s.sfval a) (s.sfval b)
  .next (s.issueS 1 fun k => (k.post (ccFlags r.2)).setPred p.toNat r.1)

end Sys2Proof.Machine
end

