-- ==== Sys2Proof/Machine/Run.lean ====
section
/-! DEFINITION. The words of slots and code sections as the core and its engines run them (R19, R103). An event is no
word: it has no meaning here. -/

namespace Sys2Proof.Machine

/-- Run one word on the current core. -/
def runWord (i : Instr) (s : State) : Res :=
  match i with
  | .nop => execNop s
  | .meNop => execMeNop s
  | .add x1 x2 x3 => execAdd x1 x2 x3 s
  | .sub x1 x2 x3 => execSub x1 x2 x3 s
  | .mul x1 x2 x3 => execMul x1 x2 x3 s
  | .mulh x1 x2 x3 => execMulh x1 x2 x3 s
  | .mulhU x1 x2 x3 => execMulhU x1 x2 x3 s
  | .div x1 x2 x3 => execDiv x1 x2 x3 s
  | .divU x1 x2 x3 => execDivU x1 x2 x3 s
  | .rem x1 x2 x3 => execRem x1 x2 x3 s
  | .remU x1 x2 x3 => execRemU x1 x2 x3 s
  | .and x1 x2 x3 => execAnd x1 x2 x3 s
  | .or x1 x2 x3 => execOr x1 x2 x3 s
  | .xor x1 x2 x3 => execXor x1 x2 x3 s
  | .andn x1 x2 x3 => execAndn x1 x2 x3 s
  | .shl x1 x2 x3 => execShl x1 x2 x3 s
  | .shr x1 x2 x3 => execShr x1 x2 x3 s
  | .sra x1 x2 x3 => execSra x1 x2 x3 s
  | .rot x1 x2 x3 => execRot x1 x2 x3 s
  | .min x1 x2 x3 => execMin x1 x2 x3 s
  | .minU x1 x2 x3 => execMinU x1 x2 x3 s
  | .max x1 x2 x3 => execMax x1 x2 x3 s
  | .maxU x1 x2 x3 => execMaxU x1 x2 x3 s
  | .clz x1 x2 => execClz x1 x2 s
  | .popc x1 x2 => execPopc x1 x2 s
  | .sel x1 x2 x3 x4 => execSel x1 x2 x3 x4 s
  | .fadd x1 x2 x3 x4 => execFadd x1 x2 x3 x4 s
  | .fsub x1 x2 x3 x4 => execFsub x1 x2 x3 x4 s
  | .fmul x1 x2 x3 x4 => execFmul x1 x2 x3 x4 s
  | .ffma x1 x2 x3 x4 => execFfma x1 x2 x3 x4 s
  | .fmin x1 x2 x3 => execFmin x1 x2 x3 s
  | .fmax x1 x2 x3 => execFmax x1 x2 x3 s
  | .fcvtI64F32 x1 x2 x3 => execFcvtI64F32 x1 x2 x3 s
  | .fcvtF32I64 x1 x2 x3 => execFcvtF32I64 x1 x2 x3 s
  | .fcvtBf16F32 x1 x2 x3 => execFcvtBf16F32 x1 x2 x3 s
  | .fcvtFp16F32 x1 x2 x3 => execFcvtFp16F32 x1 x2 x3 s
  | .fcvtE4m3F32 x1 x2 x3 => execFcvtE4m3F32 x1 x2 x3 s
  | .fcvtE5m2F32 x1 x2 x3 => execFcvtE5m2F32 x1 x2 x3 s
  | .fcvtF32Bf16 x1 x2 => execFcvtF32Bf16 x1 x2 s
  | .fcvtF32Fp16 x1 x2 => execFcvtF32Fp16 x1 x2 s
  | .fcvtF32E4m3 x1 x2 => execFcvtF32E4m3 x1 x2 s
  | .fcvtF32E5m2 x1 x2 => execFcvtF32E5m2 x1 x2 s
  | .cmp x1 x2 x3 x4 => execCmp x1 x2 x3 x4 s
  | .fcmp x1 x2 x3 x4 => execFcmp x1 x2 x3 x4 s
  | .amoAdd x1 x2 x3 x4 x5 => execAmoAdd x1 x2 x3 x4 x5 s
  | .amoMin x1 x2 x3 x4 x5 x6 => execAmoMin x1 x2 x3 x4 x5 x6 s
  | .amoMax x1 x2 x3 x4 x5 x6 => execAmoMax x1 x2 x3 x4 x5 x6 s
  | .amoAnd x1 x2 x3 x4 x5 => execAmoAnd x1 x2 x3 x4 x5 s
  | .amoOr x1 x2 x3 x4 x5 => execAmoOr x1 x2 x3 x4 x5 s
  | .amoXor x1 x2 x3 x4 x5 => execAmoXor x1 x2 x3 x4 x5 s
  | .amoSwap x1 x2 x3 x4 x5 => execAmoSwap x1 x2 x3 x4 x5 s
  | .cas x1 x2 x3 x4 x5 => execCas x1 x2 x3 x4 x5 s
  | .acq x1 => execAcq x1 s
  | .rel x1 => execRel x1 s
  | .fence x1 x2 => execFence x1 x2 s
  | .waita x1 x2 x3 x4 => execWaita x1 x2 x3 x4 s
  | .waitq x1 x2 x3 => execWaitq x1 x2 x3 s
  | .sbarv x1 x2 x3 => execSbarv x1 x2 x3 s
  | .sbwait x1 x2 x3 => execSbwait x1 x2 x3 s
  | .ffill x1 x2 => execFfill x1 x2 s
  | .fget x1 x2 x3 => execFget x1 x2 x3 s
  | .fqpush x1 x2 => execFqpush x1 x2 s
  | .spawn x1 => execSpawn x1 s
  | .join x1 => execJoin x1 s
  | .done => execDone s
  | .yield => execYield s
  | .wdecl x1 x2 x3 => execWdecl x1 x2 x3 s
  | .wclose x1 => execWclose x1 s
  | .wflush x1 => execWflush x1 s
  | .wquery x1 x2 x3 => execWquery x1 x2 x3 s
  | .chtail x1 x2 => execChtail x1 x2 s
  | .jmp x1 => execJmp x1 s
  | .ret => execRet s
  | .brx x1 x2 => execBrx x1 x2 s
  | .trap x1 => execTrap x1 s
  | .eret => execEret s
  | .tlbinv x1 x2 => execTlbinv x1 x2 s
  | .dhop x1 x2 x3 => execDhop x1 x2 x3 s
  | .vdie x1 x2 x3 => execVdie x1 x2 x3 s
  | .trc x1 x2 => execTrc x1 x2 s
  | .srd x1 x2 => execSrd x1 x2 s
  | .swr x1 x2 => execSwr x1 x2 s
  | .waitc x1 x2 => execWaitc x1 x2 s
  | .shlImm x1 x2 x3 => execShlImm x1 x2 x3 s
  | .shrImm x1 x2 x3 => execShrImm x1 x2 x3 s
  | .sraImm x1 x2 x3 => execSraImm x1 x2 x3 s
  | .rotImm x1 x2 x3 => execRotImm x1 x2 x3 s
  | .movi x1 x2 => execMovi x1 x2 s
  | .moviLong x1 x2 => execMoviLong x1 x2 s
  | .addImm x1 x2 x3 => execAddImm x1 x2 x3 s
  | .addLong x1 x2 x3 => execAddLong x1 x2 x3 s
  | .andImm x1 x2 x3 => execAndImm x1 x2 x3 s
  | .andLong x1 x2 x3 => execAndLong x1 x2 x3 s
  | .orImm x1 x2 x3 => execOrImm x1 x2 x3 s
  | .orLong x1 x2 x3 => execOrLong x1 x2 x3 s
  | .xorImm x1 x2 x3 => execXorImm x1 x2 x3 s
  | .xorLong x1 x2 x3 => execXorLong x1 x2 x3 s
  | .lea x1 x2 x3 => execLea x1 x2 x3 s
  | .leaLong x1 x2 x3 => execLeaLong x1 x2 x3 s
  | .bfx x1 x2 x3 x4 => execBfx x1 x2 x3 x4 s
  | .bfi x1 x2 x3 x4 => execBfi x1 x2 x3 x4 s
  | .loop x1 x2 => execLoop x1 x2 s
  | .cmpImm x1 x2 x3 x4 => execCmpImm x1 x2 x3 x4 s
  | .cmpLong x1 x2 x3 x4 => execCmpLong x1 x2 x3 x4 s
  | .ld x1 x2 x3 x4 x5 => execLd x1 x2 x3 x4 x5 s
  | .ldU x1 x2 x3 x4 x5 => execLdU x1 x2 x3 x4 x5 s
  | .st x1 x2 x3 x4 x5 => execSt x1 x2 x3 x4 x5 s
  | .pref x1 x2 x3 x4 => execPref x1 x2 x3 x4 s
  | .br x1 x2 x3 => execBr x1 x2 x3 s
  | .call x1 x2 x3 => execCall x1 x2 x3 s
  | .vadd x1 x2 x3 x4 => execVadd x1 x2 x3 x4 s
  | .vsub x1 x2 x3 x4 => execVsub x1 x2 x3 x4 s
  | .vmul x1 x2 x3 x4 => execVmul x1 x2 x3 x4 s
  | .vfma x1 x2 x3 x4 x5 => execVfma x1 x2 x3 x4 x5 s
  | .vmin x1 x2 x3 x4 => execVmin x1 x2 x3 x4 s
  | .vmax x1 x2 x3 x4 => execVmax x1 x2 x3 x4 s
  | .vand x1 x2 x3 x4 => execVand x1 x2 x3 x4 s
  | .vor x1 x2 x3 x4 => execVor x1 x2 x3 x4 s
  | .vxor x1 x2 x3 x4 => execVxor x1 x2 x3 x4 s
  | .vshl x1 x2 x3 x4 => execVshl x1 x2 x3 x4 s
  | .vshr x1 x2 x3 x4 => execVshr x1 x2 x3 x4 s
  | .vsel x1 x2 x3 x4 x5 => execVsel x1 x2 x3 x4 x5 s
  | .vabs x1 x2 x3 => execVabs x1 x2 x3 s
  | .vneg x1 x2 x3 => execVneg x1 x2 x3 s
  | .vcmp x1 x2 x3 x4 x5 => execVcmp x1 x2 x3 x4 x5 s
  | .vaddVs x1 x2 x3 x4 => execVaddVs x1 x2 x3 x4 s
  | .vsubVs x1 x2 x3 x4 => execVsubVs x1 x2 x3 x4 s
  | .vmulVs x1 x2 x3 x4 => execVmulVs x1 x2 x3 x4 s
  | .vminVs x1 x2 x3 x4 => execVminVs x1 x2 x3 x4 s
  | .vmaxVs x1 x2 x3 x4 => execVmaxVs x1 x2 x3 x4 s
  | .vandVs x1 x2 x3 x4 => execVandVs x1 x2 x3 x4 s
  | .vorVs x1 x2 x3 x4 => execVorVs x1 x2 x3 x4 s
  | .vxorVs x1 x2 x3 x4 => execVxorVs x1 x2 x3 x4 s
  | .vshlVs x1 x2 x3 x4 => execVshlVs x1 x2 x3 x4 s
  | .vshrVs x1 x2 x3 x4 => execVshrVs x1 x2 x3 x4 s
  | .vcmpVs x1 x2 x3 x4 x5 => execVcmpVs x1 x2 x3 x4 x5 s
  | .vcvt x1 x2 x3 => execVcvt x1 x2 x3 s
  | .vquant x1 x2 x3 x4 => execVquant x1 x2 x3 x4 s
  | .vdeq x1 x2 x3 x4 => execVdeq x1 x2 x3 x4 s
  | .vexp2 x1 x2 x3 => execVexp2 x1 x2 x3 s
  | .vlog2 x1 x2 x3 => execVlog2 x1 x2 x3 s
  | .vrcp x1 x2 x3 => execVrcp x1 x2 x3 s
  | .vrsqrt x1 x2 x3 => execVrsqrt x1 x2 x3 s
  | .vtanh x1 x2 x3 => execVtanh x1 x2 x3 s
  | .vrsum x1 x2 x3 => execVrsum x1 x2 x3 s
  | .vrmax x1 x2 x3 => execVrmax x1 x2 x3 s
  | .vamax x1 x2 x3 => execVamax x1 x2 x3 s
  | .vscan x1 x2 x3 => execVscan x1 x2 x3 s
  | .vgather x1 x2 x3 => execVgather x1 x2 x3 s
  | .vscatter x1 x2 x3 => execVscatter x1 x2 x3 s
  | .vcopy x1 x2 x3 => execVcopy x1 x2 x3 s
  | .shset x1 x2 x3 => execShset x1 x2 x3 s
  | .vfill x1 x2 x3 => execVfill x1 x2 x3 s
  | .viota x1 x2 x3 => execViota x1 x2 x3 s
  | .vchain x1 => execVchain x1 s
  | .vbulk x1 x2 x3 x4 => execVbulk x1 x2 x3 x4 s
  | .vrun x1 => execVrun x1 s
  | .vend => execVend s
  | .xcopy x1 x2 => execXcopy x1 x2 s
  | .xtile x1 x2 x3 => execXtile x1 x2 x3 s
  | .xmeta x1 x2 x3 => execXmeta x1 x2 x3 s
  | .xgather x1 x2 x3 => execXgather x1 x2 x3 s
  | .xfill x1 x2 x3 => execXfill x1 x2 x3 s
  | .xred x1 x2 x3 => execXred x1 x2 x3 s
  | .xsig x1 x2 x3 x4 => execXsig x1 x2 x3 x4 s
  | .xbar x1 x2 x3 x4 => execXbar x1 x2 x3 x4 s
  | .xwrap x1 x2 x3 => execXwrap x1 x2 x3 s
  | .xrcnt x1 x2 => execXrcnt x1 x2 s
  | .xjob x1 x2 => execXjob x1 x2 s
  | .xfoot x1 x2 x3 => execXfoot x1 x2 x3 s
  | .xchain x1 x2 x3 x4 => execXchain x1 x2 x3 x4 s
  | .xrun x1 x2 => execXrun x1 x2 s
  | .xend => execXend s
  | .mma x1 x2 x3 x4 x5 => execMma x1 x2 x3 x4 x5 s
  | .mmas x1 x2 x3 x4 x5 => execMmas x1 x2 x3 x4 x5 s
  | .mzero x1 x2 => execMzero x1 x2 s
  | .mnarrow x1 x2 x3 => execMnarrow x1 x2 x3 s
  | .mtrans x1 x2 x3 => execMtrans x1 x2 x3 s
  | .mown x1 x2 => execMown x1 x2 s
  | .mrel x1 x2 => execMrel x1 x2 s
  | .msync x1 => execMsync x1 s
  | .mrun x1 => execMrun x1 s
  | .mend => execMend s
  | .hld x1 x2 x3 x4 => execHld x1 x2 x3 x4 s
  | .hst x1 x2 x3 x4 => execHst x1 x2 x3 x4 s
  | .hxor x1 x2 x3 => execHxor x1 x2 x3 s
  | .hrot x1 x2 x3 => execHrot x1 x2 x3 s
  | .hrotImm x1 x2 x3 => execHrotImm x1 x2 x3 s
  | .hacc x1 x2 x3 => execHacc x1 x2 x3 s
  | .hthr x1 x2 => execHthr x1 x2 s
  | .hclr x1 => execHclr x1 s
  | .hpop x1 x2 x3 => execHpop x1 x2 x3 s
  | .hrnd x1 x2 => execHrnd x1 x2 s
  | .htie x1 => execHtie x1 s
  | .htieSeed x1 => execHtieSeed x1 s
  | .htieZero => execHtieZero s
  | .hclrW4 x1 => execHclrW4 x1 s
  | .hclrW8 x1 => execHclrW8 x1 s
  | .hamw x1 x2 => execHamw x1 x2 s
  | .hamq x1 x2 x3 => execHamq x1 x2 x3 s
  | .hamk x1 x2 => execHamk x1 x2 s
  | .hamd x1 => execHamd x1 s
  | .wmarm x1 => execWmarm x1 s
  | .fstat x1 => execFstat x1 s
  | .rngs x1 x2 => execRngs x1 x2 s
  | .tiesw x1 x2 => execTiesw x1 x2 s
  | .chOrg x1 x2 => execChOrg x1 x2 s
  | .bundleIssue _ => .next s
  | .loadCompletion _ _ => .next s
  | .writePerformed _ _ => .next s
  | .macroEntryCompletion _ _ => .next s
  | .crRelease _ => .next s
  | .crPop _ => .next s
  | .joinApply _ => .next s
  | .deadlinePassed _ => .next s
  | .crAging _ => .next s
  | .preemption _ => .next s
  | .waitLimit _ => .next s
  | .waitReread _ => .next s
  | .freeze _ => .next s
  | .trapDelivery _ => .next s
  | .pageFaultSave _ => .next s
  | .resolve _ => .next s
  | .requestTimeout _ _ => .next s
  | .lateDrop _ _ _ => .next s
  | .err _ _ _ => .next s
  | .delayedFailureReport _ _ => .next s
  | .dataPoison _ _ => .next s
  | .rs _ => .next s
  | .rx _ => .next s
  | .up _ => .next s
  | .gr _ => .next s
  | .gw _ => .next s
  | .em _ => .next s
  | .drop _ => .next s
  | .flush _ => .next s
  | .fwd _ => .next s
  | .fwdInv _ => .next s
  | .inv _ => .next s
  | .recall _ => .next s
  | .data _ => .next s
  | .ack _ => .next s
  | .gone _ => .next s
  | .bi _ => .next s
  | .biD _ => .next s
  | .remoteRead _ _ => .next s
  | .remoteExclusive _ _ => .next s
  | .replicaDrop _ _ _ => .next s
  | .biTimeout _ _ => .next s
  | .lineMigration _ => .next s
  | .sbarHomeStep _ => .next s
  | .jobCard _ _ => .next s
  | .init => .next s
  | .create => .next s
  | .destroy => .next s
  | .qopen => .next s
  | .qclose => .next s
  | .shoot => .next s
  | .memwr => .next s
  | .memrd => .next s
  | .attest => .next s
  | .recChunk => .next s
  | .recBoot => .next s
  | .enetq => .next s
  | .mailboxReply => .next s
  | .qtail _ _ => .next s
  | .fdomf _ _ => .next s
  | .mbxStat _ => .next s
  | .clear => .next s
  | .fabId _ => .next s
  | .tokenMove => .next s
  | .tokenOffer => .next s
  | .tokenAccept => .next s
  | .tokenCommit => .next s
  | .reconf _ => .next s
  | .relock _ => .next s
  | .en _ _ => .next s
  | .pclr _ => .next s
  | .clr _ => .next s
  | .registerWrite _ _ => .next s
  | .launchQueuePoint _ => .next s
  | .undercoatStart _ => .next s
  | .undercoatDiscard _ => .next s
  | .chalkLineWrite _ => .next s
  | .null _ _ => .next s
  | .slots _ _ => .next s
  | .line _ _ => .next s
  | .nak _ _ => .next s
  | .drain _ _ => .next s
  | .ident _ _ => .next s
  | .stripe _ _ => .next s
  | .rd _ => .next s
  | .wr _ => .next s
  | .lwr _ => .next s
  | .cpmsg _ => .next s
  | .ackTimer _ => .next s
  | .linkRetrain _ => .next s
  | .replayBufferDiscard _ => .next s
  | .signalDetect _ _ => .next s
  | .laneLock _ _ => .next s
  | .trainTimeout _ => .next s
  | .darkTimeout _ => .next s
  | .berWindow _ _ _ => .next s
  | .lossOfLight _ _ => .next s
  | .laserFault _ => .next s
  | .equaliserConverged _ _ => .next s
  | .equaliserTimeout _ _ => .next s
  | .lightPresent _ _ => .next s
  | .dack _ _ _ => .next s
  | .routeHoldTimeout _ _ => .next s
  | .globalPortAnnounce _ _ => .next s
  | .holdEnd _ _ => .next s
  | .cpReachabilityCheck => .next s
  | .packageSplit => .next s
  | .ethTxPoll _ _ => .next s
  | .ethRxFrame _ _ _ => .next s
  | .ethHeldFrameDelivery _ => .next s
  | .ethPause _ _ _ => .next s
  | .ethLinkChange _ _ => .next s
  | .powerOnReset => .next s
  | .functionLevelReset => .next s
  | .throttleEvaluation => .next s
  | .droop _ => .next s
  | .tcrit _ => .next s
  | .dieLinkModuleFailure _ => .next s
  | .searchCompletion _ => .next s
  | .wqueryReply _ _ => .next s
  | .ethTxCompletion _ _ => .next s
  | .dackReturn _ _ _ => .next s
  | .monitorSample _ _ _ _ _ => .next s
  | .powerLoss => .next s

end Sys2Proof.Machine
end

