-- ==== Sys2Proof/Machine/Issue.lean ====
section
/-! DEFINITION. The issue of a bundle, and the sequencing of the engines: taking an entry, starting a word, its time,
its effect and the completion of the entry (R18-R27, R96, R97, R122, R197, R200, R234-R242, R247). -/

namespace Sys2Proof.Machine

/-! ## The time that an engine's word takes (Table 11-3) -/

/-- A shape register of a core. -/
def Core.shape (c : Core) (r : BitVec 4) : Shape := ⟨r.toNat, vget c.sh 0 r.toNat⟩

/-- An element-wise step: 64-bit types halve the rate. -/
def Core.lanesTime (c : Core) (d : BitVec 4) (l : List (BitVec 4)) : Nat :=
  6 + cdiv (c.shape d).count (if (d :: l).any fun r => (c.shape r).width == 64 then 16 else 32)

/-- The nominal path of an element of a gather or scatter: own scratchpad, or an L2 hit (Table 11-2). -/
def pathTime (sp : Bool) : Nat := if sp then 6 else 28

/-- Cycles of a VE word. -/
def Core.veTime (c : Core) (i : Instr) : Nat :=
  let n := fun (r : BitVec 4) => (c.shape r).count
  match i with
  | .shset .. => 6
  | .vexp2 d _ _ | .vlog2 d _ _ | .vrcp d _ _ | .vrsqrt d _ _ | .vtanh d _ _ | .vscan d _ _ => 6 + 2 * cdiv (n d) 32
  | .vquant d _ _ _ | .vdeq d _ _ _ => 6 + 2 * cdiv (n d) 32
  | .vrsum _ a _ | .vrmax _ a _ | .vamax _ a _ => 11 + cdiv (n a) 32
  | .vgather d a _ => 6 + cdiv (n d) 8 + pathTime ((c.shape a).width == 32)
  | .vscatter a _ _ => 6 + cdiv (n a) 8 + pathTime ((c.shape a).width == 32)
  | .vbulk d _ _ _ => 80 + cdiv (n d) 64
  | .vcopy d a _ => c.lanesTime d [a]
  | .vchain k =>
    match (c.chainWords (k.toNat + 1)).bind fun is => (is.head?).bind linkOf with
    | some l => 6 + (k.toNat + 1) * cdiv (n l.d) 32
    | none => 1
  | i =>
    match linkOf i with
    | some l => c.lanesTime l.d l.srcs
    | none => 1

/-- Cycles of an MMA or MMAS with the format word that it pops, from its saved point (R284). -/
def State.mmaTime (s : State) (sparse : Bool) (a b : BitVec 4) (m : BitVec 2) (q : BitVec 7) : Nat :=
  let t := s.mmaTimes sparse a b m q
  t.2.2 + t.1 * t.2.1

/-- Cycles of an ME word. -/
def State.meTime (s : State) (i : Instr) : Nat :=
  match i with
  | .mma _ a b m q => s.mmaTime false a b m q
  | .mmas _ a b m q => s.mmaTime true a b m q
  | .mzero .. => 2
  | .mnarrow .. => 20
  | .mtrans _ a _ => 4 + cdiv (s.me.tdesc (s.me.effA a)).elemBytes 512
  | .mown .. => 200
  | .mrel .. => 40
  | _ => 1

/-- Cycles of an HU word up to its effect; a search and a write of the associative memory are sent at once, and S0 takes
its own time (R239, R278). HPOP's register is free in the ninth cycle after the issue. -/
def huTime (i : Instr) : Nat :=
  match i with
  | .hld _ _ _ sp | .hst _ _ _ sp => if sp then 10 else 36
  | .hamw .. | .hamd .. | .hamq .. | .hamk .. => 1
  | _ => 8

/-- The nominal path of an atomic update: own scratchpad, or an L2 hit (Table 11-2). -/
def atomicTime (sp : Bool) : Nat := if sp then 6 else 36

/-- Channels of the copy engine of channel `k` with a step in progress, `k` among them: they share its 64 bytes per cycle
(Table 11-3; by the number at the step's start: DEDUCED, assumption 62). -/
def Core.sharers (c : Core) (k : BitVec 3) : Nat :=
  1 + ((List.range 4).filter fun j =>
    let x := k.toNat / 4 * 4 + j
    x != k.toNat && (vget c.ch .zero x).eng.due.isSome).length

/-- Cycles of a copy-class step: `src` and `dst` say whether the source and the destination are the core's own (R238). -/
def copyTime (src dst : Bool) (share : Nat) (o : XOp) : Nat :=
  let data := fun (n : Nat) => cdiv (Nat.min n 4096 * share) 64
  match o with
  | .copy a | .sparse a _ | .fill a _ => 12 + pathTime src + data a.toNat
  | .tile a b => 12 + pathTime src + data (a.toNat * b.toNat)
  | .gather a b =>
    let m := Nat.min (bitsOf b.toNat 0 10) 512
    12 + pathTime src + data (8 * m) + pathTime (bitsOf b.toNat 10 1 == 0 && src) + data (m * Nat.min a.toNat 8)
  | .red a _ => 12 + pathTime src + data a.toNat + atomicTime dst

/-- Cycles of a copy-class step of channel `k` with the spaces of its SRC and DST. -/
def State.copyTimeOf (s : State) (k : BitVec 3) (src dst : Word) (o : XOp) : Nat :=
  copyTime (fld src 56 3 != 0) (fld dst 56 3 != 0) (s.me.sharers k) o

/-- Cycles of a transfer word with its captured values (R238). -/
def State.xTime (s : State) (k : BitVec 3) (i : Instr) : Nat :=
  let v := fun (a : Src) => s.ev (.ch k) a
  let h := (s.xc k).active
  let cp := s.copyTimeOf k h.src h.dst
  match i with
  | .xcopy _ a => cp (.copy (v a))
  | .xfill _ a b => cp (.fill (v a) (v b))
  | .xred _ a b => cp (.red (v a) (v b))
  | .xmeta _ a b => cp (.sparse (v a) (v b))
  | .xtile _ a b => cp (.tile (v a) (v b))
  | .xgather _ a b => cp (.gather (v a) (v b))
  | .xsig _ a _ _ => 4 + pathTime (fld (v a) 63 1 == 1)
  | .xbar .. => 4 + atomicTime false
  | .xwrap .. | .xrcnt .. | .xfoot .. => 4
  | _ => 1

/-- Cycles that the step at hand of a card adds: its read, its copy and its post (Table 11-3); what it waits for comes on
top. -/
def State.cardTime (s : State) (k : BitVec 3) (c : ChainSt) : Nat :=
  match c.step with
  | .read => pathTime false
  | .copy => (c.op.map fun o => s.copyTimeOf k (w64 (c.dw 0x10)) (w64 (c.dw 0x18)) o).getD 0
  | .post => if c.bit 35 then atomicTime (wordAddr (w64 (c.dw 0x40)) 8).1 else 0
  | _ => 0

/-- Cycles of a word of an engine of the current core. -/
def State.unitTime (s : State) (u : Unit8) (i : Instr) : Nat :=
  match u with
  | .ve => s.me.veTime i
  | .me => s.meTime i
  | .hu => huTime i
  | .ch k => s.xTime k i

/-! ## Completion of an entry (R27, R66, R197, R200) -/

/-- The entry of an ENTRY packet: a run word's. -/
def runEntry (w : Nat) : Nat := if isRunWord w then bitsOf w 0 12 else 0

/-- The counters after an entry of an engine (Table 1-3). -/
def Core.entryDone (c : Core) (u : Unit8) (w : Nat) : Core :=
  match u with
  | .ve | .me => { c with tl := c.tl - 1 }
  | .ch _ => { c with cp := c.cp - 1 }
  | .hu =>
    match decodeIn .h w with
    | .ok (.hld ..) => { c with ld := c.ld - 1 }
    | .ok (.hst ..) | .ok (.hamw ..) => { c with st := c.st - 1 }
    | _ => c

/-- What the channel keeps after an entry. -/
def Core.chanDone (c : Core) (u : Unit8) (w : Nat) : Core :=
  match u with
  | .ch k =>
    let h := vget c.ch .zero k.toNat
    let chain := match decodeX w with
      | .ok (.xchain ..) => false
      | _ => h.chainOut
    { c with
      ch := vset c.ch k.toNat { h with chainOut := chain, tracked := false, copied := false }
      tracker := if h.tracked then dropTracked k.toNat c.tracker else c.tracker }
  | _ => c

/-- The engine takes no entry now. -/
def Engine.idle (e : Engine) : Engine := { Engine.empty with queue := e.queue, ready := e.ready }

/-- A core after the completion of an entry of one of its engines. -/
def Core.complete (c : Core) (u : Unit8) (x : Entry) : Core :=
  let e := c.eng u
  (((c.entryDone u x.word).chanDone u x.word).post e.flags).setEng u e.idle

/-- MACRO_ENTRY_COMPLETION (R27): cp, tl, ld or st falls, the flags are posted, and the tracker lets the entry go. -/
def execMacroEntryCompletion (n : Nat) (u : Unit8) (s : State) : Res :=
  let c := s.core n
  let e := c.eng u
  match e.cur with
  | none => .next s
  | some x =>
    if e.finished && (c.status == .running || c.status == .freezing) then
      let t := s.updCore n fun c => c.complete u x
      .next (t.chalkEntry n (unitObs u) true (isRunWord x.word) (runEntry x.word))
    else .next s

/-! ## One move of an engine -/

/-- A word that ends a body takes no time of its own (R25, R238). -/
def isEnd : Instr → Bool
  | .vend | .xend | .mend => true
  | _ => false

/-- Run the word at hand of an engine; a NOP of a code section does nothing (R96). -/
def runUnit (u : Unit8) (i : Instr) (s : State) : Res :=
  match i with
  | .nop => .next (s.unitDone u)
  | i => runWord i s

/-- A word that does not decode, met by an engine (R97). -/
def State.unitBad (s : State) (u : Unit8) (e : DecErr) : State :=
  let w := s.me.unitWord u
  match e with
  | .insn => s.unitIllegal u w
  | .operand => s.unitFault u .illegalOperand (info0 := w64 w) (slot := unitSlot u)

/-- After a word: a finished entry completes; the next word starts a cycle later. -/
def State.unitAfter (s : State) (u : Unit8) : Res :=
  let e := s.eng u
  let s := s.updEng s.cur u fun e => { e with due := none, ready := s.me.sched + 1 }
  if e.finished then execMacroEntryCompletion s.cur u s else .next s

/-- The end of a body that follows a word takes effect with it. -/
def State.unitEnd (s : State) (u : Unit8) : Res :=
  let e := s.eng u
  if e.inProg && e.upc < noUpc && e.cur.isSome && !e.finished && s.me.live s.frameClk then
    match s.me.unitInstr u with
    | .ok i => if isEnd i then andThen (runUnit u i s) fun t => t.unitAfter u else s.unitAfter u
    | .error _ => s.unitAfter u
  else s.unitAfter u

/-- The step at hand of a chain takes its time from now on. -/
def State.cardStart (s : State) (k : BitVec 3) (x : ChainSt) : State :=
  s.updEng s.cur (.ch k) fun e => { e with due := some (s.me.sched + s.cardTime k x) }

/-- The word in progress takes effect, unless it waits. -/
def State.unitRun (s : State) (u : Unit8) (i : Instr) : Res :=
  andThen (runUnit u i s) fun t =>
    if t.me.status = .idle ∨ (t.eng u).cur.isNone then .next t
    else
      match u, t.me.chainOf u with
      | .ch k, some x => .next (t.cardStart k x)
      | _, _ => if (t.eng u).due.isSome then .next t else t.unitEnd u

/-- A step that takes its format word takes it when it starts (R152). -/
def State.holdFmt (s : State) (i : Instr) : State :=
  match i with
  | .mma .. | .mmas .. | .mnarrow .. =>
    match s.me.fmtHeld, s.me.fmtq with
    | none, w :: r => s.upd fun c => { c with fmtHeld := some w, fmtq := r }
    | _, _ => s
  | _ => s

/-- XJOB and XCHAIN start with their first card, which takes its place in the tracker at once (R202). -/
def startsCards : Instr → Bool
  | .xjob .. | .xchain .. => true
  | _ => false

/-- A copy-class word is emitted when it starts (R272). -/
def State.emitOf (s : State) (u : Unit8) (i : Instr) : State :=
  match u, i with
  | .ch k, .xcopy .. | .ch k, .xtile .. | .ch k, .xmeta .. | .ch k, .xgather .. | .ch k, .xfill .. | .ch k, .xred .. =>
    s.updX k Channel.emit
  | _, _ => s

/-- The word at the micro-PC, or the entry's own, starts: it faults at once, or takes its time, at the end of which it
takes effect: of a word of one cycle after every start of that cycle (R247). A micro-PC past the section's last word is
an illegal instruction (R22). -/
def State.unitWordStart (s : State) (u : Unit8) : Res :=
  if (s.eng u).upc = pastEnd then .next (s.unitIllegal u 4096)
  else
    match s.me.unitInstr u with
    | .error e => .next (s.unitBad u e)
    | .ok i =>
      if isEnd i then andThen (runUnit u i s) fun t => t.unitAfter u
      else
        let s := s.emitOf u i
        match s.probe (runUnit u i) with
        | some t => .next t
        | none =>
          let t := (s.holdFmt i).updEng s.cur u fun e => { e with due := some (s.me.sched + s.unitTime u i - 1) }
          if startsCards i then t.unitRun u i else .next t

/-- The channel's entry at the head of its queue needs room in the tracker (R197). -/
def Core.trackHeld (c : Core) (u : Unit8) (x : Entry) : Bool :=
  match u with
  | .ch k =>
    let h := vget c.ch .zero k.toNat
    let own := match decodeX x.word with
      | .ok (.xfoot ..) | .ok (.xjob ..) | .ok (.xchain ..) => false
      | _ => true
    own && !h.foots.isEmpty && decide (32 ≤ c.tracker.length)
  | _ => false

/-- The footprints of an entry that starts enter the tracker; XFOOT, XJOB and XCHAIN leave them (R197). -/
def Core.track (c : Core) (k : Nat) (x : Entry) : Core :=
  let h := vget c.ch .zero k
  let own := match decodeX x.word with
    | .ok (.xfoot ..) | .ok (.xjob ..) | .ok (.xchain ..) => false
    | _ => true
  if own && !h.foots.isEmpty then
    { c with
      tracker := (c.register k h.foots false).tracker
      ch := vset c.ch k { h with foots := [], tracked := true } }
  else c

/-- The shadow registers become the active ones (R25, R174, R186). -/
def Core.activate (c : Core) (u : Unit8) : Core :=
  match u with
  | .me => { c with meActive := c.meShadow }
  | .ch k =>
    let h := vget c.ch .zero k.toNat
    { c with ch := vset c.ch k.toNat { h with active := h.shadow, copied := false } }
  | _ => c

/-- The engine takes the head of its queue (R22, R25). -/
def Core.takeHead (c : Core) (u : Unit8) (x : Entry) (r : List Entry) : Core :=
  let c := c.setEng u { Engine.empty with queue := r, cur := some x, upc := noUpc, ready := (c.eng u).ready }
  let c := c.activate u
  match u with
  | .ch k => c.track k.toNat x
  | _ => c

/-- Begin or go on with the entry that the engine has taken: a run word enters its program (R22). -/
def State.unitStart (s : State) (u : Unit8) : Res :=
  match (s.eng u).cur with
  | none => .next s
  | some x =>
    if isRunWord x.word && !(s.eng u).inProg then
      match s.me.unitInstr u with
      | .error e => .next (s.unitBad u e)
      | .ok i => andThen (runUnit u i s) fun t => t.unitWordStart u
    else s.unitWordStart u

/-- The engine is free: it takes an entry, if one waits, and starts it. An ME entry starts once the one before it has
completed, on whatever arrays: of steps on different arrays, which only MSYNC orders (R177), the model performs the
earlier first (DESIGN CHOICE, assumption 65). -/
def State.unitTake (s : State) (u : Unit8) : Res :=
  match (s.eng u).queue with
  | [] => .next s
  | x :: r =>
    if s.me.trackHeld u x then .next s
    else
      let t := s.upd fun c => c.takeHead u x r
      (t.chalkEntry t.cur (unitObs u) false (isRunWord x.word) (runEntry x.word)).unitStart u

/-- The current core and channel for a move of an engine. -/
def State.onUnit (s : State) (n : Nat) (u : Unit8) : State :=
  match u with
  | .ch k => { s with cur := n, chan := k }
  | _ => { s with cur := n }

/-- A step of a chain, and the completion of its entry when it was the last. A step that waits is tried again. -/
def State.chainMove (s : State) (k : BitVec 3) (x : ChainSt) : Res :=
  andThen (s.cardStep k x) fun t =>
    if t.me.status = .idle ∨ (t.eng (.ch k)).cur.isNone then .next t
    else
      match t.me.chainOf (.ch k) with
      | none => t.unitEnd (.ch k)
      | some y =>
        if y.step != x.step then .next (t.cardStart k y)
        else if t.me.call != s.me.call then .next t
        else .next (t.updEng t.cur (.ch k) fun e => { e with due := some (e.due.getD t.me.sched) })

/-- The walk of a channel over cards at its next move: while a freeze is pending no card starts (R368). -/
def State.chainTry (s : State) (k : BitVec 3) (x : ChainSt) : Res :=
  if x.step = .done ∧ !s.me.live s.frameClk then .next s else s.chainMove k x

/-- One move of an engine of core `n`: a word's effect when its time has come, a step of its chain, or a start. -/
def State.unitMove (s : State) (n : Nat) (u : Unit8) : Res :=
  let s := s.onUnit n u
  let c := s.me
  let e := s.eng u
  if c.status = .idle ∨ c.status = .frozen then .next s
  else if e.finished then execMacroEntryCompletion n u s
  else
    match e.due with
    | some d =>
      if c.sched < d then .next s
      else
        match u, c.chainOf u with
        | .ch k, some x => s.chainTry k x
        | _, _ =>
          match c.unitInstr u with
          | .ok i => s.unitRun u i
          | .error x => .next (s.unitBad u x)
    | none =>
      if !c.live s.frameClk ∨ c.sched < e.ready then .next s
      else
        match u, c.chainOf u with
        | .ch k, some x => s.chainMove k x
        | _, _ => if e.cur.isSome then s.unitStart u else s.unitTake u

/-! ## The issue of a bundle (R20) -/

/-- The instructions of a bundle, and its words. -/
structure Bundle where
  s : Instr
  v : Instr
  x : Instr
  h : Instr
  wv : Nat
  wx : Nat
  wh : Nat
  long : Bool
  deriving DecidableEq, Repr

/-- Decode a bundle: the first word that does not decode, with its slot and word (R97). -/
def decodeBundle (ws wv wx wh : Nat) : Except (DecErr × Nat × Nat) Bundle :=
  let long := isLongOp (bitsOf ws 26 6)
  match if long then decodeLong ws wh else decodeIn .s ws with
  | .error e => .error (e, 0, ws)
  | .ok i =>
    match decodeIn .v wv with
    | .error e => .error (e, 1, wv)
    | .ok v =>
      match decodeIn .x wx with
      | .error e => .error (e, 2, wx)
      | .ok x =>
        match if long then Except.ok Instr.nop else decodeIn .h wh with
        | .error e => .error (e, 3, wh)
        | .ok h => .ok { s := i, v := v, x := x, h := h, wv := wv, wx := wx, wh := if long then 0 else wh, long := long }

/-- Word `k` of the bundle at the PC (R19). -/
def Core.bundleWord (c : Core) (k : Nat) : Nat := c.imem.rdN (16 * c.pc + 4 * k) 4

def Core.bundle (c : Core) : Except (DecErr × Nat × Nat) Bundle :=
  decodeBundle (c.bundleWord 0) (c.bundleWord 1) (c.bundleWord 2) (c.bundleWord 3)

/-- The observer that an X word goes to (R19). -/
def xUnit (w : Nat) : Unit8 := if bitsOf w 31 1 = 1 then .me else .ch (BitVec.ofNat 3 (bitsOf w 23 3))

/-- The words that go to engines, with their engines: NOPs go nowhere (R19, R96). -/
def Bundle.sends (b : Bundle) : List (Unit8 × Nat) :=
  (if b.wv = 0 then [] else [(.ve, b.wv)]) ++ (if b.wx = 0 then [] else [(xUnit b.wx, b.wx)])
    ++ (if b.wh = 0 then [] else [(.hu, b.wh)])

/-- Counter increments of the V, X and H words: ld, st, cp, tl (Table 1-3). -/
def Bundle.counts (b : Bundle) : Nat × Nat × Nat × Nat :=
  let l := match b.h with
    | .hld .. => (1, 0)
    | .hst .. | .hamw .. => (0, 1)
    | _ => (0, 0)
  let toMe := b.wx != 0 && bitsOf b.wx 31 1 == 1
  let toCh := b.wx != 0 && bitsOf b.wx 31 1 == 0
  (l.1, l.2, toCh.toNat, (b.wv != 0).toNat + toMe.toNat)

/-- A counter of the core would pass 255 (R27). -/
def Core.countFull (c : Core) (b : Bundle) : Bool :=
  let k := b.counts
  decide ((0 < k.1 ∧ 255 < c.ld + k.1) ∨ (0 < k.2.1 ∧ 255 < c.st + k.2.1) ∨ (0 < k.2.2.1 ∧ 255 < c.cp + k.2.2.1)
    ∨ (0 < k.2.2.2 ∧ 255 < c.tl + k.2.2.2))

/-- The condition of R20 and R200 that holds a bundle, apart from what its S word waits for. -/
def Core.held (c : Core) (b : Bundle) : Option StallCause :=
  if b.sends.any fun x => 4 ≤ (c.eng x.1).queue.length then some .queueFull
  else if (b.s.names ++ b.v.names ++ b.x.names ++ b.h.names).any c.isPend then some .pending
  else
    match b.x with
    | .xchain k _ _ _ => if (vget c.ch .zero k.toNat).chainOut then some .wait else if c.countFull b then some .waitc
      else none
    | _ => if c.countFull b then some .waitc else none

/-- The address check of an HLD or HST before issue (R122, R208): the fault, the address and whether it writes. -/
def Core.hCheck (c : Core) (i : Instr) : Option (Cause × Nat × Bool) :=
  let ea := fun (base : BitVec 5) (off : BitVec 13) => (c.reg base.toNat + sx off).toNat
  match i with
  | .hld _ base off sp => (addrFault sp (ea base off) 512 512).map fun x => (x, ea base off, false)
  | .hst _ base off sp => (addrFault sp (ea base off) 512 512).map fun x => (x, ea base off, true)
  | _ => none

/-- A fault of a slot's word before issue; an undercoat launch is discarded by it (R122, R301). -/
def State.slotFault (s : State) (cause : Cause) (slot : Nat) (addr info0 : Word) (wr : Bool) : State :=
  match s.me.uc with
  | some id => s.discardUc id 5
  | none => s.ccFault cause (addr := addr) (info0 := info0) (slot := slot) (wr := wr)

/-- The code of a stall cause (Table 11-7). -/
def StallCause.code : StallCause → Nat
  | .none => 0
  | .queueFull => 1
  | .pending => 2
  | .waitc => 3
  | .wait => 4
  | .order => 5
  | .sysReg => 6
  | .interval => 7

/-- The BUNDLE packet (Table 11-7). -/
def State.chalkBundle (s : State) (b : Bundle) : State :=
  let c := s.me
  let slots := (b.s != .nop).toNat + 2 * (b.wv != 0).toNat + 4 * (b.wx != 0).toNat + 8 * (b.wh != 0).toNat
  s.chalkT s.cur 3 (c.pc * 2 ^ 20 + slots * 2 ^ 33 + b.long.toNat * 2 ^ 37 + c.stall.code * 2 ^ 38)

/-- An entry joins an engine's queue (R21, R238). -/
def Core.enq (c : Core) (regs : Vector Word 32) (ent : Nat) (x : Unit8 × Nat) : Core :=
  let e := c.eng x.1
  let free := e.cur.isNone && e.queue.isEmpty
  c.setEng x.1
    { e with queue := e.queue ++ [{ word := x.2, regs := regs, ent := ent }]
             ready := if free then Nat.max e.ready (c.sched + 1) else e.ready }

/-- The H word names the register that the S word's access is still to write (R241). -/
def markH (d : Nat) (l : List Access) : List Access :=
  l.map fun a => if a.kind.dest = some d then { a with hWins := true } else a

/-- An XCHAIN sets TAIL at issue (R200). -/
def Core.chainIssue (c : Core) (regs : Vector Word 32) (x : Instr) : Core :=
  match x with
  | .xchain k a _ _ =>
    let h := vget c.ch .zero k.toNat
    { c with ch := vset c.ch k.toNat { h with chainOut := true, tail := (a.ival (regOf regs)).setWidth 56 } }
  | _ => c

/-- The V, X and H words go out with the registers as they stood before the bundle (R21, R27). -/
def Core.sendWords (c : Core) (b : Bundle) (regs : Vector Word 32) (ent : Nat) : Core :=
  let k := b.counts
  let c := (b.sends.foldl (fun c x => c.enq regs ent x) c).chainIssue regs b.x
  let c := { c with ld := c.ld + k.1, st := c.st + k.2.1, cp := c.cp + k.2.2.1, tl := c.tl + k.2.2.2, issued := false, tried := true }
  match huDest b.wh with
  | some d => ({ c with inflight := markH d c.inflight }).setPend d true
  | none => c

/-- The BUNDLE of a DONE or ERET stands before what follows it (R247): a DONE's in the try that emits CREND, which waits
for no packet yet, an ERET's as it leaves the core (DEDUCED, assumption 72). The other words of its bundle go nowhere. -/
def leftCore (i : Instr) (c t : Core) : Bool :=
  match i with
  | .done => t.trace.ended && !c.trace.ended
  | .eret => t.status == .idle || t.trap != c.trap
  | _ => false

/-- The S word of a decoded bundle runs, and with it the bundle (R20). Where the S word writes a shadow register and the
bundle has the run word that activates it, the rules give no order: the S word is first (DESIGN CHOICE, assumption 65). -/
def State.issueBundle (s : State) (b : Bundle) : Res :=
  let s := s.upd fun c => { c with issued := false }
  let c := s.me
  andThen (runWord b.s s) fun t =>
    let hf := c.hCheck b.h
    let failed := !t.me.issued && (t.me.status != c.status || t.me.uc != c.uc)
    match if failed then none else hf with
    | some (x, a, wr) => .next (s.slotFault x 3 (w64 a) 0 wr)
    | none =>
      if t.me.issued then
        if t.me.countFull b then .next (s.stallS .waitc)
        else
          andThen (runWord b.s (s.chalkBundle b)) fun t => .next (t.upd fun x => x.sendWords b c.regs c.pc)
      else if leftCore b.s c t.me then runWord b.s (s.chalkBundle b)
      else .next t

/-- BUNDLE_ISSUE (R18-R20, R96, R97): core `n` issues its next bundle, or finds it held or illegal. While a freeze waits
for the reply to the bundle's request, the request goes on (R368). -/
def execBundleIssue (n : Nat) (s : State) : Res :=
  let s := { s with cur := n }
  let c := s.me
  if c.status = .freezing ∧ c.syncUnstop ∧ !c.tried then
    match c.bundle with
    | .ok b => runWord b.s s
    | .error _ => .next s
  else if c.status ≠ .running ∨ c.tried then .next s
  else if c.loading ≠ .done then .next (s.tryLoad n)
  else if c.sched < c.nextIssue then .next (s.stallS .interval)
  else if 8192 ≤ c.pc then
    .next ((s.upd fun c => { c with pc := 8191 }).slotFault .illegalInsn 0 0 8192 false)
  else
    match c.bundle with
    | .error (.insn, k, w) => .next (s.slotFault .illegalInsn k 0 (w64 w) false)
    | .error (.operand, k, w) => .next (s.slotFault .illegalOperand k 0 (w64 w) false)
    | .ok b =>
      match c.held b with
      | some why => .next (s.stallS why)
      | none => s.issueBundle b

end Sys2Proof.Machine
end

