-- ==== Sys2Proof/Machine/Mailbox.lean ====
section
/-! DEFINITION. The mailbox: its commands, the regions that CREATE and DESTROY make and end, launch queues, shoot-down,
and the host's accesses to memory (R285, R289-R291, R316, R322-R326, R353). -/

namespace Sys2Proof.Machine

/-! ## The protocol (R326) -/

/-- The host is cut off from the CP that carries on (R348), or from every CP: PCIe is on N1 (R2, R3). -/
def State.hostCut (s : State) : Bool :=
  (s.fab.split && s.fab.token != some 1) || !s.dieReach (s.fab.token.getD 0) 12

/-- A command finishes: CODE, BUSY and vector 0. -/
def State.mbxDone (s : State) (code : Nat) : State :=
  { s with
    dev := { s.dev with code := BitVec.ofNat 8 code, busy := false }
    cp := { s.cp with cmd := none } }.msix 0

def State.arg (s : State) (k : Nat) : Nat := (vget s.dev.arg 0 k).toNat

/-- The range that MEMRD names lies in the DEVSTAT image, 8 bytes that stand where the spec does not say (assumption
40). -/
def State.statRange (s : State) : Bool :=
  decide (1 ≤ s.arg 1 ∧ Config.devstatImage ≤ s.arg 0 ∧ s.arg 0 + s.arg 1 ≤ Config.devstatImage + 8)

/-- DEVSTAT (Table 18-7). -/
def State.devstat (s : State) : Word :=
  let d := s.dev
  w64 (d.fwrun.toNat + 2 * d.recovery.toNat + 4 * d.fatal.toNat + 8 * d.lmsx.toNat + 2 ^ 8 * s.minSvn.toNat)

/-- The commands that are accepted in the device's present state (R320, R324, R326). -/
def State.mbxAllows (s : State) (c : MbxCmd) : Bool :=
  if s.dev.fatal then c == .memrd
  else if s.dev.recovery then c == .recChunk || c == .recBoot || c == .attest || (c == .memrd && s.statRange)
  else if !s.dev.fwrun then false
  else
    match c with
    | .init | .attest => true
    | .recChunk | .recBoot => false
    | _ => s.cp.inited

/-- A command starts: ignored with OVR while BUSY, BAD_CMD when it is not accepted; else `f`. -/
def State.mbxStart (s : State) (c : MbxCmd) (f : State → State) : Res :=
  if s.hostCut || !s.dev.powered then .next s
  else if s.dev.busy then .next { s with dev := { s.dev with ovr := true } }
  else if s.mbxAllows c then .next (f { s with dev := { s.dev with busy := true }, cp := { s.cp with cmd := some c } })
  else .next (s.mbxDone 0x01)

/-- A physical range that lies in present memory of this device outside the firmware-reserved offsets (R315). -/
def State.ownMem (s : State) (pa n : Nat) : Bool := paUsable pa n && paDev pa == s.fab.fabId

/-! ## INIT -/

def State.initCode (s : State) : Nat :=
  let pa := s.arg 0
  let w := fun k => s.paNat (pa + 8 * k) 8
  if pa = 0 ∨ pa % 64 ≠ 0 ∨ !s.ownMem pa 64 then 0x09
  else if bitsOf (w 0) 56 8 ≠ 0 ∨ bitsOf (w 1) 5 59 ≠ 0 ∨ w 5 ≠ 0 ∨ w 6 ≠ 0 ∨ w 7 ≠ 0 then 0x02
  else if w 0 % 4096 ≠ 0 ∨ w 1 < 4 ∨ 16 < w 1 ∨ !s.ownMem (w 0) (32 * 2 ^ w 1) then 0x09
  else 0x00

/-- INIT (R326): the descriptor of the page-fault queue is read first, and its reply waits for that. -/
def State.initTry (s : State) : State :=
  if s.cp.inited then s.mbxDone 0x03
  else
    s.cpAwait [(s.arg 0, 64)] fun s =>
      let c := s.initCode
      if c = 0 then { s with cp := { s.cp with inited := true, pfq := s.arg 0 } }.mbxDone 0 else s.mbxDone c

def execInit (s : State) : Res := s.mbxStart .init State.initTry

/-! ## CREATE (R289-R291) -/

/-- A reserved bit of an RCB is set (Table 17-4). -/
def rcbReserved (w : Nat → Nat) : Bool :=
  decide (bitsOf (w 0) 47 17 ≠ 0 ∨ bitsOf (w 1) 15 49 ≠ 0 ∨ bitsOf (w 2) 7 1 ≠ 0 ∨ bitsOf (w 2) 15 1 ≠ 0 ∨
    bitsOf (w 2) 22 2 ≠ 0 ∨ bitsOf (w 2) 34 6 ≠ 0 ∨ bitsOf (w 2) 45 3 ≠ 0 ∨ bitsOf (w 3) 19 13 ≠ 0 ∨
    bitsOf (w 3) 48 16 ≠ 0 ∨ bitsOf (w 5) 24 40 ≠ 0 ∨ bitsOf (w 11) 16 48 ≠ 0) ||
  ([6, 8, 9, 10, 12, 13, 14].any fun k => bitsOf (w k) 56 8 != 0) || (List.range 9).any fun k => w (15 + k) != 0

/-- A field outside its range, or a root without every OVR bit. -/
def rcbRange (w : Nat → Nat) : Bool :=
  decide (bitsOf (w 0) 0 16 = 0 ∨ 88 < bitsOf (w 2) 0 7 ∨ 87 < bitsOf (w 2) 8 7 ∨ 32 < bitsOf (w 2) 16 6 ∨
    252 < bitsOf (w 2) 24 8 ∨ bitsOf (w 2) 40 5 < 6 ∨ 16 < bitsOf (w 2) 40 5 ∨ bitsOf (w 3) 32 16 = 0 ∨
    (bitsOf (w 0) 16 16 = 0 ∧ bitsOf (w 1) 0 15 ≠ 0x7FFF))

/-- An address that is not aligned (Table 17-4). -/
def rcbAlign (w : Nat → Nat) : Bool :=
  decide (w 8 % 4096 ≠ 0 ∨ w 9 % 65536 ≠ 0 ∨ w 10 % 4096 ≠ 0 ∨ w 13 % 4096 ≠ 0)

/-- A budget or PLACE of a region breaks R290: `p` is its parent. -/
def State.overBudget (s : State) (r p : Region) : Bool :=
  let own := fun (b off lo n : Nat) => r.ovr b && decide (s.rfield p b off lo n < fld (r.at off) lo n)
  own 4 0x10 0 7 || own 5 0x10 8 7 || own 7 0x10 24 8 || own 8 0x18 0 19 ||
    (r.ovr 4 && (List.range 88).any fun k => s.rPlace r k && !s.rPlace p k)

/-- Rows of the associative memory that are free for a run of `n` rows from `b` (R277). -/
def State.rowsFree (s : State) (b n : Nat) : Bool :=
  decide (b + n ≤ 16384) && s.cp.hamRows.all fun x => x.2.all fun h => decide (b + n ≤ h.1 ∨ h.1 + h.2 ≤ b)

/-- The first place for `n` rows: rows 256 and up, at a multiple of 64. -/
def State.placeRows (s : State) (n : Nat) : Option Nat :=
  ((List.range 252).map fun k => 256 + 64 * k).find? fun b => s.rowsFree b n

/-- Every page of a virtual range is mapped valid and present for a region. -/
def State.pinned (s : State) (region va n : Nat) : Bool :=
  (vaPages va n).all fun p => match s.walk region p.1 with
    | .ok _ => true
    | .error _ => false

/-- The region that an RCB describes. -/
def State.rcbRegion (s : State) (pa : Nat) : Region :=
  { num := s.paNat pa 2, pa := pa, w := Vector.ofFn fun k : Fin 24 => w64 (s.paNat (pa + 8 * k.val) 8), st := .active
    credit := [], stats := Vector.replicate 8 0 }

/-- CREATE's checks, in the order of R291: a refusal code, or the state with the region. -/
def State.createRegion (s : State) (pa : Nat) : Nat ⊕ State :=
  let w := fun k => s.paNat (pa + 8 * k) 8
  let r := s.rcbRegion pa
  let t := { s with cp := { s.cp with regions := s.cp.regions ++ [r] } }
  let rows := 64 * s.rAmp r
  let place := if r.ovr 7 ∧ rows ≠ 0 then s.placeRows rows else some 0
  let par := s.region? r.parent
  let parOk := r.parent == 0 || (match par with
    | some p => p.st == .active
    | none => false)
  if s.fab.split then .inl 0x01
  else if pa % 256 ≠ 0 ∨ !s.ownMem pa 256 then .inl 0x09
  else if rcbReserved w || rcbRange w then .inl 0x02
  else if rcbAlign w then .inl 0x09
  else if (s.region? r.num).isSome then .inl 0x03
  else if !parOk then .inl 0x04
  else if par.any fun p => s.overBudget r p then .inl 0x05
  else if 2 ^ r.qlog < 2 * t.rCores r then .inl 0x05
  else
    match place with
    | none => .inl 0x06
    | some b =>
      let slots := t.rCtxn r * (0x60000 + t.rSpadsave r * 65536)
      if !t.pinned r.num (t.rCtxa r) slots || !t.pinned r.num r.qbase (16 * 2 ^ r.qlog * 32) then .inl 0x07
      else
        .inr { t with cp := { t.cp with
          ham := t.cp.ham.filter fun h => h.1 != r.num
          hamRows := if r.ovr 7 ∧ rows ≠ 0 then t.cp.hamRows ++ [(r.num, [(b, rows)])] else t.cp.hamRows } }

/-- CREATE (R291). -/
def State.createTry (s : State) : State :=
  s.cpAwait [(s.arg 0, 256)] fun s =>
    match s.createRegion (s.arg 0) with
    | .inl c => s.mbxDone c
    | .inr t => t.mbxDone 0

def execCreate (s : State) : Res := s.mbxStart .create State.createTry

/-! ## DESTROY (Table 17-6) -/

/-- A region and every descendant drain: their work is discarded. -/
def State.destroyRegion (s : State) (num : Nat) : State :=
  let down := s.cp.regions.filter fun r => s.within num r.num && r.st == .active
  let s := down.foldl (fun s r => s.updRegion r.num fun x => { x with st := .draining }) s
  (down.foldl (fun s r => s.discardWork r.num) s).sweepAll

/-- The reply to DESTROY is due when the region is DEAD. -/
def State.destroyTry (s : State) : State := if (s.region? (s.arg 0)).isNone then s.mbxDone 0 else s

/-- DESTROY (R291): of a region that is FAILED or DRAINING already, the reply waits for it to be DEAD. -/
def execDestroy (s : State) : Res :=
  s.mbxStart .destroy fun s =>
    match s.region? (s.arg 0) with
    | none => s.mbxDone 0x08
    | some r => if r.st = .active then (s.destroyRegion r.num).destroyTry else s

/-! ## Launch queues (R285, R326) -/

/-- QOPEN's checks: a refusal code, or the queue. -/
def State.queueAt (s : State) (pa : Nat) : Nat ⊕ LaunchQ :=
  let w := fun k => s.paNat (pa + 8 * k) 8
  if pa % 64 ≠ 0 ∨ !s.ownMem pa 64 then .inl 0x09
  else if bitsOf (w 1) 7 57 ≠ 0 ∨ bitsOf (w 5) 16 48 ≠ 0 ∨ w 6 ≠ 0 ∨ w 7 ≠ 0 then .inl 0x02
  else
    match s.region? (bitsOf (w 5) 0 16) with
    | none => .inl 0x08
    | some r =>
      if r.st ≠ .active then .inl 0x08
      else if w 0 % 4096 ≠ 0 ∨ bitsOf (w 1) 0 5 < 4 ∨ 16 < bitsOf (w 1) 0 5 then .inl 0x09
      else
        match (List.range 64).find? fun k => (s.lq? k).isNone with
        | none => .inl 0x05
        | some k =>
          .inr { num := k, pa := pa, region := r.num, ring := bitsOf (w 0) 0 56, log2n := bitsOf (w 1) 0 5
                 nopred := bitsOf (w 1) 5 1 == 1, evdone := bitsOf (w 1) 6 1 == 1, head := w 2, tail := w 3
                 doneseq := w 4, tag := 0, hist := [], pend := none, hit := none }

/-- QOPEN (R285): RES0 is the queue's number. -/
def State.qopenTry (s : State) : State :=
  s.cpAwait [(s.arg 0, 64)] fun s =>
    match s.queueAt (s.arg 0) with
    | .inl c => s.mbxDone c
    | .inr q =>
      { s with
        cp := { s.cp with lqs := s.cp.lqs ++ [q] }
        dev := { s.dev with res := vset s.dev.res 0 (w64 q.num) } }.mbxDone 0

def execQopen (s : State) : Res := s.mbxStart .qopen State.qopenTry

/-- The reply to QCLOSE is due when every published launch has completed. -/
def State.qcloseTry (s : State) : State :=
  match s.lq? (s.arg 0) with
  | none => s.mbxDone 0
  | some q =>
    if q.tag = 0 ∧ q.pend.isNone ∧ q.tail ≤ q.head then
      let s := (s.cp.ucs.filter fun u => u.2.queue == q.num).foldl (fun s u => s.discardUc u.1 5) s
      { s with cp := { s.cp with lqs := s.cp.lqs.filter fun x => x.num != q.num } }.mbxDone 0
    else s

/-- QCLOSE (R326). -/
def execQclose (s : State) : Res :=
  s.mbxStart .qclose fun s =>
    match s.lq? (s.arg 0) with
    | none => s.mbxDone 0x08
    | some _ => s.qcloseTry

/-- QTAIL (R286): the tail doorbell of a launch queue. -/
def execQtail (q : Nat) (v : Word) (s : State) : Res :=
  if s.hostCut then .next s
  else
    match s.lq? q with
    | none => .next s
    | some x => .next ((s.updLq q fun x => { x with tail := v.toNat }).paWr (x.pa + 0x18) (le8 v.toNat))

/-! ## SHOOT (R316) -/

/-- Regions that walk the page table of a region. -/
def State.sharers (s : State) (region : Nat) : List Nat :=
  match s.region? region with
  | none => []
  | some r => (s.cp.regions.filter fun x => (s.grp 10 x).num == (s.grp 10 r).num).map (·.num)

/-- The virtual pages that a SHOOT names; none: all. -/
def State.shootPages (s : State) : Option (List Nat) :=
  if s.arg 2 = 0 then none else some ((List.range (s.arg 2)).map fun k => s.arg 1 / 65536 * 65536 + 65536 * k)

/-- Drop every named TLB entry. -/
def State.shootTlbs (s : State) (region : Nat) : State :=
  (s.sharers region).foldl (fun s r =>
    match s.shootPages with
    | none => s.dropTlbAll r none
    | some l => l.foldl (fun s va => s.dropTlbAll r (some va)) s) s

/-- log2 of the size of the page whose leaf a walk finds not present: a walk of the upper three levels meets the leaf of a
32 MiB page (R314). -/
def State.leafLg (s : State) (region va : Nat) : Nat :=
  match s.region? region with
  | none => 16
  | some r =>
    match s.walkFrom va [43, 34, 25] (s.rPtroot r) 0 with
    | .error e => if e.cause = .pageFault then 25 else 16
    | .ok _ => 25

/-- The 64 KiB of a leaf, present or not, that an address lies in: what a shoot-down with WB writes back. -/
def State.shootPa (s : State) (region va : Nat) : Option (Nat × Nat) :=
  let part := fun (pa lg : Nat) => some (pa + va % 2 ^ lg / 65536 * 65536, 65536)
  match s.walk region va with
  | .ok p => part p.pa p.lg
  | .error e =>
    match if e.cause = .pageFault then s.tableNat e.entry else .error e with
    | .ok w => part (bitsOf w 16 38 * 65536) (s.leafLg region va)
    | .error _ => none

/-- Physical ranges whose copies a SHOOT with WB names: every one when it names all pages. -/
def State.shootRanges (s : State) (region : Nat) : List (Nat × Nat) :=
  match s.shootPages with
  | none => [(0, 2 ^ 54)]
  | some l => l.filterMap fun va => s.shootPa region va

/-- The tiles of a range. -/
def State.tilesIn (s : State) (p : Nat × Nat) : List DirEnt :=
  s.dir.filter fun e => decide (e.pa < p.1 + p.2 ∧ p.1 < e.pa + e.tile)

/-- No request, no remote replica and no write that has stopped at a narrower scope stands at a tile or line of a range
(R80, R252, R264). -/
def State.rangeQuiet (s : State) (p : Nat × Nat) : Bool :=
  ((s.tilesIn p).all fun e => s.quiet e && !e.remBlocks true)
    && (s.snoop.all fun x => decide (x.pa + 128 ≤ p.1 ∨ p.1 + p.2 ≤ x.pa))
    && !(s.cores.any fun c => c.2.buf.any fun w => decide (w.pa < p.1 + p.2 ∧ p.1 < w.pa + w.bytes.length))

/-- What stands in the way of a range is asked to go: remote replicas, and writes on their way to their reach. -/
def State.clearRange (s : State) (p : Nat × Nat) : State :=
  let s := ((s.performRange p.1 p.2).2).askLine p.1 p.2 true
  (s.tilesIn p).foldl (fun s e => if s.quiet e && e.remBlocks true then s.sendBis e.pa (s.tileHolders e) else s) s

/-- A tile is recalled from every local copy; this package's replica of another's tile goes with it (R252). -/
def State.recallTile (s : State) (e : DirEnt) : State :=
  let t := s.gwNow e
  match if s.away e then t.entAt e.dom e.pa else none with
  | some x => t.dropReplica x
  | none => t

/-- Every copy of a range is written back and dropped in every domain. -/
def State.dropRange (s : State) (p : Nat × Nat) : State :=
  ((s.tilesIn p).foldl (fun s e => s.recallTile e) s).dropAll p.1 p.2

/-- The accesses that may have used an entry that a SHOOT names. -/
def State.shootUses (s : State) : List (Nat × Nat × Nat) := (s.sharers (s.arg 0)).flatMap s.usesOf

/-- Every access that used a named entry has been performed (R316). -/
def State.shootDone (s : State) : Bool :=
  !(s.cp.shootAfter.any fun x => s.shootUses.contains x)
    && !(s.cores.any fun c => (s.sharers (s.arg 0)).contains c.2.region && !c.2.buf.isEmpty)

/-- The reply to SHOOT: the TLBs have dropped the entries at its start. -/
def State.shootTry (s : State) : State :=
  let s := (s.sharers (s.arg 0)).foldl (fun s r => s.performRegion r) s
  if !s.shootDone then s
  else if s.arg 3 % 2 = 0 then s.mbxDone 0
  else
    let l := s.shootRanges (s.arg 0)
    let s := l.foldl State.clearRange s
    if l.all fun p => s.rangeQuiet p then (l.foldl State.dropRange s).mbxDone 0 else s

/-- SHOOT (R316). -/
def execShoot (s : State) : Res :=
  s.mbxStart .shoot fun s =>
    if (s.region? (s.arg 0)).isNone then s.mbxDone 0x08
    else { s.shootTlbs (s.arg 0) with cp := { (s.shootTlbs (s.arg 0)).cp with shootAfter := s.shootUses } }.shootTry

/-! ## Memory (Table 18-8) -/

/-- The C-die of the CP that serves the mailbox (R75). -/
def State.mbxDie (s : State) : Nat := s.cpOf 2

/-- A physical range that an access of the host may name. -/
def State.hostRange (s : State) (pa n : Nat) : Bool :=
  decide (1 ≤ n ∧ n ≤ 4096 ∧ pa + n ≤ 2 ^ 54 ∧ paOff pa + n ≤ memTop) &&
    (match s.routePa (88 + s.mbxDie) pa with
      | .none => false
      | _ => true)

/-- No request is under way at the tiles of a range, and its route is not held. -/
def State.hostReady (s : State) (pa n : Nat) : Bool :=
  (match s.routePa (88 + s.mbxDie) pa with
    | .hold => false
    | _ => true) && s.rangeQuiet (pa, n)

/-- MEMWR's write, performed at POD. -/
def State.memwrTry (s : State) : State :=
  let pa := s.arg 0
  let n := s.arg 1
  let s := s.cpDrain.clearRange (pa, n)
  if s.cpBusy || !s.hostReady pa n then s
  else
    let tiles := s.tilesIn (pa, n)
    let b := s.dev.data.rdBytes 0 n
    let s := tiles.foldl (fun s e => s.gwNow e) s
    let s := tiles.foldl (fun s e =>
      if e.home < 3 then
        let lo := Nat.max pa e.pa
        let hi := Nat.min (pa + n) (e.pa + e.tile)
        s.phWrite e.home lo ((b.drop (lo - pa)).take (hi - lo))
      else s) s
    (s.paWr pa b).mbxDone 0

/-- MEMWR (R326). -/
def execMemwr (s : State) : Res :=
  s.mbxStart .memwr fun s => if s.hostRange (s.arg 0) (s.arg 1) then s.memwrTry else s.mbxDone 0x09

/-- MEMRD's read, an acquire at POD. -/
def State.memrdTry (s : State) : State :=
  let pa := s.arg 0
  let n := s.arg 1
  let s := s.clearRange (pa, n)
  if !s.hostReady pa n then s
  else
    let s := s.dropCopy 2 pa n
    let b := s.cpRdPage s.mbxDie pa n .pod
    { s with dev := { s.dev with data := s.dev.data.wrBytes 0 b } }.mbxDone 0

/-- MEMRD of the DEVSTAT image in recovery (R324). -/
def State.statRead (s : State) : State :=
  let b := (((le8 s.devstat.toNat).drop (s.arg 0 - Config.devstatImage)).take (s.arg 1))
  { s with dev := { s.dev with data := s.dev.data.wrBytes 0 b } }.mbxDone 0

/-- MEMRD (R326). -/
def execMemrd (s : State) : Res :=
  s.mbxStart .memrd fun s =>
    if s.dev.recovery && !s.dev.fatal then s.statRead
    else if s.hostRange (s.arg 0) (s.arg 1) then s.memrdTry else s.mbxDone 0x09

/-! ## Attestation and recovery (R323, R324) -/

/-- ATTEST: the leaf counter advances before the signature is released. -/
def execAttest (s : State) : Res :=
  s.mbxStart .attest fun s =>
    if s.dev.leaf < 2 ^ 20 then { s with dev := { s.dev with leaf := s.dev.leaf + 1 } }
    else ({ s.attestData none with dev := { (s.attestData none).dev with lmsx := true } }).mbxDone 0x0B

/-- The signature is released. -/
def State.attestTry (s : State) : State := (s.attestData (some (s.dev.leaf - 1))).mbxDone 0

/-- REC_CHUNK (R324). -/
def execRecChunk (s : State) : Res :=
  s.mbxStart .recChunk fun s =>
    let off := s.arg 0
    let n := s.arg 1
    if n = 0 ∨ 4096 < n ∨ 0x1200 + 8388608 < off + n then s.mbxDone 0x09
    else
      { s with dev := { s.dev with recBuf := s.dev.recBuf.wrBytes off (s.dev.data.rdBytes 0 n) } }.mbxDone 0

/-- The image in the buffer: as long as its header says. -/
def State.recImage (s : State) : List Byte :=
  s.dev.recBuf.rdBytes 0 (0x1200 + Nat.min (s.dev.recBuf.rdN 0x10 8) 8388608)

/-- REC_BOOT (R324): with PERSIST the flash slot is written first. -/
def execRecBoot (s : State) : Res :=
  s.mbxStart .recBoot fun s =>
    if !s.imageOk s.recImage then s.mbxDone 0x0A
    else if s.arg 0 % 2 = 1 then { s with dev := { s.dev with flashBusy := true } }
    else (s.startImage s.recImage).mbxDone 0

/-- The flash slot has been written. -/
def State.recBootTry (s : State) : State :=
  let b := s.recImage
  ({ s with dev := { s.dev with flash := some b, flashBusy := false } }.startImage b).mbxDone 0

/-! ## ENETQ (R353) -/

/-- An unbinding waits for the frames in progress. -/
def State.enetqTry (s : State) : State :=
  let a := s.arg 0
  match s.ethQ (bitsOf a 0 1) (bitsOf a 2 6) (bitsOf a 1 1 == 1) with
  | none => s.mbxDone 0
  | some e =>
    if s.ethFinished e then (s.ethUnbind e).mbxDone 0 else s.setEthQ { e with closing := true }

/-- ENETQ (R353). -/
def execEnetq (s : State) : Res :=
  s.mbxStart .enetq fun s =>
    let a := s.arg 0
    if bitsOf a 8 56 ≠ 0 then s.mbxDone 0x02
    else if s.arg 2 = 0 then
      match s.ethUnbindCode (bitsOf a 0 1) (bitsOf a 2 6) (s.arg 1) (bitsOf a 1 1 == 1) with
      | some code => s.mbxDone code
      | none => s.enetqTry
    else
      let r := s.ethBind (bitsOf a 0 1) (bitsOf a 2 6) (s.arg 1) (s.arg 2) (bitsOf a 1 1 == 1)
      r.2.mbxDone r.1

/-- MAILBOX_REPLY (R326): the command in progress finishes if its condition holds. -/
def execMailboxReply (s : State) : Res :=
  s.cpTurn fun s =>
  if !s.dev.busy then .next s
  else
    match s.cp.cmd with
    | some .init => .next s.initTry
    | some .create => .next s.createTry
    | some .qopen => .next s.qopenTry
    | some .destroy => .next s.destroyTry
    | some .qclose => .next s.qcloseTry
    | some .shoot => .next s.shootTry
    | some .memwr => .next s.memwrTry
    | some .memrd => .next s.memrdTry
    | some .attest => .next s.attestTry
    | some .recBoot => .next s.recBootTry
    | some .enetq => .next s.enetqTry
    | _ => .next s

/-! ## Registers with rows of their own (Table 18-7, Table 17-9) -/

/-- FDOMF (R319): ones clear. -/
def execFdomf (k : Nat) (v : Word) (s : State) : Res :=
  if s.hostCut then .next s
  else .next { s with dev := { s.dev with fdomf := vset s.dev.fdomf k (vget s.dev.fdomf 0 k &&& ~~~v) } }

/-- MBX_STAT (R326): a one in OVR clears it. -/
def execMbxStat (v : Word) (s : State) : Res :=
  if s.hostCut then .next s
  else .next { s with dev := { s.dev with ovr := s.dev.ovr && !(v.getLsbD 1) } }

/-- CLEAR (R298): every predictor entry is invalid, and NEXTW is 0. -/
def execClear (s : State) : Res :=
  if s.hostCut then .next s else .next { s with cp := { s.cp with pred := [], nextw := 0 } }

end Sys2Proof.Machine
end

