-- ==== Sys2Proof/Machine/Operation.lean ====
section
/-! DEFINITION. Throttling, monitors, the clocks, and the host's writes to BAR0 registers (R8, R14, R242, R363-R367,
Tables 18-7, 19-11, 19-14, 21-3, 21-4). -/

namespace Sys2Proof.Machine

/-! ## Monitors (R363, R365, R366) -/

def State.mon (s : State) (die : Nat) : Mon := tabGet .reset s.fab.mons die

def State.updMon (s : State) (die : Nat) (f : Mon → Mon) : State :=
  { s with fab := { s.fab with mons := tabSet s.fab.mons die (f (s.mon die)) } }

/-- TEMP of a die takes a sample every 1,024 cycles (R363), at the FRAME_CLK cycles divisible by 1,024 (DESIGN CHOICE,
assumption 71). -/
def Mon.heat (m : Mon) (clk t : Nat) : Mon :=
  if clk % 1024 ≠ 0 then m
  else { m with temp := t, tpeak := Nat.max m.tpeak t, hot := if 440 ≤ t then some (m.hot.getD clk) else none }

/-- MONITOR_SAMPLE (R363): TEMP in units of 0.25 °C, the supply in mV, the oscillator count, and the input power. -/
def execMonitorSample (die temp volt rosc pwr : Nat) (s : State) : Res :=
  if die ≥ 21 then .next s
  else
    let v := volt % 2 ^ 12
    let f := fun (m : Mon) =>
      { m.heat s.frameClk (temp % 2 ^ 10) with vnow := v, vmin := Nat.min m.vmin v, rosc := rosc % 2 ^ 16 }
    let s := s.updMon die f
    .next { s with fab := { s.fab with pwr := pwr % 2 ^ 16 } }

/-- PCLR (R363). -/
def execPclr (die : Nat) (s : State) : Res :=
  if die ≥ 21 || s.hostCut then .next s else .next (s.updMon die fun m => { m with tpeak := m.temp })

/-- CLR (R363). -/
def execClr (die : Nat) (s : State) : Res :=
  if die ≥ 21 || s.hostCut then .next s else .next (s.updMon die fun m => { m with vmin := 0xFFF, droops := 0 })

/-- DROOP (R365): 16 cycles of the compute clock are stretched; each counts as one. -/
def execDroop (die : Nat) (s : State) : Res :=
  if die ≥ 21 then .next s
  else
    let s := s.updMon die fun m => { m with droops := sat 16 m.droops }
    .next { s with fab := { s.fab with stretch := 16 } }

/-- TCRIT (R366). -/
def execTcrit (die : Nat) (s : State) : Res :=
  match (s.mon die).hot with
  | some t =>
    if s.fab.stopped ∨ s.frameClk < t + 600000 then .next s
    else .next ({ s with fab := { s.fab with stopped := true } }.devEvent 0x21 die 0 0).deviceFatal
  | none => .next s

/-! ## Throttling (R364) -/

/-- The hottest of the C-, M- and S-dies stands at TTHR or above. -/
def State.hot (s : State) : Bool := (List.range 11).any fun d => decide (4 * s.fab.tthr.toNat ≤ (s.mon d).temp)

/-- The input power is above PLIM. -/
def State.over (s : State) : Bool := decide (Nat.min s.fab.plim.toNat 7500 < s.fab.pwr)

/-- THROTTLE_EVALUATION (R364), every 6,000 FRAME_CLK cycles. -/
def execThrottleEvaluation (s : State) : Res :=
  if s.frameClk % 6000 ≠ 0 ∨ s.frameClk ≤ s.fab.thrAt then .next s
  else
    let st := s.fab.step
    let low := decide (st < s.fab.hstep.toNat)
    let up := s.hot || s.over || low
    let cause := s.hot.toNat + s.over.toNat * 2 + low.toNat * 4
    let calm := if up then s.frameClk else s.fab.calm
    let new := if up then (if st < 7 then st + 1 else st)
      else if s.fab.hstep.toNat < st ∧ calm + 600000 ≤ s.frameClk then st - 1 else st
    let t := { s with fab := { s.fab with step := new, thrCause := cause, calm := calm, thrAt := s.frameClk } }
    .next (if new = st then t else t.devEvent 0x20 0 (st + new * 16 + cause * 2 ^ 8) 0)

/-! ## The clocks (R8, R242, R364, R365) -/

/-- One cycle of the compute clock on every core: SCHED_CLK stops while the core is frozen, up to its resume. -/
def Core.cycle (c : Core) : Core :=
  let c := { c with tried := false, posted := 0, trace := { c.trace with old := c.trace.store.length }, ch := c.ch.map Channel.newCycle }
  if c.status = .frozen ∧ !c.wake then c else { c with sched := c.sched + 1 }

/-- One cycle of FRAME_CLK; what a cycle leaves to be sent goes out as it ends. -/
def State.tick (s : State) : State :=
  let s := (s.flushClaims.flushDev.sendOutBis).ackBis.sendOwed
  let ph := s.fab.phase + (8 - s.fab.step)
  let need := if s.fab.stretch = 0 then 8 else 8 + Config.stretchEighths
  let runs := !s.fab.stopped && decide (need ≤ ph)
  let f := { s.fab with
    phase := if s.fab.stopped then s.fab.phase else if runs then ph - need else ph
    cycles := if runs then s.fab.cycles + 1 else s.fab.cycles
    stretch := if runs then s.fab.stretch - 1 else s.fab.stretch
    thrCyc := if 0 < s.fab.step then s.fab.thrCyc + 1 else s.fab.thrCyc }
  let s := if runs then s.hamArrivals else s
  let s : State := { s with
    bis := s.bis.map fun b => if s.route 0 b.dev = .hold then { b with at_ := b.at_.map (· + 1) } else b
    frameClk := s.frameClk + 1, fab := f
    cores := if runs then s.cores.map fun c => (c.1, c.2.cycle) else s.cores }
  let s := s.dropSyncs
  if runs then (s.cores.filter fun c => c.2.wake).foldl (fun s c => s.restart c.1) s else s

/-! ## Reads of BAR0 (R14) -/

/-- Fields of a register: low bit and value. -/
def regOfFields (l : List (Nat × Nat)) : Word := w64 ((l.map fun f => f.2 * 2 ^ f.1).foldl (· + ·) 0)

/-- A register of Tables 18-7 and 17-9. -/
def State.readLow (s : State) (off : Nat) : Word :=
  let d := s.dev
  if off = 0x00 then regOfFields [(0, 0x4B04), (16, Config.stepping.toNat)]
  else if off = 0x08 then
    s.devstat
  else if 0x10 ≤ off ∧ off < 0x30 then vget d.fdomf 0 ((off - 0x10) / 8)
  else if off = 0x30 then d.rsplim.zeroExtend 64
  else if off = 0x38 then d.lateDrop.zeroExtend 64
  else if off = 0x40 then d.ceCount.zeroExtend 64
  else if off = 0x48 then regOfFields [(0, s.cp.predEn.toNat), (1, s.cp.pdist)]
  else if off = 0x108 then regOfFields [(0, d.busy.toNat), (1, d.ovr.toNat), (8, d.code.toNat)]
  else if 0x110 ≤ off ∧ off < 0x150 then vget d.arg 0 ((off - 0x110) / 8)
  else if 0x150 ≤ off ∧ off < 0x170 then vget d.res 0 ((off - 0x150) / 8)
  else 0

/-- A register of a die's monitors (Table 21-4). -/
def State.readMon (s : State) (die off : Nat) : Word :=
  let m := s.mon die
  if off = 0x00 then regOfFields [(0, m.temp), (10, m.tpeak)]
  else if off = 0x08 then regOfFields [(0, m.vnow), (12, m.vmin), (24, m.droops)]
  else if off = 0x10 then regOfFields [(0, m.rosc), (16, (Config.rosc0 die).toNat)]
  else 0

/-- A register of Tables 21-3 and 19-11. HOLDER names the last holder while COMMIT is on its way (assumption 63). -/
def State.readHigh (s : State) (off : Nat) : Word :=
  let f := s.fab
  if off = 0x3600 then f.plim.zeroExtend 64
  else if off = 0x3608 then regOfFields [(0, f.tthr.toNat), (8, f.hstep.toNat)]
  else if off = 0x3610 then regOfFields [(0, f.step), (3, f.thrCause), (16, f.pwr)]
  else if off = 0x3618 then f.thrCyc
  else if off = 0x3620 then f.fevq.zeroExtend 64
  else if off = 0x3628 then f.laser.zeroExtend 64
  else if off = 0x3800 then regOfFields [(0, f.fabId), (14, f.fabV.toNat)]
  else if off = 0x3808 then
    regOfFields [(0, f.token.getD ((f.tokenMsg.map fun x => 1 - x.2).getD 0)), (2, f.tokenMsg.isSome.toNat)]
  else if off = 0x3810 then f.rtSel.zeroExtend 64
  else if off = 0x3818 then
    w64 (tabGet 0 f.routes (bitsOf f.rtSel.toNat 0 9 * 8 + bitsOf f.rtSel.toNat 9 3))
  else 0

/-- The code of a lane in PORT_WL (Table 19-11). -/
def LaneSt.code : LaneSt → Nat
  | .off => 0
  | .active => 1
  | .leaving => 2
  | .train => 3
  | .prove => 4
  | .joining => 5
  | .dark => 6
  | .failed => 7

/-- A register of a fabric port (Table 19-11); the ports of a bonded pair show one set (R333). -/
def State.readPort (s : State) (n off : Nat) : Word :=
  let p := s.port n
  if off = 0x00 then
    regOfFields [(0, p.st.code), (4, p.mask), (20, p.openTc), (22, p.foundDev), (36, p.foundPort)]
  else if off = 0x08 then regOfFields [(0, p.en.toNat), (1, p.bond.toNat), (4, p.tc0lim), (8, p.darklim)]
  else if off = 0x10 then regOfFields [(0, p.peerDev), (14, p.peerPort), (21, p.peerV.toNat)]
  else if off = 0x18 then regOfFields [(0, p.replayed), (32, p.crcerr), (48, p.bad)]
  else if off = 0x20 then regOfFields ((List.range 16).map fun i => (4 * i, (vget p.lanes .off i).st.code))
  else 0

/-- A register of an Ethernet port (Table 19-14). -/
def State.readEth (s : State) (x off : Nat) : Word :=
  let p := vget s.fab.eth .reset x
  if off = 0x00 then regOfFields [(0, p.up.toNat), (1, p.paused.toNat)]
  else if off = 0x08 then regOfFields [(0, p.en.toNat), (1, p.pfcen.toNat)]
  else if off = 0x10 then p.mac.zeroExtend 64
  else if off = 0x18 then regOfFields [(0, p.tx), (32, p.rx)]
  else if off = 0x20 then regOfFields [(0, p.fcserr), (16, p.noqueue), (32, p.overrun)]
  else 0

/-- What the host's read of 64 bits of BAR0 returns (R14): the current value of RO, RW, W1C and HW bits; 0 for WO and
reserved bits, and for an offset at which no register stands. -/
def State.barRead (s : State) (off : Nat) : Word :=
  if off % 8 ≠ 0 then 0
  else if off < 0x1000 then s.readLow off
  else if off < 0x2000 then w64 (s.dev.data.rdN (off - 0x1000) 8)
  else if 0x3000 ≤ off ∧ off < 0x32A0 then s.readMon ((off - 0x3000) / 0x20) (off % 0x20)
  else if 0x3600 ≤ off ∧ off < 0x4000 then s.readHigh off
  else if 0x4000 ≤ off ∧ off < 0x57C0 then s.readPort ((off - 0x4000) / 0x40) (off % 0x40)
  else if 0x5800 ≤ off ∧ off < 0x5880 then s.readEth ((off - 0x5800) / 0x40) (off % 0x40)
  else 0

/-! ## Writes to BAR0 (R14) -/

/-- MBX_CMD: the command of an operation code (Table 18-8). -/
def execMbxCmd (op : Nat) (s : State) : Res :=
  match op with
  | 0x01 => execInit s
  | 0x02 => execCreate s
  | 0x03 => execDestroy s
  | 0x04 => execQopen s
  | 0x05 => execQclose s
  | 0x06 => execShoot s
  | 0x07 => execMemwr s
  | 0x08 => execMemrd s
  | 0x09 => execAttest s
  | 0x0A => execRecChunk s
  | 0x0B => execRecBoot s
  | 0x0C => execEnetq s
  | _ => if s.dev.busy then .next { s with dev := { s.dev with ovr := true } } else .next (s.mbxDone 0x01)

/-- PORT_CTL of port `n` (Table 19-11). -/
def writePortCtl (n : Nat) (v : Word) (s : State) : Res :=
  if !s.portOwn n then .next s
  else
    let p := s.port n
    let q := { p with bond := n < 64 && n % 2 == 0 && fld v 1 1 == 1, tc0lim := fld v 4 4, darklim := fld v 8 24 }
    let s := { s with fab := { s.fab with ports := tabSet s.fab.ports n q } }
    andThen (execEn n (fld v 0 1 == 1) s) fun s =>
      andThen (if fld v 2 1 = 1 then execReconf n s else .next s) fun s =>
        if fld v 3 1 = 1 then execRelock n s else .next s

/-- A register of the block of port `n`. -/
def writePort (n off : Nat) (v : Word) (s : State) : Res :=
  if off = 0x08 then writePortCtl n v s
  else if off = 0x10 ∧ s.portOwn n then
    .next (s.setPort n { s.port n with peerDev := fld v 0 14, peerPort := fld v 14 7, peerV := fld v 21 1 == 1 })
  else .next s

/-- A register of the block of Ethernet port `x`. -/
def writeEth (x off : Nat) (v : Word) (s : State) : Res :=
  if off = 0x08 then
    let s := s.updEth x fun p => { p with en := fld v 0 1 == 1, pfcen := BitVec.ofNat 8 (fld v 1 8) }
    if fld v 0 1 = 0 then execEthLinkChange x false s else .next s
  else if off = 0x10 then .next (s.updEth x fun p => { p with mac := BitVec.ofNat 48 (fld v 0 48) })
  else .next s

/-- PRED_CTL (Table 17-9). -/
def writePredCtl (v : Word) (s : State) : Res :=
  let s := { s with cp := { s.cp with predEn := fld v 0 1 == 1, pdist := fld v 1 13 } }
  if fld v 14 1 = 1 then execClear s else .next s

/-- RT_DATA of the candidate that RT_SEL selects (Table 19-11). -/
def writeRoute (v : Word) (s : State) : Res :=
  let g := bitsOf s.fab.rtSel.toNat 0 9
  let c := bitsOf s.fab.rtSel.toNat 9 3
  .next { s with fab := { s.fab with routes := tabSet s.fab.routes (g * 8 + c) (fld v 0 17) } }

/-- A die monitor's register. -/
def writeMon (die off : Nat) (v : Word) (s : State) : Res :=
  if off = 0 ∧ fld v 20 1 = 1 then execPclr die s
  else if off = 8 ∧ fld v 40 1 = 1 then execClr die s else .next s

/-- A register below 0x1000 (Table 18-7). -/
def writeLow (off : Nat) (v : Word) (s : State) : Res :=
  if off = 0x30 then .next { s with dev := { s.dev with rsplim := BitVec.ofNat 32 (fld v 0 32) } }
  else if 0x10 ≤ off ∧ off < 0x30 then execFdomf ((off - 0x10) / 8) v s
  else if off = 0x48 then writePredCtl v s
  else if off = 0x80 then execResolve (fld v 0 32) s
  else if off = 0x100 then execMbxCmd (fld v 0 8) s
  else if off = 0x108 then execMbxStat v s
  else if 0x110 ≤ off ∧ off < 0x150 then
    .next { s with dev := { s.dev with arg := vset s.dev.arg ((off - 0x110) / 8) v } }
  else .next s

/-- A register of Table 21-3, or one of the fabric's own (Table 19-11). -/
def writeHigh (off : Nat) (v : Word) (s : State) : Res :=
  if off = 0x3600 then .next { s with fab := { s.fab with plim := BitVec.ofNat 13 (fld v 0 13) } }
  else if off = 0x3608 then
    .next { s with fab := { s.fab with tthr := BitVec.ofNat 8 (fld v 0 8), hstep := BitVec.ofNat 3 (fld v 8 3) } }
  else if off = 0x3620 then .next { s with fab := { s.fab with fevq := BitVec.ofNat 56 (fld v 0 56) } }
  else if off = 0x3800 then execFabId v s
  else if off = 0x3808 then (if fld v 1 1 = 1 then execTokenMove s else .next s)
  else if off = 0x3810 then .next { s with fab := { s.fab with rtSel := BitVec.ofNat 12 (fld v 0 12) } }
  else if off = 0x3818 then writeRoute v s
  else .next s

/-- REGISTER_WRITE (R14): 64 bits at an offset of BAR0, under the access codes of the register maps. A reserved bit
and a bit that is not written by software ignore the write. -/
def execRegisterWrite (off : Nat) (v : Word) (s : State) : Res :=
  if s.hostCut || off % 8 != 0 then .next s
  else if off < 0x1000 then writeLow off v s
  else if off < 0x2000 then
    .next { s with dev := { s.dev with data := s.dev.data.wrBytes (off - 0x1000) (le8 v.toNat) } }
  else if off < 0x2200 then execQtail ((off - 0x2000) / 8) v s
  else if 0x3000 ≤ off ∧ off < 0x32A0 then writeMon ((off - 0x3000) / 0x20) (off % 0x20) v s
  else if 0x3600 ≤ off ∧ off < 0x4000 then writeHigh off v s
  else if 0x4000 ≤ off ∧ off < 0x57C0 then writePort ((off - 0x4000) / 0x40) (off % 0x40) v s
  else if 0x5800 ≤ off ∧ off < 0x5880 then writeEth ((off - 0x5800) / 0x40) (off % 0x40) v s
  else .next s

end Sys2Proof.Machine
end

