-- ==== Sys2Proof/Machine/Dispatch.lean ====
section
/-! DEFINITION. Dispatch: one arm for each constructor of `Instr`, one direct call of its meaning. -/

namespace Sys2Proof.Machine

def exec (i : Instr) (s : State) : Host.Outcome State Fault Refusal :=
  match i with
  | .nop => Sys2Proof.Machine.execNop s
  | .meNop => Sys2Proof.Machine.execMeNop s
  | .add x1 x2 x3 => Sys2Proof.Machine.execAdd x1 x2 x3 s
  | .sub x1 x2 x3 => Sys2Proof.Machine.execSub x1 x2 x3 s
  | .mul x1 x2 x3 => Sys2Proof.Machine.execMul x1 x2 x3 s
  | .mulh x1 x2 x3 => Sys2Proof.Machine.execMulh x1 x2 x3 s
  | .mulhU x1 x2 x3 => Sys2Proof.Machine.execMulhU x1 x2 x3 s
  | .div x1 x2 x3 => Sys2Proof.Machine.execDiv x1 x2 x3 s
  | .divU x1 x2 x3 => Sys2Proof.Machine.execDivU x1 x2 x3 s
  | .rem x1 x2 x3 => Sys2Proof.Machine.execRem x1 x2 x3 s
  | .remU x1 x2 x3 => Sys2Proof.Machine.execRemU x1 x2 x3 s
  | .and x1 x2 x3 => Sys2Proof.Machine.execAnd x1 x2 x3 s
  | .or x1 x2 x3 => Sys2Proof.Machine.execOr x1 x2 x3 s
  | .xor x1 x2 x3 => Sys2Proof.Machine.execXor x1 x2 x3 s
  | .andn x1 x2 x3 => Sys2Proof.Machine.execAndn x1 x2 x3 s
  | .shl x1 x2 x3 => Sys2Proof.Machine.execShl x1 x2 x3 s
  | .shr x1 x2 x3 => Sys2Proof.Machine.execShr x1 x2 x3 s
  | .sra x1 x2 x3 => Sys2Proof.Machine.execSra x1 x2 x3 s
  | .rot x1 x2 x3 => Sys2Proof.Machine.execRot x1 x2 x3 s
  | .min x1 x2 x3 => Sys2Proof.Machine.execMin x1 x2 x3 s
  | .minU x1 x2 x3 => Sys2Proof.Machine.execMinU x1 x2 x3 s
  | .max x1 x2 x3 => Sys2Proof.Machine.execMax x1 x2 x3 s
  | .maxU x1 x2 x3 => Sys2Proof.Machine.execMaxU x1 x2 x3 s
  | .clz x1 x2 => Sys2Proof.Machine.execClz x1 x2 s
  | .popc x1 x2 => Sys2Proof.Machine.execPopc x1 x2 s
  | .sel x1 x2 x3 x4 => Sys2Proof.Machine.execSel x1 x2 x3 x4 s
  | .fadd x1 x2 x3 x4 => Sys2Proof.Machine.execFadd x1 x2 x3 x4 s
  | .fsub x1 x2 x3 x4 => Sys2Proof.Machine.execFsub x1 x2 x3 x4 s
  | .fmul x1 x2 x3 x4 => Sys2Proof.Machine.execFmul x1 x2 x3 x4 s
  | .ffma x1 x2 x3 x4 => Sys2Proof.Machine.execFfma x1 x2 x3 x4 s
  | .fmin x1 x2 x3 => Sys2Proof.Machine.execFmin x1 x2 x3 s
  | .fmax x1 x2 x3 => Sys2Proof.Machine.execFmax x1 x2 x3 s
  | .fcvtI64F32 x1 x2 x3 => Sys2Proof.Machine.execFcvtI64F32 x1 x2 x3 s
  | .fcvtF32I64 x1 x2 x3 => Sys2Proof.Machine.execFcvtF32I64 x1 x2 x3 s
  | .fcvtBf16F32 x1 x2 x3 => Sys2Proof.Machine.execFcvtBf16F32 x1 x2 x3 s
  | .fcvtFp16F32 x1 x2 x3 => Sys2Proof.Machine.execFcvtFp16F32 x1 x2 x3 s
  | .fcvtE4m3F32 x1 x2 x3 => Sys2Proof.Machine.execFcvtE4m3F32 x1 x2 x3 s
  | .fcvtE5m2F32 x1 x2 x3 => Sys2Proof.Machine.execFcvtE5m2F32 x1 x2 x3 s
  | .fcvtF32Bf16 x1 x2 => Sys2Proof.Machine.execFcvtF32Bf16 x1 x2 s
  | .fcvtF32Fp16 x1 x2 => Sys2Proof.Machine.execFcvtF32Fp16 x1 x2 s
  | .fcvtF32E4m3 x1 x2 => Sys2Proof.Machine.execFcvtF32E4m3 x1 x2 s
  | .fcvtF32E5m2 x1 x2 => Sys2Proof.Machine.execFcvtF32E5m2 x1 x2 s
  | .cmp x1 x2 x3 x4 => Sys2Proof.Machine.execCmp x1 x2 x3 x4 s
  | .fcmp x1 x2 x3 x4 => Sys2Proof.Machine.execFcmp x1 x2 x3 x4 s
  | .amoAdd x1 x2 x3 x4 x5 => Sys2Proof.Machine.execAmoAdd x1 x2 x3 x4 x5 s
  | .amoMin x1 x2 x3 x4 x5 x6 => Sys2Proof.Machine.execAmoMin x1 x2 x3 x4 x5 x6 s
  | .amoMax x1 x2 x3 x4 x5 x6 => Sys2Proof.Machine.execAmoMax x1 x2 x3 x4 x5 x6 s
  | .amoAnd x1 x2 x3 x4 x5 => Sys2Proof.Machine.execAmoAnd x1 x2 x3 x4 x5 s
  | .amoOr x1 x2 x3 x4 x5 => Sys2Proof.Machine.execAmoOr x1 x2 x3 x4 x5 s
  | .amoXor x1 x2 x3 x4 x5 => Sys2Proof.Machine.execAmoXor x1 x2 x3 x4 x5 s
  | .amoSwap x1 x2 x3 x4 x5 => Sys2Proof.Machine.execAmoSwap x1 x2 x3 x4 x5 s
  | .cas x1 x2 x3 x4 x5 => Sys2Proof.Machine.execCas x1 x2 x3 x4 x5 s
  | .acq x1 => Sys2Proof.Machine.execAcq x1 s
  | .rel x1 => Sys2Proof.Machine.execRel x1 s
  | .fence x1 x2 => Sys2Proof.Machine.execFence x1 x2 s
  | .waita x1 x2 x3 x4 => Sys2Proof.Machine.execWaita x1 x2 x3 x4 s
  | .waitq x1 x2 x3 => Sys2Proof.Machine.execWaitq x1 x2 x3 s
  | .sbarv x1 x2 x3 => Sys2Proof.Machine.execSbarv x1 x2 x3 s
  | .sbwait x1 x2 x3 => Sys2Proof.Machine.execSbwait x1 x2 x3 s
  | .ffill x1 x2 => Sys2Proof.Machine.execFfill x1 x2 s
  | .fget x1 x2 x3 => Sys2Proof.Machine.execFget x1 x2 x3 s
  | .fqpush x1 x2 => Sys2Proof.Machine.execFqpush x1 x2 s
  | .spawn x1 => Sys2Proof.Machine.execSpawn x1 s
  | .join x1 => Sys2Proof.Machine.execJoin x1 s
  | .done => Sys2Proof.Machine.execDone s
  | .yield => Sys2Proof.Machine.execYield s
  | .wdecl x1 x2 x3 => Sys2Proof.Machine.execWdecl x1 x2 x3 s
  | .wclose x1 => Sys2Proof.Machine.execWclose x1 s
  | .wflush x1 => Sys2Proof.Machine.execWflush x1 s
  | .wquery x1 x2 x3 => Sys2Proof.Machine.execWquery x1 x2 x3 s
  | .chtail x1 x2 => Sys2Proof.Machine.execChtail x1 x2 s
  | .jmp x1 => Sys2Proof.Machine.execJmp x1 s
  | .ret => Sys2Proof.Machine.execRet s
  | .brx x1 x2 => Sys2Proof.Machine.execBrx x1 x2 s
  | .trap x1 => Sys2Proof.Machine.execTrap x1 s
  | .eret => Sys2Proof.Machine.execEret s
  | .tlbinv x1 x2 => Sys2Proof.Machine.execTlbinv x1 x2 s
  | .dhop x1 x2 x3 => Sys2Proof.Machine.execDhop x1 x2 x3 s
  | .vdie x1 x2 x3 => Sys2Proof.Machine.execVdie x1 x2 x3 s
  | .trc x1 x2 => Sys2Proof.Machine.execTrc x1 x2 s
  | .srd x1 x2 => Sys2Proof.Machine.execSrd x1 x2 s
  | .swr x1 x2 => Sys2Proof.Machine.execSwr x1 x2 s
  | .waitc x1 x2 => Sys2Proof.Machine.execWaitc x1 x2 s
  | .shlImm x1 x2 x3 => Sys2Proof.Machine.execShlImm x1 x2 x3 s
  | .shrImm x1 x2 x3 => Sys2Proof.Machine.execShrImm x1 x2 x3 s
  | .sraImm x1 x2 x3 => Sys2Proof.Machine.execSraImm x1 x2 x3 s
  | .rotImm x1 x2 x3 => Sys2Proof.Machine.execRotImm x1 x2 x3 s
  | .movi x1 x2 => Sys2Proof.Machine.execMovi x1 x2 s
  | .moviLong x1 x2 => Sys2Proof.Machine.execMoviLong x1 x2 s
  | .addImm x1 x2 x3 => Sys2Proof.Machine.execAddImm x1 x2 x3 s
  | .addLong x1 x2 x3 => Sys2Proof.Machine.execAddLong x1 x2 x3 s
  | .andImm x1 x2 x3 => Sys2Proof.Machine.execAndImm x1 x2 x3 s
  | .andLong x1 x2 x3 => Sys2Proof.Machine.execAndLong x1 x2 x3 s
  | .orImm x1 x2 x3 => Sys2Proof.Machine.execOrImm x1 x2 x3 s
  | .orLong x1 x2 x3 => Sys2Proof.Machine.execOrLong x1 x2 x3 s
  | .xorImm x1 x2 x3 => Sys2Proof.Machine.execXorImm x1 x2 x3 s
  | .xorLong x1 x2 x3 => Sys2Proof.Machine.execXorLong x1 x2 x3 s
  | .lea x1 x2 x3 => Sys2Proof.Machine.execLea x1 x2 x3 s
  | .leaLong x1 x2 x3 => Sys2Proof.Machine.execLeaLong x1 x2 x3 s
  | .bfx x1 x2 x3 x4 => Sys2Proof.Machine.execBfx x1 x2 x3 x4 s
  | .bfi x1 x2 x3 x4 => Sys2Proof.Machine.execBfi x1 x2 x3 x4 s
  | .loop x1 x2 => Sys2Proof.Machine.execLoop x1 x2 s
  | .cmpImm x1 x2 x3 x4 => Sys2Proof.Machine.execCmpImm x1 x2 x3 x4 s
  | .cmpLong x1 x2 x3 x4 => Sys2Proof.Machine.execCmpLong x1 x2 x3 x4 s
  | .ld x1 x2 x3 x4 x5 => Sys2Proof.Machine.execLd x1 x2 x3 x4 x5 s
  | .ldU x1 x2 x3 x4 x5 => Sys2Proof.Machine.execLdU x1 x2 x3 x4 x5 s
  | .st x1 x2 x3 x4 x5 => Sys2Proof.Machine.execSt x1 x2 x3 x4 x5 s
  | .pref x1 x2 x3 x4 => Sys2Proof.Machine.execPref x1 x2 x3 x4 s
  | .br x1 x2 x3 => Sys2Proof.Machine.execBr x1 x2 x3 s
  | .call x1 x2 x3 => Sys2Proof.Machine.execCall x1 x2 x3 s
  | .vadd x1 x2 x3 x4 => Sys2Proof.Machine.execVadd x1 x2 x3 x4 s
  | .vsub x1 x2 x3 x4 => Sys2Proof.Machine.execVsub x1 x2 x3 x4 s
  | .vmul x1 x2 x3 x4 => Sys2Proof.Machine.execVmul x1 x2 x3 x4 s
  | .vfma x1 x2 x3 x4 x5 => Sys2Proof.Machine.execVfma x1 x2 x3 x4 x5 s
  | .vmin x1 x2 x3 x4 => Sys2Proof.Machine.execVmin x1 x2 x3 x4 s
  | .vmax x1 x2 x3 x4 => Sys2Proof.Machine.execVmax x1 x2 x3 x4 s
  | .vand x1 x2 x3 x4 => Sys2Proof.Machine.execVand x1 x2 x3 x4 s
  | .vor x1 x2 x3 x4 => Sys2Proof.Machine.execVor x1 x2 x3 x4 s
  | .vxor x1 x2 x3 x4 => Sys2Proof.Machine.execVxor x1 x2 x3 x4 s
  | .vshl x1 x2 x3 x4 => Sys2Proof.Machine.execVshl x1 x2 x3 x4 s
  | .vshr x1 x2 x3 x4 => Sys2Proof.Machine.execVshr x1 x2 x3 x4 s
  | .vsel x1 x2 x3 x4 x5 => Sys2Proof.Machine.execVsel x1 x2 x3 x4 x5 s
  | .vabs x1 x2 x3 => Sys2Proof.Machine.execVabs x1 x2 x3 s
  | .vneg x1 x2 x3 => Sys2Proof.Machine.execVneg x1 x2 x3 s
  | .vcmp x1 x2 x3 x4 x5 => Sys2Proof.Machine.execVcmp x1 x2 x3 x4 x5 s
  | .vaddVs x1 x2 x3 x4 => Sys2Proof.Machine.execVaddVs x1 x2 x3 x4 s
  | .vsubVs x1 x2 x3 x4 => Sys2Proof.Machine.execVsubVs x1 x2 x3 x4 s
  | .vmulVs x1 x2 x3 x4 => Sys2Proof.Machine.execVmulVs x1 x2 x3 x4 s
  | .vminVs x1 x2 x3 x4 => Sys2Proof.Machine.execVminVs x1 x2 x3 x4 s
  | .vmaxVs x1 x2 x3 x4 => Sys2Proof.Machine.execVmaxVs x1 x2 x3 x4 s
  | .vandVs x1 x2 x3 x4 => Sys2Proof.Machine.execVandVs x1 x2 x3 x4 s
  | .vorVs x1 x2 x3 x4 => Sys2Proof.Machine.execVorVs x1 x2 x3 x4 s
  | .vxorVs x1 x2 x3 x4 => Sys2Proof.Machine.execVxorVs x1 x2 x3 x4 s
  | .vshlVs x1 x2 x3 x4 => Sys2Proof.Machine.execVshlVs x1 x2 x3 x4 s
  | .vshrVs x1 x2 x3 x4 => Sys2Proof.Machine.execVshrVs x1 x2 x3 x4 s
  | .vcmpVs x1 x2 x3 x4 x5 => Sys2Proof.Machine.execVcmpVs x1 x2 x3 x4 x5 s
  | .vcvt x1 x2 x3 => Sys2Proof.Machine.execVcvt x1 x2 x3 s
  | .vquant x1 x2 x3 x4 => Sys2Proof.Machine.execVquant x1 x2 x3 x4 s
  | .vdeq x1 x2 x3 x4 => Sys2Proof.Machine.execVdeq x1 x2 x3 x4 s
  | .vexp2 x1 x2 x3 => Sys2Proof.Machine.execVexp2 x1 x2 x3 s
  | .vlog2 x1 x2 x3 => Sys2Proof.Machine.execVlog2 x1 x2 x3 s
  | .vrcp x1 x2 x3 => Sys2Proof.Machine.execVrcp x1 x2 x3 s
  | .vrsqrt x1 x2 x3 => Sys2Proof.Machine.execVrsqrt x1 x2 x3 s
  | .vtanh x1 x2 x3 => Sys2Proof.Machine.execVtanh x1 x2 x3 s
  | .vrsum x1 x2 x3 => Sys2Proof.Machine.execVrsum x1 x2 x3 s
  | .vrmax x1 x2 x3 => Sys2Proof.Machine.execVrmax x1 x2 x3 s
  | .vamax x1 x2 x3 => Sys2Proof.Machine.execVamax x1 x2 x3 s
  | .vscan x1 x2 x3 => Sys2Proof.Machine.execVscan x1 x2 x3 s
  | .vgather x1 x2 x3 => Sys2Proof.Machine.execVgather x1 x2 x3 s
  | .vscatter x1 x2 x3 => Sys2Proof.Machine.execVscatter x1 x2 x3 s
  | .vcopy x1 x2 x3 => Sys2Proof.Machine.execVcopy x1 x2 x3 s
  | .shset x1 x2 x3 => Sys2Proof.Machine.execShset x1 x2 x3 s
  | .vfill x1 x2 x3 => Sys2Proof.Machine.execVfill x1 x2 x3 s
  | .viota x1 x2 x3 => Sys2Proof.Machine.execViota x1 x2 x3 s
  | .vchain x1 => Sys2Proof.Machine.execVchain x1 s
  | .vbulk x1 x2 x3 x4 => Sys2Proof.Machine.execVbulk x1 x2 x3 x4 s
  | .vrun x1 => Sys2Proof.Machine.execVrun x1 s
  | .vend => Sys2Proof.Machine.execVend s
  | .xcopy x1 x2 => Sys2Proof.Machine.execXcopy x1 x2 s
  | .xtile x1 x2 x3 => Sys2Proof.Machine.execXtile x1 x2 x3 s
  | .xmeta x1 x2 x3 => Sys2Proof.Machine.execXmeta x1 x2 x3 s
  | .xgather x1 x2 x3 => Sys2Proof.Machine.execXgather x1 x2 x3 s
  | .xfill x1 x2 x3 => Sys2Proof.Machine.execXfill x1 x2 x3 s
  | .xred x1 x2 x3 => Sys2Proof.Machine.execXred x1 x2 x3 s
  | .xsig x1 x2 x3 x4 => Sys2Proof.Machine.execXsig x1 x2 x3 x4 s
  | .xbar x1 x2 x3 x4 => Sys2Proof.Machine.execXbar x1 x2 x3 x4 s
  | .xwrap x1 x2 x3 => Sys2Proof.Machine.execXwrap x1 x2 x3 s
  | .xrcnt x1 x2 => Sys2Proof.Machine.execXrcnt x1 x2 s
  | .xjob x1 x2 => Sys2Proof.Machine.execXjob x1 x2 s
  | .xfoot x1 x2 x3 => Sys2Proof.Machine.execXfoot x1 x2 x3 s
  | .xchain x1 x2 x3 x4 => Sys2Proof.Machine.execXchain x1 x2 x3 x4 s
  | .xrun x1 x2 => Sys2Proof.Machine.execXrun x1 x2 s
  | .xend => Sys2Proof.Machine.execXend s
  | .mma x1 x2 x3 x4 x5 => Sys2Proof.Machine.execMma x1 x2 x3 x4 x5 s
  | .mmas x1 x2 x3 x4 x5 => Sys2Proof.Machine.execMmas x1 x2 x3 x4 x5 s
  | .mzero x1 x2 => Sys2Proof.Machine.execMzero x1 x2 s
  | .mnarrow x1 x2 x3 => Sys2Proof.Machine.execMnarrow x1 x2 x3 s
  | .mtrans x1 x2 x3 => Sys2Proof.Machine.execMtrans x1 x2 x3 s
  | .mown x1 x2 => Sys2Proof.Machine.execMown x1 x2 s
  | .mrel x1 x2 => Sys2Proof.Machine.execMrel x1 x2 s
  | .msync x1 => Sys2Proof.Machine.execMsync x1 s
  | .mrun x1 => Sys2Proof.Machine.execMrun x1 s
  | .mend => Sys2Proof.Machine.execMend s
  | .hld x1 x2 x3 x4 => Sys2Proof.Machine.execHld x1 x2 x3 x4 s
  | .hst x1 x2 x3 x4 => Sys2Proof.Machine.execHst x1 x2 x3 x4 s
  | .hxor x1 x2 x3 => Sys2Proof.Machine.execHxor x1 x2 x3 s
  | .hrot x1 x2 x3 => Sys2Proof.Machine.execHrot x1 x2 x3 s
  | .hrotImm x1 x2 x3 => Sys2Proof.Machine.execHrotImm x1 x2 x3 s
  | .hacc x1 x2 x3 => Sys2Proof.Machine.execHacc x1 x2 x3 s
  | .hthr x1 x2 => Sys2Proof.Machine.execHthr x1 x2 s
  | .hclr x1 => Sys2Proof.Machine.execHclr x1 s
  | .hpop x1 x2 x3 => Sys2Proof.Machine.execHpop x1 x2 x3 s
  | .hrnd x1 x2 => Sys2Proof.Machine.execHrnd x1 x2 s
  | .htie x1 => Sys2Proof.Machine.execHtie x1 s
  | .htieSeed x1 => Sys2Proof.Machine.execHtieSeed x1 s
  | .htieZero => Sys2Proof.Machine.execHtieZero s
  | .hclrW4 x1 => Sys2Proof.Machine.execHclrW4 x1 s
  | .hclrW8 x1 => Sys2Proof.Machine.execHclrW8 x1 s
  | .hamw x1 x2 => Sys2Proof.Machine.execHamw x1 x2 s
  | .hamq x1 x2 x3 => Sys2Proof.Machine.execHamq x1 x2 x3 s
  | .hamk x1 x2 => Sys2Proof.Machine.execHamk x1 x2 s
  | .hamd x1 => Sys2Proof.Machine.execHamd x1 s
  | .wmarm x1 => Sys2Proof.Machine.execWmarm x1 s
  | .fstat x1 => Sys2Proof.Machine.execFstat x1 s
  | .rngs x1 x2 => Sys2Proof.Machine.execRngs x1 x2 s
  | .tiesw x1 x2 => Sys2Proof.Machine.execTiesw x1 x2 s
  | .chOrg x1 x2 => Sys2Proof.Machine.execChOrg x1 x2 s
  | .bundleIssue x1 => Sys2Proof.Machine.execBundleIssue x1 s
  | .loadCompletion x1 x2 => Sys2Proof.Machine.execLoadCompletion x1 x2 s
  | .writePerformed x1 x2 => Sys2Proof.Machine.execWritePerformed x1 x2 s
  | .macroEntryCompletion x1 x2 => Sys2Proof.Machine.execMacroEntryCompletion x1 x2 s
  | .crRelease x1 => Sys2Proof.Machine.execCrRelease x1 s
  | .crPop x1 => Sys2Proof.Machine.execCrPop x1 s
  | .joinApply x1 => Sys2Proof.Machine.execJoinApply x1 s
  | .deadlinePassed x1 => Sys2Proof.Machine.execDeadlinePassed x1 s
  | .crAging x1 => Sys2Proof.Machine.execCrAging x1 s
  | .preemption x1 => Sys2Proof.Machine.execPreemption x1 s
  | .waitLimit x1 => Sys2Proof.Machine.execWaitLimit x1 s
  | .waitReread x1 => Sys2Proof.Machine.execWaitReread x1 s
  | .freeze x1 => Sys2Proof.Machine.execFreeze x1 s
  | .trapDelivery x1 => Sys2Proof.Machine.execTrapDelivery x1 s
  | .pageFaultSave x1 => Sys2Proof.Machine.execPageFaultSave x1 s
  | .resolve x1 => Sys2Proof.Machine.execResolve x1 s
  | .requestTimeout x1 x2 => Sys2Proof.Machine.execRequestTimeout x1 x2 s
  | .lateDrop x1 x2 x3 => Sys2Proof.Machine.execLateDrop x1 x2 x3 s
  | .err x1 x2 x3 => Sys2Proof.Machine.execErr x1 x2 x3 s
  | .delayedFailureReport x1 x2 => Sys2Proof.Machine.execDelayedFailureReport x1 x2 s
  | .dataPoison x1 x2 => Sys2Proof.Machine.execDataPoison x1 x2 s
  | .rs x1 => Sys2Proof.Machine.execRs x1 s
  | .rx x1 => Sys2Proof.Machine.execRx x1 s
  | .up x1 => Sys2Proof.Machine.execUp x1 s
  | .gr x1 => Sys2Proof.Machine.execGr x1 s
  | .gw x1 => Sys2Proof.Machine.execGw x1 s
  | .em x1 => Sys2Proof.Machine.execEm x1 s
  | .drop x1 => Sys2Proof.Machine.execDrop x1 s
  | .flush x1 => Sys2Proof.Machine.execFlush x1 s
  | .fwd x1 => Sys2Proof.Machine.execFwd x1 s
  | .fwdInv x1 => Sys2Proof.Machine.execFwdInv x1 s
  | .inv x1 => Sys2Proof.Machine.execInv x1 s
  | .recall x1 => Sys2Proof.Machine.execRecall x1 s
  | .data x1 => Sys2Proof.Machine.execData x1 s
  | .ack x1 => Sys2Proof.Machine.execAck x1 s
  | .gone x1 => Sys2Proof.Machine.execGone x1 s
  | .bi x1 => Sys2Proof.Machine.execBi x1 s
  | .biD x1 => Sys2Proof.Machine.execBiD x1 s
  | .remoteRead x1 x2 => Sys2Proof.Machine.execRemoteRead x1 x2 s
  | .remoteExclusive x1 x2 => Sys2Proof.Machine.execRemoteExclusive x1 x2 s
  | .replicaDrop x1 x2 x3 => Sys2Proof.Machine.execReplicaDrop x1 x2 x3 s
  | .biTimeout x1 x2 => Sys2Proof.Machine.execBiTimeout x1 x2 s
  | .lineMigration x1 => Sys2Proof.Machine.execLineMigration x1 s
  | .sbarHomeStep x1 => Sys2Proof.Machine.execSbarHomeStep x1 s
  | .jobCard x1 x2 => Sys2Proof.Machine.execJobCard x1 x2 s
  | .init => Sys2Proof.Machine.execInit s
  | .create => Sys2Proof.Machine.execCreate s
  | .destroy => Sys2Proof.Machine.execDestroy s
  | .qopen => Sys2Proof.Machine.execQopen s
  | .qclose => Sys2Proof.Machine.execQclose s
  | .shoot => Sys2Proof.Machine.execShoot s
  | .memwr => Sys2Proof.Machine.execMemwr s
  | .memrd => Sys2Proof.Machine.execMemrd s
  | .attest => Sys2Proof.Machine.execAttest s
  | .recChunk => Sys2Proof.Machine.execRecChunk s
  | .recBoot => Sys2Proof.Machine.execRecBoot s
  | .enetq => Sys2Proof.Machine.execEnetq s
  | .mailboxReply => Sys2Proof.Machine.execMailboxReply s
  | .qtail x1 x2 => Sys2Proof.Machine.execQtail x1 x2 s
  | .fdomf x1 x2 => Sys2Proof.Machine.execFdomf x1 x2 s
  | .mbxStat x1 => Sys2Proof.Machine.execMbxStat x1 s
  | .clear => Sys2Proof.Machine.execClear s
  | .fabId x1 => Sys2Proof.Machine.execFabId x1 s
  | .tokenMove => Sys2Proof.Machine.execTokenMove s
  | .tokenOffer => Sys2Proof.Machine.execTokenOffer s
  | .tokenAccept => Sys2Proof.Machine.execTokenAccept s
  | .tokenCommit => Sys2Proof.Machine.execTokenCommit s
  | .reconf x1 => Sys2Proof.Machine.execReconf x1 s
  | .relock x1 => Sys2Proof.Machine.execRelock x1 s
  | .en x1 x2 => Sys2Proof.Machine.execEn x1 x2 s
  | .pclr x1 => Sys2Proof.Machine.execPclr x1 s
  | .clr x1 => Sys2Proof.Machine.execClr x1 s
  | .registerWrite x1 x2 => Sys2Proof.Machine.execRegisterWrite x1 x2 s
  | .launchQueuePoint x1 => Sys2Proof.Machine.execLaunchQueuePoint x1 s
  | .undercoatStart x1 => Sys2Proof.Machine.execUndercoatStart x1 s
  | .undercoatDiscard x1 => Sys2Proof.Machine.execUndercoatDiscard x1 s
  | .chalkLineWrite x1 => Sys2Proof.Machine.execChalkLineWrite x1 s
  | .null x1 x2 => Sys2Proof.Machine.execNull x1 x2 s
  | .slots x1 x2 => Sys2Proof.Machine.execSlots x1 x2 s
  | .line x1 x2 => Sys2Proof.Machine.execLine x1 x2 s
  | .nak x1 x2 => Sys2Proof.Machine.execNak x1 x2 s
  | .drain x1 x2 => Sys2Proof.Machine.execDrain x1 x2 s
  | .ident x1 x2 => Sys2Proof.Machine.execIdent x1 x2 s
  | .stripe x1 x2 => Sys2Proof.Machine.execStripe x1 x2 s
  | .rd x1 => Sys2Proof.Machine.execRd x1 s
  | .wr x1 => Sys2Proof.Machine.execWr x1 s
  | .lwr x1 => Sys2Proof.Machine.execLwr x1 s
  | .cpmsg x1 => Sys2Proof.Machine.execCpmsg x1 s
  | .ackTimer x1 => Sys2Proof.Machine.execAckTimer x1 s
  | .linkRetrain x1 => Sys2Proof.Machine.execLinkRetrain x1 s
  | .replayBufferDiscard x1 => Sys2Proof.Machine.execReplayBufferDiscard x1 s
  | .signalDetect x1 x2 => Sys2Proof.Machine.execSignalDetect x1 x2 s
  | .laneLock x1 x2 => Sys2Proof.Machine.execLaneLock x1 x2 s
  | .trainTimeout x1 => Sys2Proof.Machine.execTrainTimeout x1 s
  | .darkTimeout x1 => Sys2Proof.Machine.execDarkTimeout x1 s
  | .berWindow x1 x2 x3 => Sys2Proof.Machine.execBerWindow x1 x2 x3 s
  | .lossOfLight x1 x2 => Sys2Proof.Machine.execLossOfLight x1 x2 s
  | .laserFault x1 => Sys2Proof.Machine.execLaserFault x1 s
  | .equaliserConverged x1 x2 => Sys2Proof.Machine.execEqualiserConverged x1 x2 s
  | .equaliserTimeout x1 x2 => Sys2Proof.Machine.execEqualiserTimeout x1 x2 s
  | .lightPresent x1 x2 => Sys2Proof.Machine.execLightPresent x1 x2 s
  | .dack x1 x2 x3 => Sys2Proof.Machine.execDack x1 x2 x3 s
  | .routeHoldTimeout x1 x2 => Sys2Proof.Machine.execRouteHoldTimeout x1 x2 s
  | .globalPortAnnounce x1 x2 => Sys2Proof.Machine.execGlobalPortAnnounce x1 x2 s
  | .holdEnd x1 x2 => Sys2Proof.Machine.execHoldEnd x1 x2 s
  | .cpReachabilityCheck => Sys2Proof.Machine.execCpReachabilityCheck s
  | .packageSplit => Sys2Proof.Machine.execPackageSplit s
  | .ethTxPoll x1 x2 => Sys2Proof.Machine.execEthTxPoll x1 x2 s
  | .ethRxFrame x1 x2 x3 => Sys2Proof.Machine.execEthRxFrame x1 x2 x3 s
  | .ethHeldFrameDelivery x1 => Sys2Proof.Machine.execEthHeldFrameDelivery x1 s
  | .ethPause x1 x2 x3 => Sys2Proof.Machine.execEthPause x1 x2 x3 s
  | .ethLinkChange x1 x2 => Sys2Proof.Machine.execEthLinkChange x1 x2 s
  | .powerOnReset => Sys2Proof.Machine.execPowerOnReset s
  | .functionLevelReset => Sys2Proof.Machine.execFunctionLevelReset s
  | .throttleEvaluation => Sys2Proof.Machine.execThrottleEvaluation s
  | .droop x1 => Sys2Proof.Machine.execDroop x1 s
  | .tcrit x1 => Sys2Proof.Machine.execTcrit x1 s
  | .dieLinkModuleFailure x1 => Sys2Proof.Machine.execDieLinkModuleFailure x1 s
  | .searchCompletion x1 => Sys2Proof.Machine.execSearchCompletion x1 s
  | .wqueryReply x1 x2 => Sys2Proof.Machine.execWqueryReply x1 x2 s
  | .ethTxCompletion x1 x2 => Sys2Proof.Machine.execEthTxCompletion x1 x2 s
  | .dackReturn x1 x2 x3 => Sys2Proof.Machine.execDackReturn x1 x2 x3 s
  | .monitorSample x1 x2 x3 x4 x5 => Sys2Proof.Machine.execMonitorSample x1 x2 x3 x4 x5 s
  | .powerLoss => Sys2Proof.Machine.execPowerLoss s

end Sys2Proof.Machine
end

