-- ==== Sys2Proof/Machine/Schedule.lean ====
section
/-! DEFINITION. What moves by itself when nothing is on the agenda: one fixed order among those that the manual
allows (notes/assumptions/7.md); and how an instruction comes to stand where the next step fetches it. -/

namespace Sys2Proof.Machine

/-! ## Moves in one cycle, in the order in which they are tried -/

/-- A meaning that can be tried. -/
abbrev Try1 := State → Res

/-- Engines of a core in the order of R247. -/
def unitOrder : List Unit8 := [.ve] ++ (List.range 8).map (fun k => Unit8.ch (BitVec.ofNat 3 k)) ++ [.me, .hu]

/-- Accesses of core `n` that complete, are reported or time out. -/
def accMoves (n : Nat) (c : Core) : List Try1 :=
  let one := fun (k : Nat) =>
    match (c.inflight[k]?).map fun a => a.kind with
    | some (.load ..) | some (.pref _) => [execLoadCompletion n k]
    | some (.wquery ..) => [execWqueryReply n k]
    | some .sync | none => []
    | some _ => [execWritePerformed n k]
  let late := fun (k : Nat) => [execDelayedFailureReport n k, execRequestTimeout n k]
  let asking := unitOrder.filter fun u => (c.eng u).ask.isSome
  (List.range c.inflight.length).flatMap one ++ (List.range (c.inflight.length + 1)).flatMap late
    ++ asking.map fun u => execRequestTimeout n (1000 + unitObs u)

/-- A directory message takes effect where it arrives. -/
def msgMove (k : Nat) (m : Msg) : Try1 :=
  match m.kind with
  | .rs => execRs k
  | .rx => execRx k
  | .up => execUp k
  | .gr => execGr k
  | .gw => execGw k
  | .em => execEm k
  | .drop => execDrop k
  | .flush => execFlush k
  | .fwd => execFwd k
  | .fwdInv => execFwdInv k
  | .inv => execInv k
  | .recall => execRecall k
  | .data => execData k
  | .ack => execAck k
  | .gone => execGone k
  | .bi => Host.Outcome.next

/-- A message that waits at its home. -/
def inboxMove (k : Nat) (m : FMsg) : Try1 :=
  if m.code = 0x01 ∨ m.code = 0x10 ∨ m.code = 0x13 then execRd k
  else if m.code = 0x03 then execLwr k else if m.code = 0x08 then execCpmsg k else execWr k

/-- Homes, the fabric and Ethernet. -/
def State.homeMoves (s : State) : List Try1 :=
  s.msgs.zipIdx.map (fun m => msgMove m.2 m.1) ++ s.cp.posts.map (fun p => execSbarHomeStep p.pa)
    ++ (List.range s.cp.joins.length).map execJoinApply ++ s.cp.searches.map (fun x => execSearchCompletion x.core)
    ++ s.lines.map (fun l => execLineMigration l.line) ++ s.bis.map (fun b => execBiTimeout b.dev b.pa)
    ++ s.fab.inbox.zipIdx.map (fun m => inboxMove m.2 m.1)
    ++ s.fab.paths.map (fun p => execRouteHoldTimeout p.dst p.vc)
    ++ [fun s => .next s.sendWaiting] ++ (List.range 14).map (fun l s => .next (s.linkTimeout l))
    ++ s.fab.dacks.map (fun d => execDackReturn d.1 d.2.1 d.2.2)
    ++ s.fab.ports.flatMap (fun p => [execAckTimer p.1, execLinkRetrain p.1, execReplayBufferDiscard p.1,
        execTrainTimeout p.1, execDarkTimeout p.1])
    ++ s.fab.ethq.flatMap (fun q => if q.rx then [execEthHeldFrameDelivery q.port]
        else [execEthTxCompletion q.port q.num, execEthTxPoll q.port q.num])

/-- The command processors (R29-R31, R285-R299, R311-R318, R326): their own writes first (R86). -/
def State.cpMoves (s : State) : List Try1 :=
  let busy := s.cores.filter fun c => c.2.status != .idle
  let pops := if s.cp.crs.isEmpty then [] else (List.range 88).map execCrPop
  [fun s => .next s.cpDrain, fun s => .next s.sweepAll, execMailboxReply] ++ s.cp.lqs.map (fun q => execLaunchQueuePoint q.num)
    ++ s.cp.crs.flatMap (fun c => [execCrRelease c.1, execCrAging c.1])
    ++ busy.flatMap (fun c => [execUndercoatDiscard c.1, execDeadlinePassed c.1, execPreemption c.1, execTrapDelivery c.1])
    ++ pops ++ s.cp.lqs.map (fun q => execUndercoatStart q.num)

/-- The core's own cycle: the bundle, starts, effects and completions, and last the freeze (R247, R368). -/
def cycleMoves (n : Nat) (c : Core) : List Try1 :=
  if c.status = .idle then []
  else
    let us := fun (p : Engine → Bool) => (unitOrder.filter fun u => p (c.eng u)).map fun u => fun s => s.unitMove n u
    let due := fun (e : Engine) => e.due.isSome || e.finished
    [execBundleIssue n] ++ us (fun e => !due e && (e.cur.isSome || !e.queue.isEmpty)) ++ us due ++ [execFreeze n]

/-- What a core has left to write: its stores on their way to their reach (R80), complete trace lines (R244). -/
def leftMoves (n : Nat) : List Try1 := [fun s => .next (s.performHead n), execChalkLineWrite n]

/-- The device's own evaluations (R348, R364, R366). -/
def State.deviceMoves (s : State) : List Try1 :=
  [execThrottleEvaluation, execCpReachabilityCheck, execPackageSplit] ++ s.fab.mons.map fun m => execTcrit m.1

/-- Boot, when no firmware runs and none has failed to start (R322). -/
def State.bootMoves (s : State) : List Try1 :=
  if s.dev.fwrun || s.dev.recovery || s.dev.fatal then [] else [execPowerOnReset]

/-- The moves of a cycle. The limits of waits and of page faults come when
nothing else is left to happen in it (Table 13-3, R318). -/
def State.autoMoves (s : State) : List Try1 :=
  s.bootMoves ++ s.cores.flatMap (fun c => accMoves c.1 c.2 ++ leftMoves c.1) ++ s.homeMoves ++ s.cpMoves
    ++ s.cores.flatMap (fun c => cycleMoves c.1 c.2) ++ s.cores.flatMap (fun c => [execWaitLimit c.1, execPageFaultSave c.1]) ++ s.deviceMoves

/-- Whether a move has changed anything but the model's own note of the current core and channel. -/
def State.changed (s t : State) : Bool := decide ({ t with cur := s.cur, chan := s.chan } ≠ s)

/-- The first move that changes the state. -/
def firstMove (s : State) : List Try1 → Option State
  | [] => none
  | f :: r =>
    match f s with
    | .next t => if s.changed t then some t else firstMove s r
    | _ => firstMove s r

/-- With nothing on the agenda: the first move that changes the state; when the cycle has no more, FRAME_CLK moves
on. -/
def State.auto (s : State) : Res :=
  if !s.dev.powered then .fault .unpowered
  else
    match firstMove s s.autoMoves with
    | some t => .next t
    | none => .next s.tick

/-! ## The copies of reach-domains (R78, R80) -/

/-- A domain's copy takes a line from memory, if it has none (R78). -/
def State.fetchLine (s : State) (dom pa : Nat) : State :=
  if dom > 3 ∨ 2 ^ 54 ≤ pa then s else s.fill dom (pa / 128)

/-- The writes of a core stop at scope CORE, or do so no longer (R80). -/
def State.holdWrites (s : State) (n : Nat) (on : Bool) : State :=
  if n < 88 then s.updCore n fun c => { c with hold := on } else s

/-! ## The next instruction -/

/-- The engine and section offset of a map other than the S map. -/
def sectUnit (c : Sect) (w : Nat) : Unit8 :=
  match c with
  | .s | .v | .vsec => .ve
  | .x => xUnit w
  | .h => .hu
  | .xsec => .ch 0
  | .msec => .me

/-- A word stands in its section, the engine at its first word. -/
def inSect (c : Sect) : Bool :=
  match c with
  | .vsec | .xsec | .msec => true
  | _ => false

/-- Core `c` about to issue a bundle whose S and H words are given. -/
def Core.withBundle (c : Core) (ws wh : Nat) : Core :=
  { c with
    status := .running, loading := .done, tried := false, nextIssue := 0
    imem := ((c.imem.wrN (16 * c.pc) 4 ws).wrN (16 * c.pc + 4) 8 0).wrN (16 * c.pc + 12) 4 wh }

/-- Core `c` with a word at hand in an engine, which takes effect now. -/
def Core.withUnitWord (c : Core) (k : Sect) (u : Unit8) (w : Nat) : Core :=
  let e : Engine := { Engine.empty with
    cur := some { word := w, regs := Vector.replicate 32 0, ent := 0 }
    upc := if inSect k then 0 else noUpc
    due := some 0 }
  let c := { c with status := .running, loading := .done }
  let c := if inSect k then { c with imem := c.imem.wrN (sectBase u) 4 w } else c
  c.setEng u e

/-- Core 0 fetches the instruction whose bits are `w` next: the agenda names it, or the engine that the word is for. -/
def State.placeWord (s : State) (w : Nat) : State :=
  match firstOk (tableMaps w) with
  | some (.s, _) => { s.updCore 0 (fun c => c.withBundle (bitsOf w 0 32) (bitsOf w 32 32)) with agenda := [.cc 0] }
  | some (k, _) =>
    let u := sectUnit k w
    { s.updCore 0 (fun c => c.withUnitWord k u (bitsOf w 0 32)) with agenda := [.unit 0 u] }
  | none => { s.updCore 0 (fun c => c.withBundle (bitsOf w 0 32) (bitsOf w 32 32)) with agenda := [.cc 0] }

end Sys2Proof.Machine
end

