-- ==== Sys2Proof/Machine/Step.lean ====
section
/-! DEFINITION. One step of the machine: the next item of the agenda, or what moves by itself. -/

namespace Sys2Proof.Machine

/-- What an item of the agenda does. -/
def State.move (s : State) (m : Move) : Res :=
  match m with
  | .cc n => execBundleIssue n s
  | .unit n u => s.unitMove n u
  | .ev i => exec i s
  | .tick => .next s.tick
  | .fetch dom pa => .next (s.fetchLine dom pa)
  | .writeBack dom pa => .next (s.evict dom (pa / 128))
  | .hold n on => .next (s.holdWrites n on)
  | .perform n k sc => .next (s.performAt n k sc)
  | .out o => .next (s.outside o)

/-- One step. -/
def step (s : State) : Host.Outcome State Fault Refusal :=
  match s.agenda with
  | m :: r => State.move { s with agenda := r } m
  | [] => s.auto

/-- The instruction with bits `w` is what the next step fetches and runs, on core 0. -/
def State.withFetchWord (s : State) (_nbits w : Nat) : State := s.placeWord w

end Sys2Proof.Machine
end

