-- ==== Sys2Proof/Safety.lean ====
section
/-! DEFINITION. The terms of the claims: what a run may not do without, what stays unchanged, and how a word of the
S slot, of an engine or an event has done its work. -/

namespace Sys2Proof.Machine

/-- A step is safe: the machine goes on. -/
def State.goesOn (s : State) : Prop := ∃ t, step s = .next t

/-- What issue itself changes: the PC and the notes of the issue, taken from `c0`. -/
def Core.keepCtl (c c0 : Core) : Core :=
  { c with pc := c0.pc, nextIssue := c0.nextIssue, issued := c0.issued, stall := c0.stall, waitAt := c0.waitAt, sync := c0.sync
           qHead := c0.qHead }

/-- Nothing outside core `n` has changed: no other core, no array, no CP, device or fabric state, and no byte of
memory or of a copy of it. -/
structure Elsewhere (n : Nat) (s t : State) : Prop where
  rest : { t with cores := s.cores } = s
  cores : ∀ m, m ≠ n → t.core m = s.core m
  bytes : ∀ dom pa, t.phRead dom pa 1 = s.phRead dom pa 1

/-- The S word has issued: the next bundle, `k` cycles later at the earliest, and nothing of the core is changed but
what `f` takes back. -/
structure Issued (s t : State) (k : Nat) (f : Core → Core) : Prop where
  pc : t.me.pc = s.me.pc + 1
  interval : t.me.nextIssue = s.me.sched + k
  went : t.me.issued = true
  frame : f (t.me.keepCtl s.me) = s.me
  elsewhere : Elsewhere s.cur s t

/-- sd has taken a value; s0 reads 0 and every other register is as before (R102). -/
structure RegTakes (s t : State) (d : BitVec 5) (v : Word) : Prop where
  value : d ≠ 0 → t.me.reg d.toNat = v
  zero : t.me.reg 0 = 0
  others : ∀ r, r ≠ d.toNat → t.me.reg r = s.me.reg r

/-- pd has taken a value; p0 reads true and every other predicate is as before (R102). -/
structure PredTakes (s t : State) (p : BitVec 3) (v : Bool) : Prop where
  value : p ≠ 0 → t.me.pred p.toNat = v
  zero : t.me.pred 0 = true
  others : ∀ k, k < 8 → k ≠ p.toNat → t.me.pred k = s.me.pred k

/-- `exec i` completes, with `v` in sd and nothing else changed. -/
def GivesReg (i : Instr) (s : State) (k : Nat) (d : BitVec 5) (v : Word) : Prop :=
  ∃ t, exec i s = .next t ∧ RegTakes s t d v ∧ Issued s t k fun c => { c with regs := s.me.regs }

/-- The flags of an operation of the CC have joined FSTAT, and the flags of this cycle (R66). -/
structure Posts (s t : State) (f : FFlags) : Prop where
  sticky : t.me.fstat = s.me.fstat ||| ccFlags f
  now : t.me.posted = s.me.posted ||| ccFlags f

/-- `exec i` completes, with `v` in pd, the CC flags `f` joined to FSTAT, and nothing else changed. -/
def GivesPred (i : Instr) (s : State) (p : BitVec 3) (v : Bool) (f : FFlags) : Prop :=
  ∃ t, exec i s = .next t ∧ PredTakes s t p v ∧ Posts s t f
    ∧ Issued s t 1 fun c => { c with preds := s.me.preds, fstat := s.me.fstat, posted := s.me.posted }

/-- `exec i` completes, with an FP result in sd, its flags joined to FSTAT and the CC generator at `g`, and nothing
else changed. -/
def GivesFp (i : Instr) (s : State) (k : Nat) (d : BitVec 5) (r : Word × FFlags) (g : BitVec 32) : Prop :=
  ∃ t, exec i s = .next t ∧ RegTakes s t d r.1 ∧ Posts s t r.2 ∧ t.me.rngCc = g
    ∧ Issued s t k fun c => { c with regs := s.me.regs, fstat := s.me.fstat, posted := s.me.posted, rngCc := s.me.rngCc }

/-- Control has gone to an index: two cycles, and nothing of the core is changed but what `f` takes back. -/
structure Jumped (s t : State) (target : Nat) (f : Core → Core) : Prop where
  pc : t.me.pc = target
  interval : t.me.nextIssue = s.me.sched + 2
  went : t.me.issued = true
  frame : f (t.me.keepCtl s.me) = s.me
  elsewhere : Elsewhere s.cur s t

end Sys2Proof.Machine
end

