-- ==== Sys2Proof/Certificates/Slice0/Obligations.lean ====
section
/-! DEFINITION. The statements about the model. Each docstring names the rules of the spec that it states. -/

open Sys2Proof Sys2Proof.Machine

/-- R124, R125, Table 6-2: the register forms of opcode 0x01 that add, multiply and divide. -/
def Obligations.IntegerArithmeticResults : Prop :=
  ∀ (s : State) (d : BitVec 5) (a b : Src),
    let x := s.sval a
    let y := s.sval b
    GivesReg (.add d a b) s 1 d (x + y) ∧ GivesReg (.sub d a b) s 1 d (x - y)
      ∧ GivesReg (.mul d a b) s 2 d ((x.setWidth 128 * y.setWidth 128).setWidth 64)
      ∧ GivesReg (.mulh d a b) s 2 d (((x.signExtend 128 * y.signExtend 128) >>> 64).setWidth 64)
      ∧ GivesReg (.mulhU d a b) s 2 d (((x.setWidth 128 * y.setWidth 128) >>> 64).setWidth 64)
      ∧ GivesReg (.div d a b) s 34 d (if y = 0 then BitVec.allOnes 64 else x.sdiv y)
      ∧ GivesReg (.divU d a b) s 34 d (if y = 0 then BitVec.allOnes 64 else x.udiv y)
      ∧ GivesReg (.rem d a b) s 34 d (if y = 0 then x else x.srem y)
      ∧ GivesReg (.remU d a b) s 34 d (if y = 0 then x else x.umod y)

/-- Bits of a value that are 1. -/
def Sys2Proof.Machine.onesOf (w : Word) : Nat := ((List.range 64).filter fun k => w.getLsbD k).length

/-- R124, Table 6-2: the logical words, shifts, minima and counts. -/
def Obligations.LogicShiftSelectResults : Prop :=
  ∀ (s : State) (d : BitVec 5) (a b : Src) (p : BitVec 3),
    let x := s.sval a
    let y := s.sval b
    let n := (y.setWidth 6).toNat
    GivesReg (.and d a b) s 1 d (x &&& y) ∧ GivesReg (.or d a b) s 1 d (x ||| y)
      ∧ GivesReg (.xor d a b) s 1 d (x ^^^ y) ∧ GivesReg (.andn d a b) s 1 d (x &&& ~~~y)
      ∧ GivesReg (.shl d a b) s 1 d (x <<< n) ∧ GivesReg (.shr d a b) s 1 d (x >>> n)
      ∧ GivesReg (.sra d a b) s 1 d (x.sshiftRight n) ∧ GivesReg (.rot d a b) s 1 d (x <<< n ||| x >>> (64 - n))
      ∧ GivesReg (.min d a b) s 1 d (if x.toInt ≤ y.toInt then x else y)
      ∧ GivesReg (.minU d a b) s 1 d (if x.toNat ≤ y.toNat then x else y)
      ∧ GivesReg (.max d a b) s 1 d (if x.toInt ≤ y.toInt then y else x)
      ∧ GivesReg (.maxU d a b) s 1 d (if x.toNat ≤ y.toNat then y else x)
      ∧ (∃ k, k ≤ 64 ∧ (∀ j, j < k → x.getMsbD j = false) ∧ (k < 64 → x.getMsbD k = true)
          ∧ GivesReg (.clz d a) s 1 d (BitVec.ofNat 64 k))
      ∧ GivesReg (.popc d a) s 1 d (BitVec.ofNat 64 (onesOf x))
      ∧ GivesReg (.sel d a b p) s 1 d (if s.me.pred p.toNat then x else y)

/-- R126, R127: MOVI, ADD, AND, OR and XOR with an immediate, and the shifts by a literal. LEA has a statement of its
own, O4. -/
def Obligations.ImmediateFormResults : Prop :=
  ∀ (s : State) (d : BitVec 5) (a : Src) (m : BitVec 14) (l : BitVec 46) (c : BitVec 6),
    let x := s.sval a
    let im := m.signExtend 64
    let il := l.signExtend 64
    let n := c.toNat
    GivesReg (.movi d m) s 1 d im ∧ GivesReg (.moviLong d l) s 1 d il
      ∧ GivesReg (.addImm d a m) s 1 d (x + im) ∧ GivesReg (.addLong d a l) s 1 d (x + il)
      ∧ GivesReg (.andImm d a m) s 1 d (x &&& im) ∧ GivesReg (.andLong d a l) s 1 d (x &&& il)
      ∧ GivesReg (.orImm d a m) s 1 d (x ||| im) ∧ GivesReg (.orLong d a l) s 1 d (x ||| il)
      ∧ GivesReg (.xorImm d a m) s 1 d (x ^^^ im) ∧ GivesReg (.xorLong d a l) s 1 d (x ^^^ il)
      ∧ GivesReg (.shlImm d a c) s 1 d (x <<< n) ∧ GivesReg (.shrImm d a c) s 1 d (x >>> n)
      ∧ GivesReg (.sraImm d a c) s 1 d (x.sshiftRight n)
      ∧ GivesReg (.rotImm d a c) s 1 d (x <<< n ||| x >>> (64 - n))

/-- R126, R122: LEA. -/
def Obligations.LeaSumOrAddressFault : Prop :=
  ∀ (s : State) (d : BitVec 5) (a : Src) (m : BitVec 14) (l : BitVec 46),
    let lea := fun (i : Instr) (v : Word) =>
      (v.toNat < 2 ^ 56 → GivesReg i s 1 d v) ∧
      (2 ^ 56 ≤ v.toNat → s.me.uc = none → s.me.status = .running →
        ∃ t r, exec i s = .next t ∧ t.me.call = some (.fault r) ∧ r.cause = .addrRange ∧ r.addr = v
          ∧ r.rpc = s.me.pc ∧ r.slot = 0 ∧ t.me.status = .freezing
          ∧ { t.me with status := s.me.status, call := s.me.call, frozenAt := s.me.frozenAt } = s.me
          ∧ Elsewhere s.cur s t)
    lea (.lea d a m) (s.sval a + m.signExtend 64) ∧ lea (.leaLong d a l) (s.sval a + l.signExtend 64)

/-- R128: BFX and BFI, bit by bit. -/
def Obligations.BitFieldResults : Prop :=
  ∀ (s : State) (d : BitVec 5) (a : Src) (w p : BitVec 6),
    w.toNat + 1 + p.toNat ≤ 64 →
    let x := s.sval a
    let o := s.me.reg d.toNat
    (∃ v : Word, GivesReg (.bfx d a w p) s 1 d v
        ∧ ∀ k, k < 64 → v.getLsbD k = (decide (k ≤ w.toNat) && x.getLsbD (k + p.toNat)))
      ∧ ∃ v : Word, GivesReg (.bfi d a w p) s 1 d v
        ∧ ∀ k, k < 64 → v.getLsbD k =
          (if p.toNat ≤ k ∧ k ≤ p.toNat + w.toNat then x.getLsbD (k - p.toNat) else o.getLsbD k)

/-- Table 5-4 on 64-bit values. -/
def Sys2Proof.Machine.condOf (c : Cond) (x y : Word) : Bool :=
  match c with
  | .eq => decide (x = y)
  | .ne => decide (x ≠ y)
  | .lt => decide (x.toInt < y.toInt)
  | .ge => decide (y.toInt ≤ x.toInt)
  | .ltu => decide (x.toNat < y.toNat)
  | .geu => decide (y.toNat ≤ x.toNat)
  | .tst => decide (x &&& y ≠ 0)
  | .ntst => decide (x &&& y = 0)

/-- R132 with a NaN operand. -/
def Sys2Proof.Machine.fcondNan (c : FCond) : Bool :=
  match c with
  | .ne | .un => true
  | _ => false

/-- The order of two numbers, by value: -0 equals +0. -/
def Sys2Proof.Machine.FVal.below (x y : FVal) : Bool :=
  match x, y with
  | .inf a, .inf b => a && !b
  | .inf a, .fin .. => a
  | .fin .., .inf b => !b
  | .fin a k e, .fin b l f =>
    let scaled := fun (n : Bool) (k : Nat) (e : Int) => (if n then -1 else 1) * ((k : Int) * 2 ^ (e - min e f).toNat)
    decide (scaled a k e < scaled b l f)
  | _, _ => false

/-- R132 with two numbers: the comparison that each condition names. -/
def Sys2Proof.Machine.fcondNum (c : FCond) (x y : FVal) : Bool :=
  match c with
  | .eq => !x.below y && !y.below x
  | .ne => x.below y || y.below x
  | .lt => x.below y
  | .ge => !x.below y
  | .le => !y.below x
  | .gt => y.below x
  | .un => false
  | .ord => true

/-- R129, R132: the integer comparisons, and FCMP. -/
def Obligations.CompareResults : Prop :=
  ∀ (s : State) (p : BitVec 3) (a b : Src) (c : Cond) (m : BitVec 14) (l : BitVec 46) (f : FCond),
    GivesPred (.cmp p a b c) s p (condOf c (s.sval a) (s.sval b)) {}
      ∧ GivesPred (.cmpImm c p a m) s p (condOf c (s.sval a) (m.signExtend 64)) {}
      ∧ GivesPred (.cmpLong c p a l) s p (condOf c (s.sval a) (l.signExtend 64)) {}
      ∧ GivesPred (.fcmp p a b f) s p
          (if (s.sfval a).isNan || (s.sfval b).isNan then fcondNan f else fcondNum f (s.sfval a) (s.sfval b))
          { nv := (s.sfval a).isSig || (s.sfval b).isSig }

/-- What a rounding of the CC draws: one word of RNGS_CC in mode SR, and nothing else (R62). -/
def Sys2Proof.Machine.drawOf (s : State) (m : RMode) : Nat × BitVec 32 :=
  match m with
  | .sr => ((xorshift s.me.rngCc).toNat, xorshift s.me.rngCc)
  | _ => (0, s.me.rngCc)

/-- The default NaN with NV (R59). -/
def Sys2Proof.Machine.Invalid (r : Nat × FFlags) : Prop := r = (0x7FC00000, { nv := true })

/-- The default NaN without a flag. -/
def Sys2Proof.Machine.Quiet (r : Nat × FFlags) : Prop := r = (0x7FC00000, {})

/-- R130, R131, R48. A result is one rounding (`FFmt.round`, R59-R61) of an exact value. The parts after the forms say of
which value a sum, a product and an FFMA are the rounding, which sign an exact zero has, and what special values give. -/
def Obligations.FloatingPointResults : Prop :=
  ∀ (s : State) (d : BitVec 5) (a b : Src) (m : RMode),
    let x := s.sfval a
    let y := s.sfval b
    let z := s.sfval (.reg d)
    let w := (drawOf s m).1
    let g := (drawOf s m).2
    let g0 := s.me.rngCc
    let v := fun (r : Nat × FFlags) => (BitVec.ofNat 64 r.1, r.2)
    let narrow := fun (f : FFmt) => v (f.round m w x)
    let wide := fun (f : FFmt) => v (fp32.round .rne 0 (f.decode ((s.sval a).toNat % 2 ^ f.bits)))
    let sum := fAdd fp32 m w x y
    let diff := fSub fp32 m w x y
    let prod := fMul fp32 m w x y
    let fma := fFma fp32 m w x y z
    let lo := fp32.finish .rne 0 (fMinMax false x y)
    let hi := fp32.finish .rne 0 (fMinMax true x y)
    let exact := fun (u : FVal) => fp32.round .rne 0 u
    let zero := fun (n : Bool) => ((if n then 2 ^ 31 else 0 : Nat), ({} : FFlags))
    (GivesFp (.fadd d a b m) s 3 d (v sum) g ∧ GivesFp (.fsub d a b m) s 3 d (v diff) g
      ∧ GivesFp (.fmul d a b m) s 3 d (v prod) g ∧ GivesFp (.ffma d a b m) s 3 d (v fma) g
      ∧ GivesFp (.fmin d a b) s 1 d (v lo) g0 ∧ GivesFp (.fmax d a b) s 1 d (v hi) g0)
    ∧ (GivesFp (.fcvtBf16F32 d a m) s 1 d (narrow bf16) g ∧ GivesFp (.fcvtFp16F32 d a m) s 1 d (narrow fp16) g
      ∧ GivesFp (.fcvtE4m3F32 d a m) s 1 d (narrow e4m3) g ∧ GivesFp (.fcvtE5m2F32 d a m) s 1 d (narrow e5m2) g
      ∧ GivesFp (.fcvtF32Bf16 d a) s 1 d (wide bf16) g0 ∧ GivesFp (.fcvtF32Fp16 d a) s 1 d (wide fp16) g0
      ∧ GivesFp (.fcvtF32E4m3 d a) s 1 d (wide e4m3) g0 ∧ GivesFp (.fcvtF32E5m2 d a) s 1 d (wide e5m2) g0
      ∧ GivesFp (.fcvtF32I64 d a m) s 1 d (v (fp32.round m w (intVal (s.sval a).toInt))) g
      ∧ ∃ r : Int × FFlags, GivesFp (.fcvtI64F32 d a m) s 1 d (BitVec.ofInt 64 r.1, r.2) g
          ∧ -(2 ^ 63) ≤ r.1 ∧ r.1 < 2 ^ 63 ∧ (x.isNan → r = (0, { nv := true }))
          ∧ (∀ n, x = .inf n → r = (if n then -(2 ^ 63) else 2 ^ 63 - 1, { nv := true }))
          ∧ ∀ n k e, x = .fin n k e →
              let i := roundTo m w n k e 0
              let j : Int := if n then -i.1 else i.1
              r = if j < -(2 ^ 63) then (-(2 ^ 63), { nv := true })
                else if 2 ^ 63 ≤ j then (2 ^ 63 - 1, { nv := true }) else (j, { nx := i.2 }))
    ∧ (∀ n, x = .inf n → (y = .inf (!n) → Invalid sum) ∧ (y = .inf n → Invalid diff))
    ∧ (x.isZero ∧ y.isInf ∨ x.isInf ∧ y.isZero → Invalid prod ∧ Invalid fma)
    ∧ (∀ n k, x = .inf n → y = .inf k → z = .inf (n == k) → Invalid fma)
    ∧ (x.isSig ∨ y.isSig → Invalid sum ∧ Invalid diff ∧ Invalid prod ∧ Invalid fma ∧ Invalid lo ∧ Invalid hi)
    ∧ (z.isSig → Invalid fma)
    ∧ (∀ n k e n' k' e', x = .fin n k e → y = .fin n' k' e' →
        let q := min e e'
        let at_ := fun (n : Bool) (k : Nat) (e : Int) => (if n then -1 else 1) * ((k : Int) * 2 ^ (e - q).toNat)
        let i := at_ n k e + at_ n' k' e'
        let j := at_ n k e - at_ n' k' e'
        (i ≠ 0 → sum = fp32.round m w (.fin (decide (i < 0)) i.natAbs q))
          ∧ (j ≠ 0 → diff = fp32.round m w (.fin (decide (j < 0)) j.natAbs q))
          ∧ (i = 0 → sum = zero (if n = n' then n else decide (m = .rd)))
          ∧ (j = 0 → diff = zero (if n = !n' then n else decide (m = .rd)))
          ∧ prod = fp32.round m w (.fin (n != n') (k * k') (e + e'))
          ∧ (∀ n'' k'' e'', z = .fin n'' k'' e'' →
            let u := min (e + e') e''
            let p := (if n = n' then 1 else -1) * (((k * k' : Nat) : Int) * 2 ^ (e + e' - u).toNat)
            let h := p + (if n'' then -1 else 1) * ((k'' : Int) * 2 ^ (e'' - u).toNat)
            (h ≠ 0 → fma = fp32.round m w (.fin (decide (h < 0)) h.natAbs u))
              ∧ (h = 0 → fma = zero (if (n != n') = n'' then n'' else decide (m = .rd))))
          ∧ ∀ l, z = .inf l → fma = exact (.inf l))
    ∧ (¬ x.isNan → ¬ y.isNan →
        (∀ n, (x = .inf n → y ≠ .inf (!n) → sum = exact (.inf n)) ∧ (y = .inf n → x ≠ .inf (!n) → sum = exact (.inf n))
          ∧ (x = .inf n → y ≠ .inf n → diff = exact (.inf n)) ∧ (y = .inf n → x ≠ .inf n → diff = exact (.inf (!n))))
        ∧ (x.isInf ∨ y.isInf → ¬ x.isZero → ¬ y.isZero → prod = exact (.inf (x.sign != y.sign))
            ∧ (¬ z.isNan → z ≠ .inf (x.sign == y.sign) → fma = exact (.inf (x.sign != y.sign)))))
    ∧ (x.isNan ∨ y.isNan → ¬ x.isSig → ¬ y.isSig → Quiet sum ∧ Quiet diff ∧ Quiet prod ∧ (¬ z.isSig → Quiet fma))
    ∧ (z = .nan false → ¬ x.isNan → ¬ y.isNan → ¬ (x.isZero ∧ y.isInf) → ¬ (x.isInf ∧ y.isZero) → Quiet fma)
    ∧ (¬ x.isNan → ¬ y.isNan → (lo = exact x ∨ lo = exact y) ∧ (hi = exact x ∨ hi = exact y)
        ∧ (x.le y → lo = exact x ∧ hi = exact y) ∧ (¬ x.le y → lo = exact y ∧ hi = exact x))
    ∧ (x = .nan false → ¬ y.isNan → lo = exact y ∧ hi = exact y) ∧ (y = .nan false → ¬ x.isNan → lo = exact x ∧ hi = exact x)
    ∧ (sum.1 < 2 ^ 32 ∧ diff.1 < 2 ^ 32 ∧ prod.1 < 2 ^ 32 ∧ fma.1 < 2 ^ 32 ∧ lo.1 < 2 ^ 32 ∧ hi.1 < 2 ^ 32)
    ∧ ((bf16.round m w x).1 < 2 ^ 16 ∧ (fp16.round m w x).1 < 2 ^ 16 ∧ (e4m3.round m w x).1 < 2 ^ 8
      ∧ (e5m2.round m w x).1 < 2 ^ 8)

/-- Control goes to `target` with the register `d` at `v`, or, outside 0-8,191, the core calls for a fault. -/
def Sys2Proof.Machine.Transfers (i : Instr) (s : State) (target : Int) (f : Core → Core) (chk : State → Prop) : Prop :=
  (0 ≤ target ∧ target < 8192 → ∃ t, exec i s = .next t ∧ Jumped s t target.toNat f ∧ chk t)
  ∧ (target < 0 ∨ 8192 ≤ target → s.me.uc = none → s.me.status = .running →
      ∃ t r, exec i s = .next t ∧ t.me.call = some (.fault r) ∧ r.cause = .illegalInsn ∧ r.rpc = s.me.pc
        ∧ { t.me with status := s.me.status, call := s.me.call, frozenAt := s.me.frozenAt } = s.me
        ∧ Elsewhere s.cur s t)

/-- R133, R134, Table 6-4. -/
def Obligations.ControlTransferTargets : Prop :=
  ∀ (s : State) (d : BitVec 5) (a b : Src) (p : BitVec 3) (n : Bool) (off : BitVec 19) (m : BitVec 14),
    let pc : Int := s.me.pc
    let acts := s.me.pred p.toNat != n
    let v := s.me.reg d.toNat
    let r31 := fun (c : Core) => { c with regs := s.me.regs }
    let all := fun (_ : State) => True
    Transfers (.jmp a) s (s.sval a).toNat id all ∧ Transfers .ret s (s.me.reg 31).toNat id all
      ∧ Transfers (.brx a b) s (pc + 1 + Nat.min (s.sval a).toNat (s.sval b).toNat) id all
      ∧ (if acts then Transfers (.br p n off) s (pc + off.toInt) id all
          ∧ Transfers (.call p n off) s (pc + off.toInt) r31 fun t => RegTakes s t 31 (BitVec.ofNat 64 (s.me.pc + 1))
        else (∃ t, exec (.br p n off) s = .next t ∧ Issued s t 1 id) ∧ ∃ t, exec (.call p n off) s = .next t ∧ Issued s t 1 id)
      ∧ (if v = 0 then ∃ t, exec (.loop d m) s = .next t ∧ Issued s t 1 id
        else if v = 1 then GivesReg (.loop d m) s 1 d 0
        else Transfers (.loop d m) s (pc + m.toInt) r31 fun t => RegTakes s t d (v - 1))

/-- A request is in flight as `k` says: its counter has risen, its destination is pending, and nothing else of the
core has changed but the tags. -/
def Sys2Proof.Machine.Sends (i : Instr) (s : State) (k : AccKind) (sp : Bool) (ea size : Nat) : Prop :=
  ∃ t x, exec i s = .next t ∧ t.me.inflight = s.me.inflight ++ [x]
    ∧ (x.kind = k ∧ x.sp = sp ∧ x.addr = ea ∧ x.size = size ∧ x.at_ = s.frameClk ∧ x.lim = s.dev.rsplim.toNat)
    ∧ (x.held = false ∧ x.sent = false ∧ x.err = none ∧ x.retried = false ∧ x.hWins = false ∧ x.wants = false
      ∧ x.applied = false)
    ∧ t.me.ld = s.me.ld + (if k.counter = some true then 1 else 0)
    ∧ t.me.st = s.me.st + (if k.counter = some false then 1 else 0)
    ∧ (∀ d, k.dest = some d → d ≠ 0 → d < 32 → t.me.isPend d)
    ∧ (∀ r, some r ≠ k.dest → t.me.isPend r = s.me.isPend r)
    ∧ Issued s t 1 fun c => { c with inflight := s.me.inflight, nextTag := s.me.nextTag, ld := s.me.ld
                                     st := s.me.st, pend := s.me.pend }

/-- An aligned range of a space, which no armed watermark meets (R70, R71, R88, R196). -/
def Sys2Proof.Machine.Reachable (s : State) (sp : Bool) (ea size : Nat) : Prop :=
  ea % size = 0 ∧ (if sp then ea + size ≤ 2 ^ 21 ∧ s.me.guarded 3 ea size = false else ea + size ≤ 2 ^ 56)

/-- R135, R136, R137, R226; the limit of R325 that a request carries is RSPLIM as it stands at the issue. -/
def Obligations.AccessWordsSendOneRequest : Prop :=
  (∀ (s : State) (d base : BitVec 5) (off : BitVec 13) (sz : BitVec 2) (sp : Bool),
    let ea := (s.me.reg base.toNat + off.signExtend 64).toNat
    let n := 2 ^ sz.toNat
    Reachable s sp ea n →
      (s.me.ld < 255 → Sends (.ld d base off sz sp) s (.load d.toNat true) sp ea n
        ∧ Sends (.ldU d base off sz sp) s (.load d.toNat false) sp ea n)
      ∧ (s.me.st < 255 → Sends (.st d base off sz sp) s (.store ((s.me.reg d.toNat).toNat % 2 ^ (8 * n))) sp ea n))
  ∧ (∀ (s : State) (cnt base : BitVec 5) (off : BitVec 13) (sp : Bool),
    let ea := (s.me.reg base.toNat + off.signExtend 64).toNat
    let at_ := if sp then ea < 2 ^ 21 ∧ (s.me.tileSp ea).isSome else ea < 2 ^ 56 ∧ (tlbHit s.me.tlb s.me.region ea).isSome
    s.me.ld < 255 → (at_ → s.me.uc = none → Sends (.pref cnt base off sp) s (.pref cnt.toNat) sp ea 1)
      ∧ (¬ at_ → ∃ t, exec (.pref cnt base off sp) s = .next t ∧ Issued s t 1 id))
  ∧ (∀ (s : State) (d : BitVec 5) (a b : Src) (u w : Bool) (sc : Scope),
    let ea := (s.sval a).toNat
    let n := if w then 4 else 8
    let v := (s.sval b).toNat % 2 ^ (8 * n)
    let old := (s.me.reg d.toNat).toNat % 2 ^ (8 * n)
    let amo := fun (i : Instr) (op : Nat) (u : Bool) => Sends i s (.amo d.toNat op u v) false ea n
    Reachable s false ea n → s.me.st < 255 → s.me.uc = none →
      amo (.amoAdd d a b w sc) 0 false ∧ amo (.amoMin d a b u w sc) 1 u ∧ amo (.amoMax d a b u w sc) 2 u
        ∧ amo (.amoAnd d a b w sc) 3 false ∧ amo (.amoOr d a b w sc) 4 false ∧ amo (.amoXor d a b w sc) 5 false
        ∧ amo (.amoSwap d a b w sc) 6 false ∧ Sends (.cas d a b w sc) s (.cas d.toNat old v) false ea n)
  ∧ ∀ (s : State) (d : BitVec 5) (a b : Src) (w : Window),
    vget s.me.win none (s.sval a).toNat = some w → (s.sval b).toNat < w.size / w.tile →
      Sends (.wquery d a b) s (.wquery d.toNat (s.sval a).toNat (s.sval b).toNat) false 0 0

/-- The core has raised a fault of its S word and nothing else has changed. -/
def Sys2Proof.Machine.RaisesS (i : Instr) (s : State) (cause : Cause) (addr : Nat) : Prop :=
  ∃ t r, exec i s = .next t ∧ t.me.call = some (.fault r) ∧ r.cause = cause ∧ r.addr.toNat = addr ∧ r.slot = 0
    ∧ r.rpc = s.me.pc ∧ t.me.status = .freezing
    ∧ { t.me with status := s.me.status, call := s.me.call, frozenAt := s.me.frozenAt } = s.me ∧ Elsewhere s.cur s t

/-- R122: the address checks of loads, stores and atomics. -/
def Obligations.MisalignedAccessFaultsBeforeRange : Prop :=
  ∀ (s : State) (d base : BitVec 5) (off : BitVec 13) (sz : BitVec 2) (sp : Bool) (a b : Src) (w : Bool) (sc : Scope),
    s.me.status = .running → s.me.uc = none →
    let ea := (s.me.reg base.toNat + off.signExtend 64).toNat
    let n := 2 ^ sz.toNat
    let va := (s.sval a).toNat
    let m := if w then 4 else 8
    let past := fun (sp : Bool) (x k : Nat) => if sp then 2 ^ 21 < x + k else 2 ^ 56 < x + k
    let cause := if sp then Cause.spadRange else Cause.addrRange
    (ea % n ≠ 0 → RaisesS (.ld d base off sz sp) s .align ea ∧ RaisesS (.ldU d base off sz sp) s .align ea
        ∧ RaisesS (.st d base off sz sp) s .align ea)
      ∧ (ea % n = 0 → past sp ea n → RaisesS (.ld d base off sz sp) s cause ea ∧ RaisesS (.ldU d base off sz sp) s cause ea
        ∧ RaisesS (.st d base off sz sp) s cause ea)
      ∧ (va % m ≠ 0 → RaisesS (.amoAdd d a b w sc) s .align va ∧ RaisesS (.cas d a b w sc) s .align va)
      ∧ (va % m = 0 → past false va m → RaisesS (.amoAdd d a b w sc) s .addrRange va ∧ RaisesS (.cas d a b w sc) s .addrRange va)

/-- Access `k` of core `n` is one to the core's own scratchpad that nothing holds up. -/
def Sys2Proof.Machine.OwnAccess (s : State) (n k : Nat) (a : Access) : Prop :=
  (s.core n).inflight[k]? = some a ∧ a.sp = true ∧ a.held = false ∧ a.sent = false ∧ a.err = none ∧ a.atSrc = false
    ∧ (s.core n).uc = none ∧ (s.core n).tiles = [] ∧ (∀ w, w ∈ (s.core n).buf → w.tag ≠ some a.tag)
    ∧ ∀ b, b ∈ (s.core n).inflight.take k → b.sp = false ∨ b.addr + b.size ≤ a.addr ∨ a.addr + a.size ≤ b.addr

/-- R135, R27: scratchpad accesses outside windows. -/
def Obligations.ScratchpadLoadAndStorePerform : Prop :=
  ∀ (s : State) (n k : Nat) (a : Access), OwnAccess s n k a →
    let c := s.core n
    (∀ d sx, a.kind = .load d sx → 0 < d → d < 32 → a.hWins = false → a.size = 1 ∨ a.size = 2 ∨ a.size = 4 ∨ a.size = 8 →
      let bits := BitVec.ofNat (8 * a.size) (c.spad.rdN a.addr a.size)
      ∃ t, exec (.loadCompletion n k) s = .next t
        ∧ (t.core n).reg d = (if sx then bits.signExtend 64 else bits.setWidth 64)
        ∧ (∀ r, r ≠ d → (t.core n).reg r = c.reg r)
        ∧ (t.core n).inflight = c.inflight.eraseIdx k ∧ (t.core n).ld = c.ld - 1
        ∧ { t.core n with regs := c.regs, pend := c.pend, inflight := c.inflight, ld := c.ld } = c ∧ Elsewhere n s t)
    ∧ ∀ v, a.kind = .store v →
      ∃ t, exec (.writePerformed n k) s = .next t
        ∧ (∀ x, (t.core n).spad.rd x =
            if a.addr ≤ x ∧ x < a.addr + a.size then BitVec.ofNat 8 (v / 256 ^ (x - a.addr)) else c.spad.rd x)
        ∧ (t.core n).inflight = c.inflight.eraseIdx k ∧ (t.core n).st = c.st - 1
        ∧ { t.core n with spad := c.spad, inflight := c.inflight, st := c.st } = c ∧ Elsewhere n s t

/-- Bytes within one line of memory here that the die of core `n` reaches; the copy has the line, or a way for it. -/
def Sys2Proof.Machine.HereAt (s : State) (n dom pa size : Nat) : Prop :=
  n < 88 ∧ paDev pa = s.fab.fabId ∧ s.memUp (dieOf n) pa = true ∧ s.room dom pa = true
    ∧ 0 < size ∧ pa % 128 + size ≤ 128

/-- No window, poisoned range, remote holder, counted line, undercoat launch or buffered write in the machine. -/
def Sys2Proof.Machine.Plain (s : State) : Prop :=
  s.dir = [] ∧ s.poison = [] ∧ s.snoop = [] ∧ (∀ l, l ∈ s.lines → l.rc = none) ∧ s.cp.ucs = []
    ∧ ∀ p, p ∈ s.cores → p.2.buf = []

/-- The oldest access of core `n` is to global memory here, and nothing holds it up. -/
def Sys2Proof.Machine.PlainAccess (s : State) (n : Nat) (a : Access) (e : TlbEnt) : Prop :=
  (s.core n).inflight[0]? = some a ∧ a.sp = false ∧ a.held = false ∧ a.sent = false ∧ a.err = none ∧ a.atSrc = false
    ∧ s.frameClk < a.at_ + a.lim / 2 ∧ (s.core n).uc = none ∧ (s.core n).hold = false ∧ tlbHit (s.core n).tlb (s.core n).region a.addr = some e ∧ Plain s
    ∧ HereAt s n (domOf e.reach (dieOf n)) (e.pa + a.addr % 2 ^ e.lg) a.size

/-- What an atomic of Table 5-5 leaves at its location (R137). -/
def Sys2Proof.Machine.amoResult (op : Nat) (u : Bool) (n : Nat) (old b : Nat) : Nat :=
  let less := if u then old < b else (BitVec.ofNat (8 * n) old).toInt < (BitVec.ofNat (8 * n) b).toInt
  if op = 0 then (old + b) % 2 ^ (8 * n)
  else if op = 1 then (if less then old else b)
  else if op = 2 then (if less then b else old)
  else if op = 3 then Nat.land old b
  else if op = 4 then Nat.lor old b
  else if op = 5 then Nat.xor old b
  else b

/-- R135, R137: accesses to global memory outside windows. -/
def Obligations.GlobalLoadStoreAndAtomicPerform : Prop :=
  ∀ (s : State) (n : Nat) (a : Access) (e : TlbEnt), PlainAccess s n a e →
    let c := s.core n
    let pa := e.pa + a.addr % 2 ^ e.lg
    let dom := domOf e.reach (dieOf n)
    let old := s.phNat dom pa a.size
    let byteOf := fun (v k : Nat) => [BitVec.ofNat 8 (v / 256 ^ k)]
    let stored := fun (t : State) (v : Nat) =>
      (∀ k, k < a.size → t.phRead dom (pa + k) 1 = byteOf v k)
        ∧ ∀ q x, (x < pa ∨ pa + a.size ≤ x) → t.phRead q x 1 = s.phRead q x 1
    let core := fun (t : State) =>
      { t.core n with regs := c.regs, pend := c.pend, inflight := c.inflight, ld := c.ld, st := c.st
                      locator := c.locator } = c
        ∧ (t.core n).inflight = c.inflight.tail ∧ ∀ m, m ≠ n → t.core m = s.core m
    let gives := fun (t : State) (d : Nat) (v : Word) =>
      (0 < d → d < 32 → a.hWins = false → (t.core n).reg d = v) ∧ ∀ r, r ≠ d → (t.core n).reg r = c.reg r
    let read := fun (sx : Bool) =>
      if sx then (BitVec.ofNat (8 * a.size) old).signExtend 64 else BitVec.ofNat 64 old
    (∀ d sx, a.kind = .load d sx → ∃ t, exec (.loadCompletion n 0) s = .next t ∧ gives t d (read sx)
        ∧ core t ∧ (t.core n).ld = c.ld - 1 ∧ ∀ q x, t.phRead q x 1 = s.phRead q x 1)
    ∧ (e.w = true →
      (∀ v, a.kind = .store v → ∃ t, exec (.writePerformed n 0) s = .next t ∧ stored t v ∧ core t
        ∧ (t.core n).regs = c.regs ∧ (t.core n).st = c.st - 1)
      ∧ (∀ d op u b, a.kind = .amo d op u b → op ≤ 6 → ∃ t, exec (.writePerformed n 0) s = .next t
        ∧ stored t (amoResult op u a.size old b) ∧ gives t d (BitVec.ofNat 64 old) ∧ core t ∧ (t.core n).st = c.st - 1)
      ∧ ∀ d x v, a.kind = .cas d x v → ∃ t, exec (.writePerformed n 0) s = .next t
        ∧ (if old = x then stored t v else ∀ q y, t.phRead q y 1 = s.phRead q y 1)
        ∧ gives t d (BitVec.ofNat 64 old) ∧ core t ∧ (t.core n).st = c.st - 1)

/-- The bundle is held: only the stall note has changed. -/
def Sys2Proof.Machine.Held (s t : State) (why : StallCause) : Prop :=
  t.me.stall = why ∧ t.me.tried = true ∧ { t.me with stall := s.me.stall, tried := s.me.tried } = s.me
    ∧ Elsewhere s.cur s t

/-- R96, R138, R139, R152. -/
def Obligations.OrderingWordsWaitAndIssue : Prop :=
  ∀ (s : State) (sc : Scope) (d : BitVec 5) (m : BitVec 4) (lim : BitVec 8) (a b : Src),
    let c := s.me
    let goes := fun (i : Instr) (ok : Prop) (why : StallCause) =>
      (ok → ∃ t, exec i s = .next t ∧ Issued s t 1 id) ∧ (¬ ok → ∃ t, exec i s = .next t ∧ Held s t why)
    let low := fun (k v : Nat) => m.getLsbD k = true → v ≤ lim.toNat
    (∃ t, exec .nop s = .next t ∧ Issued s t 1 id)
      ∧ goes (.acq sc) (c.readsPerformed = true) .order ∧ goes (.rel sc) (c.performed sc = true) .order
      ∧ goes (.waitc m lim) (low 0 c.ld ∧ low 1 c.st ∧ low 2 c.cp ∧ low 3 c.tl) .waitc
      ∧ (c.performed sc = true → ∃ t, exec (.fence d sc) s = .next t ∧ RegTakes s t d c.failRec ∧ t.me.failRec = 0
          ∧ Issued s t 1 fun x => { x with regs := c.regs, failRec := c.failRec })
      ∧ (c.performed sc = false → ∃ t, exec (.fence d sc) s = .next t ∧ Held s t .order)
      ∧ (c.fmtq.length < 16 → ∃ t, exec (.fqpush a b) s = .next t ∧ t.me.fmtq = c.fmtq ++ [s.sval b ++ s.sval a]
          ∧ Issued s t 1 fun x => { x with fmtq := c.fmtq })
      ∧ (16 ≤ c.fmtq.length → ∃ t, exec (.fqpush a b) s = .next t ∧ Held s t .queueFull)

/-- R140, R141. -/
def Obligations.WaitaAndWaitqCompareAndGoOn : Prop :=
  (∀ (s : State) (d : BitVec 5) (a b : Src) (sc : Scope),
    let off := (s.sval a).toNat
    let v := s.me.spad.rdN off 8
    off % 8 = 0 → off + 8 ≤ 2 ^ 21 → s.me.tiles = [] → s.me.guarded 3 off 8 = false →
      ((s.sval b).toNat ≤ v → ∃ t, exec (.waita d a b sc) s = .next t ∧ Issued s t 1 id)
      ∧ (v < (s.sval b).toNat → ∃ t, exec (.waita d a b sc) s = .next t ∧ t.me.waitAt = some (s.me.waitAt.getD s.me.sched)
          ∧ t.me.waitVals = (BitVec.ofNat 64 v, s.sval b) ∧ t.me.tried = true
          ∧ { t.me with stall := s.me.stall, tried := s.me.tried, waitAt := s.me.waitAt, waitVals := s.me.waitVals } = s.me
          ∧ Elsewhere s.cur s t))
  ∧ ∀ (s t : State) (d : BitVec 5) (a b : Src) (v : List Byte),
    let va := (s.sval a).toNat
    let x := BitVec.ofNat 64 (leNat v)
    va % 16 = 0 → va + 16 ≤ 2 ^ 56 → s.me.uc = none →
      (s.me.qHead = none → s.rdA s.cur 3 false va 8 = .ok v t →
        exec (.waitq d a b) s = .next (t.upd fun c => { c with qHead := some x }))
      ∧ ∀ head, s.me.qHead = some head → s.rdA s.cur 3 false (va + 8) 8 = .ok v t →
        ((s.sval b).toNat ≤ (x - head).toNat → ∃ u, exec (.waitq d a b) s = .next u ∧ Issued t u 1 id)
        ∧ ((x - head).toNat < (s.sval b).toNat → ∃ u, exec (.waitq d a b) s = .next u ∧ u.me.qHead = none
            ∧ u.me.waitVals = (head, x) ∧ u.me.waitAt = some (t.me.waitAt.getD t.me.sched) ∧ u.me.tried = true
            ∧ { u.me with qHead := t.me.qHead, waitVals := t.me.waitVals, waitAt := t.me.waitAt, stall := t.me.stall
                          tried := t.me.tried } = t.me
            ∧ Elsewhere t.cur t u)

/-- A request of the S word reaches its block: location, domain, and the state with the translation kept. Its release is
one at PKG, clipped to the block's reach (Table 3-5). -/
def Sys2Proof.Machine.AtBlock (s : State) (va : Word) (align : Nat) (release wr : Bool) (pa dom : Nat) (t : State) : Prop :=
  va.toNat % align = 0 ∧ va.toNat + align ≤ 2 ^ 56 ∧ 0 < align ∧ s.me.uc = none ∧ s.me.sync = none
    ∧ s.blockAt s.cur va.toNat wr = .ok (pa, dom) t
    ∧ (release = true → t.me.performed (scopeMin .pkg (domScope dom)) = true)
    ∧ t.routePa t.cur pa ≠ .hold ∧ t.routePa t.cur pa ≠ .none ∧ t.isPoisoned pa align (dieOf t.cur) = false

/-- From `t` the bundle has sent its request and waits: the note of it, and nothing else of any core. -/
structure Sys2Proof.Machine.Waits (t u : State) (pa : Nat) (wait : Bool) : Prop where
  sent : u.me.sync = some { pa := pa, at_ := t.frameClk, lim := t.dev.rsplim.toNat, wait := wait }
  since : u.me.waitAt = some (t.me.waitAt.getD t.me.sched)
  me : { u.me with sync := t.me.sync, waitAt := t.me.waitAt, stall := t.me.stall, tried := t.me.tried } = t.me
  others : ∀ m, m ≠ t.cur → u.core m = t.core m

/-- `exec i` puts one request on its way to the home of its block, and nothing else changes. -/
def Sys2Proof.Machine.AsksHome (i : Instr) (s t : State) (va : Word) (pa dom : Nat) (wait : Bool) (op : HomeOp) : Prop :=
  ∃ u, exec i s = .next u ∧ Waits t u pa wait
    ∧ u.cp.posts = t.cp.posts ++ [{ pa := pa, dom := dom, va := va.toNat, core := s.cur, op := op }]
    ∧ { u with cores := t.cores, cp := { u.cp with posts := t.cp.posts } } = t

/-- R146, R147, R149, R150, R221. -/
def Obligations.BlockRequestsSendAndTakeReplies : Prop :=
  (∀ (s : State) (d : BitVec 5) (a b : Src) (w : Word) (q : SyncReq),
    s.me.uc = none → s.me.sync = some q → q.reply = some (.value w) →
    let at_ := fun (n : Nat) => (s.sval a).toNat % n = 0 ∧ (s.sval a).toNat + n ≤ 2 ^ 56
    (at_ 32 → GivesReg (.sbarv d a b) s 1 d w ∧ ∃ t, exec (.sbwait d a b) s = .next t ∧ Issued s t 1 id)
      ∧ (at_ 16 → GivesReg (.fget d a b) s 1 d w ∧ ∃ t, exec (.ffill a b) s = .next t ∧ Issued s t 1 id)
      ∧ (at_ 64 → ∃ t, exec (.join a) s = .next t ∧ Issued s t 1 id))
  ∧ (∀ (s : State) (d : BitVec 5) (a b : Src) (c : Cause) (w : Word) (q : SyncReq),
    s.me.uc = none → s.me.status = .running → s.me.sync = some q → q.reply = some (.fault c w) →
    let at_ := fun (n : Nat) => (s.sval a).toNat % n = 0 ∧ (s.sval a).toNat + n ≤ 2 ^ 56
    let raises := fun (i : Instr) => ∃ t r, exec i s = .next t ∧ t.me.call = some (.fault r) ∧ r.cause = c
      ∧ r.addr = s.sval a ∧ r.rpc = s.me.pc ∧ t.me.sync = none
      ∧ { t.me with status := s.me.status, call := s.me.call, frozenAt := s.me.frozenAt, sync := s.me.sync } = s.me
      ∧ Elsewhere s.cur s t
    (at_ 32 → raises (.sbarv d a b) ∧ raises (.sbwait d a b)) ∧ (at_ 16 → raises (.fget d a b) ∧ raises (.ffill a b))
      ∧ (at_ 64 → raises (.join a)))
  ∧ (∀ (s t : State) (d : BitVec 5) (a b : Src) (pa dom : Nat),
    let at_ := fun (n : Nat) (release wr : Bool) => AtBlock s (s.sval a) n release wr pa dom t
    let asks := fun (i : Instr) => AsksHome i s t (s.sval a) pa dom
    (at_ 32 true true → asks (.sbarv d a b) false (.arrive (s.sval b).toNat))
      ∧ (at_ 32 false false → asks (.sbwait d a b) true (.wait (s.sval b)))
      ∧ (at_ 16 true true → asks (.ffill a b) false (.fill (s.sval b)))
      ∧ (at_ 16 false true → asks (.fget d a b) true .get)
      ∧ (at_ 64 true true → ∃ u j, exec (.join a) s = .next u ∧ Waits t u pa false ∧ u.cp.joins = t.cp.joins ++ [j]
          ∧ (j.pa = pa ∧ j.dom = dom ∧ j.va = (s.sval a).toNat ∧ j.core = s.cur ∧ j.byDone = false)
          ∧ { u with cores := t.cores, cp := { u.cp with joins := t.cp.joins } } = t))

/-- The bundle of core `n` has the reply `r` of its home, and nothing else of any core changes. -/
def Sys2Proof.Machine.Replied (s t : State) (n : Nat) (r : Reply) : Prop :=
  (t.core n).sync = (s.core n).sync.map (fun q => { q with reply := some r })
    ∧ { t.core n with sync := (s.core n).sync, tried := (s.core n).tried } = s.core n ∧ ∀ m, m ≠ n → t.core m = s.core m

/-- The request of core `n` stands parked at block `pa` of a domain's copy. -/
def Sys2Proof.Machine.ParksAt (s t : State) (p : BarPost) (fut : Bool) : Prop :=
  t.cp.parks = s.cp.parks ++ [{ pa := p.pa, dom := p.dom, core := p.core, fut := fut }]
    ∧ (t.core p.core).sync = (s.core p.core).sync.map (fun q => { q with parked := true })
    ∧ { t.core p.core with sync := (s.core p.core).sync } = s.core p.core ∧ ∀ m, m ≠ p.core → t.core m = s.core m

/-- R145, R147, R149, R150: one request at a block whose home can take a step. `u` is the state after the sender's own
earlier writes to the block are performed (R77). -/
def Obligations.StageBarrierHomeStep : Prop :=
  ∀ (s u : State) (p : BarPost), s.cp.posts = [p] → p.core < 88 → s.homeReady p.core p.dom p.pa 32 = .ok () u →
    u.room p.dom p.pa = true → u.cp.posts = [p] →
    let rd := fun (x : State) (off n : Nat) => x.phNat p.dom (p.pa + off) n
    let goes := fun (f : State → Prop) => ∃ t, exec (.sbarHomeStep p.pa) s = .next t ∧ t.cp.posts = [] ∧ f t
    let kept := fun (t : State) => ∀ q x, t.phRead q x 1 = u.phRead q x 1
    (∀ k, p.op = .arrive k → p.pa % 32 = 0 →
      let left := rd u 12 4 - k
      let last := left = 0 ∧ rd u 24 8 = 0
      let phase := BitVec.ofNat 64 (rd u 0 8)
      (0 < k → k ≤ rd u 12 4 → goes fun t =>
        (last → rd t 0 8 = (rd u 0 8 + 1) % 2 ^ 64 ∧ rd t 12 4 = rd u 8 4 ∧ rd t 24 8 = rd u 16 8
            ∧ ∀ q, q ∈ t.cp.parks → q.fut = false → q.pa = p.pa → q.dom ≠ p.dom)
        ∧ (¬ last → rd t 0 8 = rd u 0 8 ∧ rd t 12 4 = left ∧ rd t 24 8 = rd u 24 8 ∧ t.cp.parks = u.cp.parks
            ∧ Replied u t p.core (.value phase))
        ∧ rd t 8 4 = rd u 8 4 ∧ rd t 16 8 = rd u 16 8
        ∧ ∀ q x, x < p.pa ∨ p.pa + 32 ≤ x → t.phRead q x 1 = u.phRead q x 1)
      ∧ (rd u 12 4 < k → goes fun t => Replied u t p.core (.fault .sbarOverrun 0) ∧ kept t ∧ t.cp.parks = u.cp.parks))
    ∧ (∀ b, p.op = .wait b →
      let phase := BitVec.ofNat 64 (rd u 0 8)
      (phase ≠ b → goes fun t => Replied u t p.core (.value phase) ∧ kept t ∧ t.cp.parks = u.cp.parks)
      ∧ (phase = b → goes fun t => ParksAt u t p false ∧ kept t))
    ∧ (∀ v, p.op = .fill v → p.pa % 16 = 0 →
      let st := rd u 8 8
      (st = 0 ∨ st = 2 → goes fun t => rd t 0 8 = v.toNat ∧ rd t 8 8 = 1
        ∧ (∀ q, q ∈ t.cp.parks → q.fut = true → q.pa = p.pa → q.dom ≠ p.dom)
        ∧ ∀ q x, x < p.pa ∨ p.pa + 16 ≤ x → t.phRead q x 1 = u.phRead q x 1)
      ∧ (st = 1 ∨ 3 ≤ st → goes fun t => Replied u t p.core (.fault .futureState 0) ∧ kept t
        ∧ t.cp.parks = u.cp.parks))
    ∧ (p.op = .get → p.pa % 16 = 0 →
      let st := rd u 8 8
      (st = 1 → goes fun t => Replied u t p.core (.value (BitVec.ofNat 64 (rd u 0 8))) ∧ kept t
        ∧ t.cp.parks = u.cp.parks)
      ∧ (st = 0 ∨ st = 2 → goes fun t => ParksAt u t p true ∧ rd t 8 8 = 2
        ∧ ∀ q x, x < p.pa + 8 ∨ p.pa + 16 ≤ x → t.phRead q x 1 = u.phRead q x 1)
      ∧ (3 ≤ st → goes fun t => Replied u t p.core (.fault .futureState 0) ∧ kept t ∧ t.cp.parks = u.cp.parks))

/-- R228, R229: reads of Table 10-7 and the writes that it allows. -/
def Obligations.SystemRegisterReadsAndWrites : Prop :=
  ∀ (s : State) (d : BitVec 5) (n : BitVec 12) (a : Src) (k : BitVec 6),
    let c := s.me
    let v := s.sval a
    let lo : BitVec 32 := v.setWidth 32
    let seed : BitVec 32 := if lo = 0 then 1 else lo
    (c.sysHeld n.toNat = false → GivesReg (.srd d n) s 1 d (s.sysReg s.cur n.toNat))
      ∧ (s.sysReg s.cur 0x003 = BitVec.ofNat 64 s.frameClk ∧ s.sysReg s.cur 0x004 = BitVec.ofNat 64 c.sched
          ∧ s.sysReg s.cur 0x002 = c.fstat ∧ s.sysReg s.cur 0x005 = c.rngCc.zeroExtend 64)
      ∧ (c.sysHeld n.toNat = false → c.shadowHeld n.toNat = false → n.toNat ≠ 0x201 → ∃ t, exec (.swr a n) s = .next t
          ∧ t.me.meShadow.asel = (if n = 0x010 then v.setWidth 4 else c.meShadow.asel)
          ∧ (∀ j, j < 16 → vget t.me.meShadow.tdesc 0 j =
              if n.toNat = 0x020 + j then v &&& 0x3FFFFF1F else vget c.meShadow.tdesc 0 j)
          ∧ (∀ j, j < 8 → (vget t.me.ch .zero j).shadow =
              if 0x080 + 0x20 * j ≤ n.toNat ∧ n.toNat < 0x0A0 + 0x20 * j then
                (vget c.ch .zero j).shadow.put (n.toNat % 0x20) v
              else (vget c.ch .zero j).shadow)
          ∧ Issued s t 1 fun x => { x with meShadow := c.meShadow, ch := c.ch })
      ∧ (∃ t, exec (.fstat a) s = .next t ∧ t.me.fstat = (c.fstat &&& ~~~v) ||| (c.fstat &&& c.posted)
          ∧ Issued s t 1 fun x => { x with fstat := c.fstat })
      ∧ (∃ t, exec (.rngs .cc a) s = .next t ∧ t.me.rngCc = seed ∧ Issued s t 1 fun x => { x with rngCc := c.rngCc })
      ∧ (c.tl = 0 → (∃ t, exec (.rngs .ve a) s = .next t ∧ t.me.rngVe = seed
            ∧ Issued s t 1 fun x => { x with rngVe := c.rngVe })
          ∧ ∃ t, exec (.rngs .me a) s = .next t ∧ t.me.rngMe = seed ∧ Issued s t 1 fun x => { x with rngMe := c.rngMe })
      ∧ (c.hu.cur = none → c.hu.queue = [] → ∃ t, exec (.tiesw k a) s = .next t
          ∧ (∀ j, j < 4096 → t.me.ties.getLsbD j =
              if 64 * k.toNat ≤ j ∧ j < 64 * k.toNat + 64 then v.getLsbD (j - 64 * k.toNat) else c.ties.getLsbD j)
          ∧ Issued s t 1 fun x => { x with ties := c.ties })

/-- R230: TRAP. -/
def Obligations.TrapRaisesAfterItsBundle : Prop :=
  ∀ (s : State) (a : Src), s.me.status = .running → s.me.uc = none →
    ∃ t r, exec (.trap a) s = .next t ∧ t.me.call = some (.fault r) ∧ r.cause = .trapSw ∧ r.info0 = s.sval a
      ∧ r.rpc = s.me.pc + 1 ∧ t.me.status = .freezing
      ∧ Issued s t 1 fun x => { x with status := s.me.status, call := s.me.call, frozenAt := s.me.frozenAt }

/-- R227, R231, R232, R233, R222. -/
def Obligations.LocalServiceWords : Prop :=
  ∀ (s : State) (d : BitVec 5) (a b : Src),
    let c := s.me
    let va := (s.sval a).toNat
    let f := (s.sval b).toNat
    (∃ t, exec (.trc a b) s = .next t ∧ (c.trace.active = false → t.me.trace = c.trace)
        ∧ Issued s t 1 fun x => { x with trace := c.trace })
      ∧ (va < 8 → (vget c.ch .zero va).chainOut = true → f % 128 = 0 → ∃ t, exec (.chtail a b) s = .next t
          ∧ (vget t.me.ch .zero va).tail = (s.sval b).setWidth 56
          ∧ (∀ j, j ≠ va → vget t.me.ch .zero j = vget c.ch .zero j) ∧ Issued s t 1 fun x => { x with ch := c.ch })
      ∧ (let gone := fun (e : TlbEnt) => e.region = c.region ∧ (f % 2 = 0 → va / 2 ^ e.lg * 2 ^ e.lg = e.va)
        c.uc = none →
        (c.sync = none → f ≤ 1 → (f = 0 → va < 2 ^ 56) → c.usesDone = false →
          ∃ t, exec (.tlbinv a b) s = .next t ∧ Held s t .wait)
        ∧ (c.sync = none → f ≤ 1 → (f = 0 → va < 2 ^ 56) → c.usesDone = true → ∃ t, exec (.tlbinv a b) s = .next t
          ∧ (∀ e, e ∈ t.me.tlb ↔ e ∈ c.tlb ∧ ¬ gone e)
          ∧ (∀ k e, e ∈ tabGet [] t.me.stlb k ↔ e ∈ tabGet [] c.stlb k ∧ ¬ gone e)
          ∧ Issued s t 1 fun x => { x with tlb := c.tlb, stlb := c.stlb })
        ∧ (c.sync = none → f = 2 ∨ f = 3 → (f = 2 → va < 2 ^ 56) → ∃ t q, exec (.tlbinv a b) s = .next t ∧ t.me.sync = some q
          ∧ q.reply = none ∧ q.after = s.usesOf c.region
          ∧ { t.me with sync := c.sync, stall := c.stall, tried := c.tried, waitAt := c.waitAt } = c ∧ Elsewhere s.cur s t)
        ∧ ∀ q w, c.sync = some q → q.reply = some (.value w) → ∃ t, exec (.tlbinv a b) s = .next t ∧ Issued s t 1 id)
      ∧ (∀ x y, s.vdie s.cur va = .bound x.1 x.2 → s.vdie s.cur f = .bound y.1 y.2 →
          ∃ t, exec (.dhop d a b) s = .next t
            ∧ RegTakes s t d (match s.hops s.cur x y with
              | some k => BitVec.ofNat 64 k
              | none => BitVec.allOnes 64)
            ∧ Issued s { t with draws := s.draws } 1 fun x => { x with regs := c.regs })
      ∧ (∀ e, f = 0 → va ≤ 1023 → s.vdtEntry s.cur va = .ok e → GivesReg (.vdie d a b) s 1 d (BitVec.ofNat 64 e))
      ∧ (c.uc = none → c.status = .running → ∃ t, exec .yield s = .next t
          ∧ (∀ r k, s.region? c.region = some r → s.freeSlot r = some k →
              t.me.call = some .yield ∧ t.me.status = .freezing)
          ∧ (∀ r, s.region? c.region = some r → s.freeSlot r = none → t.me.call = c.call ∧ t.me.status = .running)
          ∧ Issued s t 1 fun x => { x with status := c.status, call := c.call, frozenAt := c.frozenAt })

/-- The elements of a shape in a scratchpad. -/
def Sys2Proof.Machine.Shape.readIn (h : Shape) (m : Memory) : List Nat := h.elems (h.runs.map fun r => m.rdBytes r.1 r.2).flatten

/-- Byte runs written one after another. -/
def Sys2Proof.Machine.putRuns : List (Nat × Nat) → List Byte → Memory → Memory
  | [], _, m => m
  | (a, n) :: r, bs, m => putRuns r (bs.drop n) (m.wrBytes a (bs.take n))

/-- A scratchpad after a shape's elements are written, element 0 first. -/
def Sys2Proof.Machine.Shape.writeIn (h : Shape) (m : Memory) (vs : List Nat) : Memory := putRuns h.runs (h.bytes vs) m

/-- An engine whose step is done, with flags `fl`: at the next word of its micro-program, or at the end of its entry. -/
def Sys2Proof.Machine.Engine.stepped (e : Engine) (fl : BitVec 64) : Engine :=
  let e := { e with
    due := none, elem := 0, flags := e.flags ||| fl, outs := none, parts := [], limit := none, read := false
    ask := none, hit := false, fails := [] }
  if e.inProg then { e with upc := if 4095 ≤ e.upc then pastEnd else e.upc + 1 } else { e with finished := true }

/-- A step that has not begun, and that nothing will stop part-way. -/
def Sys2Proof.Machine.Engine.Fresh (e : Engine) : Prop :=
  e.elem = 0 ∧ e.outs = none ∧ e.parts = [] ∧ e.limit = none ∧ e.ask = none ∧ e.hit = false ∧ e.fails = []

/-- A step of the VE can run: at its start, no open window, no armed watermark, good shapes. -/
def Sys2Proof.Machine.VeReady (s : State) (hs : List Shape) : Prop :=
  s.me.tiles = [] ∧ (∀ off n, s.me.guarded 0 off n = false) ∧ s.me.ve.Fresh ∧ ∀ h, h ∈ hs → h.check = none

/-- A step of the VE is done: the scratchpad is `m`, the generator `x`, the flags `fl` are posted to the entry, the
engine stands at its next word or has finished its entry, and nothing else has changed. -/
def Sys2Proof.Machine.VeDone (i : Instr) (s : State) (m : Memory) (x : BitVec 32) (fl : BitVec 64) : Prop :=
  ∃ t, exec i s = .next t ∧ t.me.spad = m ∧ t.me.rngVe = x ∧ t.me.ve = s.me.ve.stepped fl
    ∧ { t.me with spad := s.me.spad, rngVe := s.me.rngVe, ve := s.me.ve } = s.me ∧ Elsewhere s.cur s t

/-- Every element of `hd` takes `f` of the elements of the sources, element for element, with lane words in mode SR. -/
def Sys2Proof.Machine.VeMaps (i : Instr) (s : State) (hd : Shape) (srcs : List Shape) (sr : Bool) (f : List Nat → Nat → Nat × FFlags) :
    Prop :=
  let n := hd.count
  let ls := srcs.map fun h => bcast n (h.readIn s.me.spad)
  let g := lanes sr s.me.rngVe n
  let rs := (List.range n).map fun j => f (ls.map fun l => l.getD j 0) (g.1.getD j 0)
  VeDone i s (hd.writeIn s.me.spad (rs.map (·.1))) g.2 (veFlags (joinAll rs))

/-- R157, R159: class I. -/
def Obligations.VectorIntegerSteps : Prop :=
  ∀ (s : State) (d a b : BitVec 4) (q : Src) (rm : RMode) (z : BitVec 3),
    let hd := s.shape d
    let ha := s.shape a
    let hb := s.shape b
    let qv := (s.ev .ve q).toInt
    let vv := fun (i : Instr) (f : Int → Int → Int) => VeMaps i s hd [ha, hb] false fun l _ =>
      (hd.wrap (f (ha.int (l.getD 0 0)) (hb.int (l.getD 1 0))), {})
    let vq := fun (i : Instr) (f : Int → Int → Int) => VeMaps i s hd [ha] false fun l _ =>
      (hd.wrap (f (ha.int (l.getD 0 0)) qv), {})
    let two := fun (f : BitVec 64 → BitVec 64 → BitVec 64) (x y : Int) => (f (BitVec.ofInt 64 x) (BitVec.ofInt 64 y)).toInt
    hd.isI = true → ha.isI = true → (ha.count = hd.count ∨ ha.count = 1) →
      (hb.isI = true → (hb.count = hd.count ∨ hb.count = 1) → VeReady s [hd, ha, hb] →
        vv (.vadd d a b rm) (· + ·) ∧ vv (.vsub d a b rm) (· - ·) ∧ vv (.vmul d a b rm) (· * ·)
          ∧ vv (.vmin d a b rm) min ∧ vv (.vmax d a b rm) max
          ∧ vv (.vand d a b z) (two (· &&& ·)) ∧ vv (.vor d a b z) (two (· ||| ·)) ∧ vv (.vxor d a b z) (two (· ^^^ ·))
          ∧ vv (.vshl d a b z) (fun x y => x * 2 ^ (y % 64).toNat) ∧ vv (.vshr d a b z) (fun x y => x / 2 ^ (y % 64).toNat))
      ∧ (q.isFloat = false → VeReady s [hd, ha] →
        vq (.vaddVs d a q rm) (· + ·) ∧ vq (.vsubVs d a q rm) (· - ·) ∧ vq (.vmulVs d a q rm) (· * ·)
          ∧ vq (.vminVs d a q rm) min ∧ vq (.vmaxVs d a q rm) max
          ∧ vq (.vandVs d a q z) (two (· &&& ·)) ∧ vq (.vorVs d a q z) (two (· ||| ·)) ∧ vq (.vxorVs d a q z) (two (· ^^^ ·))
          ∧ vq (.vshlVs d a q z) (fun x y => x * 2 ^ (y % 64).toNat) ∧ vq (.vshrVs d a q z) (fun x y => x / 2 ^ (y % 64).toNat))
      ∧ (VeReady s [hd, ha] → vq (.vabs d a rm) (fun x _ => (x.natAbs : Int)) ∧ vq (.vneg d a rm) (fun x _ => -x))

/-- R157, R158, R164: class F. -/
def Obligations.VectorFloatSteps : Prop :=
  ∀ (s : State) (d a b c : BitVec 4) (q : Src) (rm : RMode) (f : Trans),
    let hd := s.shape d
    let ha := s.shape a
    let hb := s.shape b
    let hc := s.shape c
    let sr := rm == .sr
    let x := fun (l : List Nat) => ha.flt (l.getD 0 0)
    let qv := fp32.decode (q.fval (s.cap .ve))
    let fits := fun (h : Shape) => h.isF = true ∧ (h.count = hd.count ∨ h.count = 1)
    let vv := fun (i : Instr) (g : FVal → FVal → FVal × FFlags) => VeMaps i s hd [ha, hb] sr fun l w =>
      hd.rnd rm w (g (x l) (hb.flt (l.getD 1 0)))
    let v1 := fun (i : Instr) (g : FVal → FVal × FFlags) => VeMaps i s hd [ha] sr fun l w => hd.rnd rm w (g (x l))
    hd.isF = true → fits ha →
      (fits hb → VeReady s [hd, ha, hb] →
        vv (.vadd d a b rm) (FVal.add rm) ∧ vv (.vsub d a b rm) (fun x y => FVal.add rm x y.neg)
          ∧ vv (.vmul d a b rm) FVal.mul ∧ vv (.vmin d a b rm) (fMinMax false) ∧ vv (.vmax d a b rm) (fMinMax true))
      ∧ (fits hb → fits hc → VeReady s [hd, ha, hb, hc] → VeMaps (.vfma d a b c rm) s hd [ha, hb, hc] sr fun l w =>
          let p := FVal.mul (x l) (hb.flt (l.getD 1 0))
          let r := FVal.add rm p.1 (hc.flt (l.getD 2 0))
          hd.rnd rm w (r.1, p.2.join r.2))
      ∧ (VeReady s [hd, ha] →
        (v1 (.vaddVs d a q rm) (FVal.add rm · qv) ∧ v1 (.vsubVs d a q rm) (fun x => FVal.add rm x qv.neg)
          ∧ v1 (.vmulVs d a q rm) (FVal.mul · qv) ∧ v1 (.vminVs d a q rm) (fMinMax false · qv)
          ∧ v1 (.vmaxVs d a q rm) (fMinMax true · qv))
        ∧ (v1 (.vabs d a rm) (fun x => (x.abs, {})) ∧ v1 (.vneg d a rm) (fun x => (x.neg, {})))
        ∧ (v1 (.vexp2 d a rm) (transF .exp2) ∧ v1 (.vlog2 d a rm) (transF .log2) ∧ v1 (.vrcp d a rm) (transF .rcp)
          ∧ v1 (.vrsqrt d a rm) (transF .rsqrt) ∧ v1 (.vtanh d a rm) (transF .tanh)
          ∧ (s.s0Up s.cur = true → v1 (.vbulk d a rm f) (transF f))))

/-- Exact comparison of Table 5-4 on the integers of elements. -/
def Sys2Proof.Machine.condInt (k : Cond) (x y : Int) : Bool :=
  let u := fun (v : Int) => BitVec.ofInt 64 v
  match k with
  | .eq => decide (x = y)
  | .ne => decide (x ≠ y)
  | .lt => decide (x < y)
  | .ge => decide (y ≤ x)
  | .ltu => decide ((u x).toNat < (u y).toNat)
  | .geu => decide ((u y).toNat ≤ (u x).toNat)
  | .tst => decide (u x &&& u y ≠ 0)
  | .ntst => decide (u x &&& u y = 0)

/-- R153, R159-R161, R166, R167. -/
def Obligations.VectorSelectConvertFill : Prop :=
  ∀ (s : State) (d a b c : BitVec 4) (q : Src) (rm : RMode) (z : BitVec 3) (k : Cond),
    let hd := s.shape d
    let ha := s.shape a
    let hb := s.shape b
    let hc := s.shape c
    let sized := fun (h : Shape) => h.count = hd.count ∨ h.count = 1
    let ones := fun (v : Bool) => if v then 2 ^ hd.width - 1 else 0
    let cmpF := fun (x y : FVal) => let r := fCompare (fcondOf k) x y
      (ones r.1, r.2)
    let qv := fp32.decode (q.fval (s.cap .ve))
    (hc.isI = true ∨ hc.isF = true → sized ha → sized hb → sized hc → VeReady s [hd, ha, hb, hc] →
      (hd.isI = true → ha.isI = true → hb.isI = true → VeMaps (.vsel d a b c rm) s hd [ha, hb, hc] false fun l _ =>
        (hd.wrap (if l.getD 2 0 ≠ 0 then ha.int (l.getD 0 0) else hb.int (l.getD 1 0)), {}))
      ∧ (hd.isF = true → ha.isF = true → hb.isF = true → VeMaps (.vsel d a b c rm) s hd [ha, hb, hc] (rm == .sr) fun l w =>
        hd.rnd rm w (if l.getD 2 0 ≠ 0 then ha.flt (l.getD 0 0) else hb.flt (l.getD 1 0), {})))
    ∧ (hd.isI = true → sized ha → sized hb → VeReady s [hd, ha, hb] →
        (ha.isI = true → hb.isI = true → VeMaps (.vcmp d a b z k) s hd [ha, hb] false fun l _ =>
          (ones (condInt k (ha.int (l.getD 0 0)) (hb.int (l.getD 1 0))), {}))
        ∧ (ha.isF = true → hb.isF = true → VeMaps (.vcmp d a b z k) s hd [ha, hb] false fun l _ =>
          cmpF (ha.flt (l.getD 0 0)) (hb.flt (l.getD 1 0))))
    ∧ (hd.isI = true → sized ha → VeReady s [hd, ha] →
        (ha.isI = true → q.isFloat = false → VeMaps (.vcmpVs d a q z k) s hd [ha] false fun l _ =>
          (ones (condInt k (ha.int (l.getD 0 0)) (s.ev .ve q).toInt), {}))
        ∧ (ha.isF = true → VeMaps (.vcmpVs d a q z k) s hd [ha] false fun l _ => cmpF (ha.flt (l.getD 0 0)) qv))
    ∧ (sized ha → VeReady s [hd, ha] →
        (hd.isI = true → ha.isI = true → VeMaps (.vcvt d a rm) s hd [ha] false fun l _ =>
            let x := ha.int (l.getD 0 0)
            let y := max hd.lo (min hd.hi x)
            (hd.wrap y, { ov := decide (x ≠ y) }))
        ∧ (hd.isF = true → ha.isI = true → VeMaps (.vcvt d a rm) s hd [ha] (rm == .sr) fun l w =>
            hd.rnd rm w (intVal (ha.int (l.getD 0 0)), {}))
        ∧ (hd.isF = true → ha.isF = true → VeMaps (.vcvt d a rm) s hd [ha] (rm == .sr) fun l w =>
            hd.rnd rm w (ha.flt (l.getD 0 0), {}))
        ∧ (hd.isI = true → ha.isF = true → VeMaps (.vcvt d a rm) s hd [ha] (rm == .sr) fun l w =>
            let r := toIntSat rm w hd.lo hd.hi 0 (ha.flt (l.getD 0 0))
            (hd.wrap r.1, r.2))
        ∧ (hd.width = ha.width → VeMaps (.vcopy d a z) s hd [ha] false fun l _ => (l.getD 0 0, {})))
    ∧ (VeReady s [hd] →
        (hd.isI = true → q.isFloat = false →
          (VeMaps (.vfill d q rm) s hd [] false fun _ _ => (hd.wrap (s.ev .ve q).toInt, {}))
          ∧ VeDone (.viota d q z) s
              (hd.writeIn s.me.spad ((List.range hd.count).map fun (j : Nat) => hd.wrap ((s.ev .ve q).toInt + j)))
              s.me.rngVe 0)
        ∧ (hd.isF = true → VeMaps (.vfill d q rm) s hd [] (rm == .sr) fun _ w =>
            hd.rnd rm w (fp32.decode (q.fval (s.cap .ve)), {})))
    ∧ (∃ t, exec (.shset d q z) s = .next t ∧ t.me.ve = s.me.ve.stepped 0
        ∧ vget t.me.sh 0 d.toNat = s.ev .ve q &&& 0x1FFFFFFFFF1FFFFF
        ∧ (∀ j, j ≠ d.toNat → vget t.me.sh 0 j = vget s.me.sh 0 j)
        ∧ { t.me with sh := s.me.sh, ve := s.me.ve } = s.me ∧ Elsewhere s.cur s t)

/-- Running sums. -/
def Sys2Proof.Machine.runningSums : List Int → Int → List Int
  | [], _ => []
  | x :: r, acc => (acc + x) :: runningSums r (acc + x)

/-- R162, R163, R165. -/
def Obligations.VectorReductionsAndBlocks : Prop :=
  ∀ (s : State) (d a b : BitVec 4) (rm : RMode) (sr : Bool),
    let hd := s.shape d
    let ha := s.shape a
    let hb := s.shape b
    let es := ha.readIn s.me.spad
    let xs := es.map ha.int
    let put := fun (vs : List Nat) => hd.writeIn s.me.spad vs
    let g := s.me.rngVe
    (hd.isI = true → ha.isI = true → hd.isF = false → VeReady s [hd, ha] →
      (hd.count = 1 → VeDone (.vrsum d a rm) s (put [hd.wrap (xs.foldl (· + ·) 0)]) g 0
        ∧ VeDone (.vrmax d a rm) s (put [hd.wrap (xs.tail.foldl max (xs.headD 0))]) g 0
        ∧ VeDone (.vamax d a rm) s (put [hd.wrap ((xs.map fun x => (x.natAbs : Int)).foldl max 0)]) g 0)
      ∧ (hd.count = ha.count → VeDone (.vscan d a rm) s (put ((runningSums xs 0).map hd.wrap)) g 0))
    ∧ (hd.isF = true → ha.isF = true → hd.count = ha.count → VeReady s [hd, ha] →
        let n := lanes (rm == .sr) g hd.count
        let s32 := ha.f32s es
        let sums := scanFixed (s32.map (·.1)) 0x80000000
        let rs := (List.range hd.count).map fun j =>
          let p := sums.getD j (0, {})
          let r := hd.rnd rm (n.1.getD j 0) (fp32.decode p.1, p.2)
          (r.1, r.2.join (s32.getD j (0, {})).2)
        VeDone (.vscan d a rm) s (put (rs.map (·.1))) n.2 (veFlags (joinAll rs)))
    ∧ (hd.isF = true → ha.isF = true → hd.count = 1 → VeReady s [hd, ha] →
        let n := lanes (rm == .sr) g 1
        let out := fun (i : Instr) (v : FVal × FFlags) =>
          let r := hd.rnd rm (n.1.headD 0) v
          VeDone i s (put [r.1]) n.2 (veFlags r.2)
        let s32 := ha.f32s es
        let sum := sumFixed (s32.map (·.1))
        out (.vrsum d a rm) (fp32.decode sum.1, (joinAll s32).join sum.2)
          ∧ out (.vrmax d a rm) (maxAll (es.map ha.flt)) ∧ out (.vamax d a rm) (maxAll (es.map fun v => (ha.flt v).abs)))
    ∧ (∀ el n, ha.isF = true → tyM hd.ty = some el → hb.ty = 0x10 → hd.count = ha.count →
        blockLen ha.count hb.count = some n → VeReady s [hd, ha, hb] →
        let m := lanes sr g ha.count
        let qs := (groupsOf n hb.count ((es.map ha.flt).zip m.1)).map (quantBlock el (if sr then .sr else .rne))
        VeDone (.vquant d a b sr) s
          (hd.writeIn (hb.writeIn s.me.spad (qs.map (·.code))) (qs.map (·.elems)).flatten) m.2
          (veFlags (qs.foldl (fun f q => f.join q.flags) {}) (qs.any (·.scaleUf))))
    ∧ ∀ el n, hd.isF = true → tyM ha.ty = some el → hb.ty = 0x10 → hd.count = ha.count →
        blockLen ha.count hb.count = some n → VeReady s [hd, ha, hb] →
        let m := lanes (rm == .sr) g ha.count
        let one := fun (k : Nat) (x : Nat × Nat) => if k = 255 then hd.rnd rm x.2 (.nan false, {})
          else hd.rnd rm x.2 ((el.decode x.1).scale ((k : Int) - 127), {})
        let rs := (((groupsOf n hb.count (es.zip m.1)).zip (hb.readIn s.me.spad)).map fun p => p.1.map (one p.2)).flatten
        VeDone (.vdeq d a b rm) s (put (rs.map (·.1))) m.2 (veFlags (joinAll rs))

/-- Words executed one after another, each of which completes (R168). -/
def Sys2Proof.Machine.ChainSteps : List Instr → State → State → Prop
  | [], s, t => s = t
  | i :: r, s, t => ∃ u, exec i (s.updEng s.cur .ve fun e => { e with elem := 0, limit := none, parts := [] }) = .next u
      ∧ u.me.ve.upc ≠ s.me.ve.upc ∧ ChainSteps r u t

/-- The class I word of a chain that adds, subtracts, multiplies or combines two shapes: its shape registers, and what it
computes of two elements (R159). -/
def Sys2Proof.Machine.chainOp (i : Instr) : Option (BitVec 4 × BitVec 4 × BitVec 4 × (Int → Int → Int)) :=
  let two := fun (f : BitVec 64 → BitVec 64 → BitVec 64) (x y : Int) => (f (BitVec.ofInt 64 x) (BitVec.ofInt 64 y)).toInt
  match i with
  | .vadd d a b _ => some (d, a, b, (· + ·))
  | .vsub d a b _ => some (d, a, b, (· - ·))
  | .vmul d a b _ => some (d, a, b, (· * ·))
  | .vmin d a b _ => some (d, a, b, min)
  | .vmax d a b _ => some (d, a, b, max)
  | .vand d a b _ => some (d, a, b, two (· &&& ·))
  | .vor d a b _ => some (d, a, b, two (· ||| ·))
  | .vxor d a b _ => some (d, a, b, two (· ^^^ ·))
  | _ => none

/-- A word of `chainOp` whose operands pass their checks (R155, R156). -/
def Sys2Proof.Machine.ChainableInt (s : State) (i : Instr) : Prop :=
  ∃ d a b f, chainOp i = some (d, a, b, f) ∧ ∀ h, h ∈ [s.shape d, s.shape a, s.shape b] →
    h.isI = true ∧ h.check = none ∧ (h.count = (s.shape d).count ∨ h.count = 1)

/-- The scratchpad after such a word, with its sources read from `m`. -/
def Sys2Proof.Machine.State.linked (s : State) (i : Instr) (m : Memory) : Memory :=
  match chainOp i with
  | none => m
  | some (d, a, b, f) =>
    let hd := s.shape d
    let xs := fun (h : Shape) => bcast hd.count (h.readIn m)
    hd.writeIn m ((List.range hd.count).map fun j =>
      hd.wrap (f ((s.shape a).int ((xs (s.shape a)).getD j 0)) ((s.shape b).int ((xs (s.shape b)).getD j 0))))

/-- R166, R168, R169. A chain of class I words completes on conditions on the state alone; a chain of any words is its
words one after another. -/
def Obligations.VectorGatherScatterAndPrograms : Prop :=
  (∀ (s : State) (d a b : BitVec 4) (z : BitVec 3),
    let hd := s.shape d
    let ha := s.shape a
    let hb := s.shape b
    let ix := fun (n : Nat) => (bcast n (ha.readIn s.me.spad)).map ha.int
    ha.isI = true → ha.width = 32 →
      (hd.movable = true → (ha.count = hd.count ∨ ha.count = 1) → VeReady s [hd, ha] →
        s.vIndexFail true hd.size hd.runs (ix hd.count) = none →
        VeDone (.vgather d a z) s (((List.range hd.count).zip (ix hd.count)).foldl (fun m x =>
          m.wrBytes (hd.off x.1).toNat (s.me.spad.rdBytes x.2.toNat hd.size)) s.me.spad) s.me.rngVe 0)
      ∧ (hb.movable = true → (hb.count = ha.count ∨ hb.count = 1) → VeReady s [ha, hb] →
        s.vIndexFail true hb.size hb.runs (ix ha.count) = none →
        VeDone (.vscatter a b z) s (((ix ha.count).zip (bcast ha.count (hb.readIn s.me.spad))).foldl (fun m x =>
          m.wrBytes x.1.toNat (leBytes hb.size x.2)) s.me.spad) s.me.rngVe 0))
  ∧ (∀ (s : State) (e : BitVec 12), (∃ t, exec (.vrun e) s = .next t ∧ t.me.ve.upc = e.toNat ∧ t.me.ve.due = none
        ∧ t.me.ve.idx = Vector.replicate 6 0 ∧ t.me.ve.queue = s.me.ve.queue ∧ t.me.ve.cur = s.me.ve.cur
        ∧ { t.me with ve := s.me.ve } = s.me ∧ Elsewhere s.cur s t)
      ∧ ∃ t, exec .vend s = .next t ∧ t.me.ve = { s.me.ve with
            finished := true, due := none, elem := 0, flags := s.me.ve.flags ||| 0, outs := none, parts := [], limit := none
            read := false, ask := none, hit := false, fails := [] }
        ∧ { t.me with ve := s.me.ve } = s.me ∧ Elsewhere s.cur s t)
  ∧ (∀ (s t : State) (n : BitVec 3) (is : List Instr), s.me.chainWords (n.toNat + 1) = some is → chainCheck s is = none →
      s.chainBad (is.filterMap linkOf) = false → s.me.ve.Fresh → ChainSteps is (s.unitDone .ve) t →
      exec (.vchain n) s = .next (t.updEng t.cur .ve fun e => { e with parts := [] }))
  ∧ ∀ (s : State) (n : BitVec 3) (is : List Instr), s.me.chainWords (n.toNat + 1) = some is →
      s.chainBad (is.filterMap linkOf) = false → VeReady s [] → (∀ i, i ∈ is → ChainableInt s i) →
      ∃ t, exec (.vchain n) s = .next t ∧ t.me.spad = is.foldl (fun m i => s.linked i m) s.me.spad
        ∧ t.me.ve = is.foldl (fun e _ => e.stepped 0) (s.me.ve.stepped 0)
        ∧ { t.me with spad := s.me.spad, ve := s.me.ve } = s.me ∧ Elsewhere s.cur s t

/-- A step of the ME can start: its slots, whose M-dies the core's die reaches, and the format word at the head of the
queue. -/
structure Sys2Proof.Machine.MeStart (s : State) (ks : List (Nat × Nat)) (w : BitVec 128) : Prop where
  slots : s.me.selected s.cur = some ks
  joined : ∀ k, k ∈ ks → s.dieReach (dieOf s.cur) (arrayDie k.2) = true
  fresh : s.me.meProg = Vector.replicate 4 0 ∧ s.me.meFlags = 0
  head : s.me.fmtHeld = some w ∨ (s.me.fmtHeld = none ∧ s.me.fmtq.head? = some w)

/-- The step of the ME is done, with flags `fl`, and nothing is changed but the arrays and what `f` takes back. -/
def Sys2Proof.Machine.MeDone (s t : State) (fl : BitVec 64) (f : Core → Core) : Prop :=
  t.me.me = s.me.me.stepped fl ∧ t.me.fmtHeld = none ∧ t.me.meProg = Vector.replicate 4 0 ∧ t.me.meFlags = 0
  ∧ f { t.me with me := s.me.me, fmtHeld := s.me.fmtHeld, meProg := s.me.meProg, meFlags := s.me.meFlags } = s.me
  ∧ (∀ n, n ≠ s.cur → t.core n = s.core n) ∧ { t with cores := s.cores, arrays := s.arrays } = s

/-- The block terms of accumulator (r, c), one added after another (R56-R60, R178). -/
def Sys2Proof.Machine.mmaCell (u : MmaUse) (ma mb : Memory) (metas : List (List Byte)) (r c : Nat) (x : Nat) : Nat :=
  ((List.range (u.k / u.b)).zip metas).foldl (fun x km =>
    let n := if u.sparse then u.b / 2 else u.b
    let raw := tileElems ma (tileBase u.ta) (mmWidth u.da.fmt) (r * u.da.cols + km.1 * n) n
    let nibs := (bitFields 4 (32 * (u.b / 4)) (leNat km.2)).drop (r * (u.b / 4))
    let row := if u.sparse then (unsparse (nibs.take (u.b / 4)) raw).getD [] else raw.map some
    let f := (mmFmt u.da.fmt).getD (.flt fp32)
    let g := (mmFmt u.db.fmt).getD (.flt fp32)
    let a := row.map fun v => v.elim (FVal.fin false 0 0) f.decode
    let b := (List.range u.b).map fun j =>
      g.decode ((tileElems mb (tileBase u.tb) (mmWidth u.db.fmt) ((km.1 * u.b + j) * 16) 16).getD c 0)
    let ca := if mmScaled u.da.fmt then (ma.rd (tileBase u.ta + u.da.soff + r * (u.k / u.b) + km.1)).toNat else 127
    let cb := if mmScaled u.db.fmt then (mb.rd (tileBase u.tb + u.db.soff + km.1 * 16 + c)).toNat else 127
    (add32 x (blockTerm (a.zip b) ca cb).1).1) x

/-- Accumulator (r, c) of tile `ac`. -/
def Sys2Proof.Machine.ArraySt.cell (a : ArraySt) (ac r c : Nat) : Nat := a.accs.rdN (accBase ac + 4 * (16 * r + c)) 4

/-- R177-R180. -/
def Obligations.MatrixMultiplySteps : Prop :=
  ∀ (s : State) (ks : List (Nat × Nat)) (w : BitVec 128) (d a b : BitVec 4) (m : BitVec 2) (q : BitVec 7) (sparse : Bool),
    let c := s.me
    let u : MmaUse := ⟨c.tdesc (c.effA a), c.tdesc (c.effB b), c.effA a, c.effB b, c.effD d,
      if bitsOf w.toNat 8 1 = 1 then 16 else 32, (c.tdesc (c.effB b)).rows, sparse⟩
    let v := s.ev .me (srcOfField q.toNat)
    let src := c.slotArray s.cur (fld v 0 2)
    let fromA := fun k => if m.getLsbD 0 then src.getD k else k
    let fromB := fun k => if m.getLsbD 1 then src.getD k else k
    let used := fun k => if sparse then (s.array k).sparse.take (u.k / u.b) else List.replicate (u.k / u.b) []
    MeStart s ks w → (ks.map (·.2)).Nodup → fmtOkMma w sparse = true →
      u.shapeOk (bitsOf w.toNat 0 4) (bitsOf w.toNat 4 4) = true → u.k % u.b = 0 →
      (m ≠ 0 → fld v 2 62 = 0 ∧ src.isSome) →
      (∀ k, k ∈ ks → s.dieReach (arrayDie k.2) (arrayDie (fromA k.2)) = true
        ∧ s.dieReach (arrayDie k.2) (arrayDie (fromB k.2)) = true) →
      (sparse = true → ∀ k, k ∈ ks → u.k / u.b ≤ (s.array k.2).sparse.length
        ∧ ∀ j, j < u.k / u.b → (mmaBlock u (s.array (fromA k.2)).tiles (s.array (fromB k.2)).tiles
            (s.array k.2).accs j ((s.array k.2).sparse.getD j [])).isSome) →
        ∃ t fl, exec (if sparse then .mmas d a b m q else .mma d a b m q) s = .next t
          ∧ t.me.fmtq = (if c.fmtHeld.isSome then c.fmtq else c.fmtq.drop 1) ∧ MeDone s t fl (fun x => { x with fmtq := c.fmtq })
          ∧ (∀ k, (∀ j, j ∈ ks → j.2 ≠ k) → t.array k = s.array k)
          ∧ ∀ k, k ∈ ks →
              (∀ i j, i < 32 → j < 16 → (t.array k.2).cell u.ac i j =
                mmaCell u (s.array (fromA k.2)).tiles (s.array (fromB k.2)).tiles (used k.2) i j ((s.array k.2).cell u.ac i j))
              ∧ (∀ x, x < accBase u.ac ∨ accBase u.ac + 2048 ≤ x → (t.array k.2).accs.rd x = (s.array k.2).accs.rd x)
              ∧ { t.array k.2 with accs := (s.array k.2).accs, sparse := (s.array k.2).sparse } = s.array k.2
              ∧ (t.array k.2).sparse = if sparse then (s.array k.2).sparse.drop (u.k / u.b) else (s.array k.2).sparse

/-- R181. -/
def Obligations.MatrixTileSteps : Prop :=
  ∀ (s : State) (ks : List (Nat × Nat)) (d a : BitVec 4) (q : BitVec 7),
    let c := s.me
    let td := c.effD d
    let ta := c.effA a
    let same := fun (t : State) => ∀ k, (∀ j, j ∈ ks → j.2 ≠ k) → t.array k = s.array k
    let tile := fun (t : State) (n : Nat) (bs : Nat → List Byte) => ∀ k, k ∈ ks →
      { t.array k.2 with tiles := (s.array k.2).tiles } = s.array k.2 ∧ (t.array k.2).tiles.rdBytes (tileBase td) n = bs k.2
        ∧ ∀ x, x < tileBase td ∨ tileBase td + n ≤ x → (t.array k.2).tiles.rd x = (s.array k.2).tiles.rd x
    c.selected s.cur = some ks → (ks.map (·.2)).Nodup →
      (∀ k, k ∈ ks → s.dieReach (dieOf s.cur) (arrayDie k.2) = true) → c.meProg = Vector.replicate 4 0 → c.meFlags = 0 →
      (∃ t, exec (.mzero d q) s = .next t ∧ MeDone s t 0 id ∧ same t ∧ ∀ k, k ∈ ks →
          (t.array k.2).accs.rdBytes (accBase td) 2048 = List.replicate 2048 0
          ∧ { t.array k.2 with accs := (s.array k.2).accs } = s.array k.2
          ∧ ∀ x, x < accBase td ∨ accBase td + 2048 ≤ x → (t.array k.2).accs.rd x = (s.array k.2).accs.rd x)
      ∧ (∀ w, (c.fmtHeld = some w ∨ (c.fmtHeld = none ∧ c.fmtq.head? = some w)) → fmtOkNarrow w = true →
          let f := narrowFmt (bitsOf w.toNat 15 4)
          let rm := rmOfCode (bitsOf w.toNat 12 3)
          let ts := mul32 (bitsOf w.toNat 64 32) (bitsOf w.toNat 96 32)
          let put := fun k => ((chunks 4 512 ((s.array k).accs.rdBytes (accBase ta) 2048)).map fun v =>
            let x := (mul32 v ts.1).1
            leBytes (f.bits / 8) (if f = fp32 then x else (f.round rm 0 (fp32.decode x)).1)).flatten
          ∃ t fl, exec (.mnarrow d a q) s = .next t ∧ same t
            ∧ t.me.fmtq = (if c.fmtHeld.isSome then c.fmtq else c.fmtq.drop 1)
            ∧ (rm ≠ .sr ∨ f = fp32 → t.me.rngMe = c.rngMe ∧ tile t (512 * (f.bits / 8)) put)
            ∧ MeDone s t fl fun x => { x with fmtq := c.fmtq, rngMe := c.rngMe })
      ∧ (let ds := c.tdesc ta
        let k := mmWidth ds.fmt / 8
        ds.valid = true → ds.fmt ≤ 4 → c.tdesc td = { ds with krow := (c.tdesc td).krow, rows := ds.cols, cols := ds.rows } →
          ds.elemBytes ≤ 16384 →
          ∃ t, exec (.mtrans d a q) s = .next t ∧ MeDone s t 0 id ∧ same t ∧ tile t ds.elemBytes fun n =>
            ((List.range ds.cols).flatMap fun i => (List.range ds.rows).flatMap fun j =>
              (s.array n).tiles.rdBytes (tileBase ta + k * (j * ds.cols + i)) k))

/-- R172, R173. -/
def Obligations.ArrayOwnershipSteps : Prop :=
  ∀ (s : State) (n : BitVec 4) (q : Src),
    let c := s.me
    let v := s.ev .me q
    let frame := fun (t : State) (k : Nat) => (∀ j, j ≠ k → t.array j = s.array j)
    1 ≤ n.toNat → n.toNat ≤ 3 → ∀ dev die, s.vdie s.cur (fld v 0 10) = .bound dev die →
        (∀ k, c.uc = none → s.mownDecide n.toNat v dev die = .ok k → ∃ t, exec (.mown n q) s = .next t
            ∧ t.me.slotArray s.cur n.toNat = some k ∧ (t.array k).holder = some (c.cr.getD 0, n.toNat)
            ∧ (t.array k).lastRegion = some c.region ∧ frame t k
            ∧ (∀ x, (s.array k).lastRegion = some x → x ≠ c.region → (t.array k).sparse = [] ∧ ∀ x, (t.array k).tiles.rd x = 0 ∧ (t.array k).accs.rd x = 0)
            ∧ ((∀ x, (s.array k).lastRegion = some x → x = c.region) → (t.array k).sparse = freeSparse (s.draws + 2)
              ∧ ∀ x, (t.array k).tiles.rd x = Config.freeByte s.draws x ∧ (t.array k).accs.rd x = Config.freeByte (s.draws + 1) x)
            ∧ (∀ j, j ≠ n.toNat → t.me.slotArray s.cur j = c.slotArray s.cur j)
            ∧ MeDone { s with draws := s.draws + 3 } t 0 fun x => { x with slots := c.slots })
        ∧ (∀ e, c.uc = none → c.status = .running → s.mownDecide n.toNat v dev die = .error e → ∃ t r, exec (.mown n q) s = .next t
            ∧ t.me.call = some (.fault r) ∧ r.cause = .ownDenied ∧ r.sub = e ∧ r.info0 = v ∧ r.obs = 1
            ∧ t.me.slots = c.slots ∧ t.arrays = s.arrays ∧ t.mem = s.mem)
        ∧ (∀ k, c.slotArray s.cur n.toNat = some k → fld v 14 50 = 0 → dev = s.fab.fabId → 2 ≤ die → die ≤ 9 →
            fld v 10 4 ≤ 10 → k = 11 * (die - 2) + fld v 10 4 → ∃ t, exec (.mrel n q) s = .next t
            ∧ t.me.slotArray s.cur n.toNat = none ∧ (t.array k).holder = none ∧ (t.array k).lastRegion = some c.region ∧ frame t k
            ∧ { t.array k with holder := (s.array k).holder, lastRegion := (s.array k).lastRegion } = s.array k
            ∧ MeDone s t 0 fun x => { x with slots := c.slots })

/-- R22, R24, R25, R182, R183. -/
def Obligations.MatrixProgramSteps : Prop :=
  ∀ (s : State) (e : BitVec 12) (q : BitVec 7),
    let c := s.me
    let trips := c.meActive.loops.toList.map fun w => Nat.max 1 (fld w 0 16)
    (∃ t, exec (.mrun e) s = .next t ∧ { t with cores := s.cores } = s ∧ (∀ n, n ≠ s.cur → t.core n = s.core n)
        ∧ t.me = { c with me := { c.me with upc := e.toNat, idx := Vector.replicate 6 0, due := none, elem := 0 } })
      ∧ (∀ x, c.me.cur = some x → ∃ t, exec .mend s = .next t ∧ { t with cores := s.cores } = s
          ∧ (∀ n, n ≠ s.cur → t.core n = s.core n) ∧ { t.me with me := c.me } = c
          ∧ (nextIdx trips c.me.idx.toList = none → t.me.me.finished = true)
          ∧ ∀ l, nextIdx trips c.me.idx.toList = some l → t.me.me.finished = c.me.finished
              ∧ t.me.me.upc = bitsOf x.word 0 12 ∧ t.me.me.idx.toList = l)
      ∧ (∃ t, exec (.msync q) s = .next t ∧ MeDone s t 0 id ∧ t.arrays = s.arrays)
      ∧ ∃ t, exec .meNop s = .next t ∧ t.me.me = c.me.stepped 0 ∧ { t.me with me := c.me } = c
          ∧ (∀ n, n ≠ s.cur → t.core n = s.core n) ∧ { t with cores := s.cores } = s

/-- Nothing has changed but channel `k` and, with `f`, what else of the core the step changes. -/
def Sys2Proof.Machine.XElse (s t : State) (k : BitVec 3) (f : Core → Core) : Prop :=
  (∀ j, j ≠ k.toNat → vget t.me.ch .zero j = vget s.me.ch .zero j) ∧ f { t.me with ch := s.me.ch } = s.me
    ∧ (∀ n, n ≠ s.cur → t.core n = s.core n)

/-- A copy of the channel that a word names can start (R190, R196, R197). -/
structure Sys2Proof.Machine.XStart (s : State) (k : BitVec 3) : Prop where
  first : ¬ ((s.xc k).copied = true ∧ (s.xc k).eng.inProg = true)
  fresh : (s.xc k).eng.Fresh ∧ (s.xc k).copyFail = none
  edges : s.me.edgeHeld k.toNat = false
  tiles : s.me.tiles = []
  arms : ∀ off n, s.me.guarded (8 + k.toNat) off n = false

/-- The watermark after scratchpad ranges are filled one after another: each range is noted, and MARK passes what is
filled from it on, unless the copy was emitted too early (R196, R272). -/
def Sys2Proof.Machine.Channel.filledBy (h : Channel) (fill : List (Nat × Nat)) : Channel :=
  if h.early then h else fill.foldl (fun h r => ({ h with filled := h.filled ++ [r] } : Channel).advance) h

/-- A copy that filled scratchpad ranges is done. -/
def Sys2Proof.Machine.XCopied (s t : State) (k : BitVec 3) (fill : List (Nat × Nat)) : Prop :=
  let h := s.xc k
  t.xc k = { h.filledBy fill with early := false, emitted := false, copied := true, eng := h.eng.stepped 0 }
    ∧ XElse s t k fun c => { c with spad := s.me.spad }

/-- R188-R194: both sides in the scratchpad. -/
def Obligations.ScratchpadCopySteps : Prop :=
  ∀ (s : State) (ch : BitVec 3) (a b : Src),
    let k := s.xch ch
    let h := s.xc k
    let l := (s.xv ch a).toNat
    let x := h.addr 0 (fld h.active.src 0 56)
    let y := h.addr 1 (fld h.active.dst 0 56)
    let fits := fun (p : Int) (n : Nat) => 0 ≤ p ∧ p + n ≤ 2 ^ 21
    let same := fun (t : State) => { t with cores := s.cores } = s
    let row := fun (p : Int) (side : Nat) (j : Nat) => p + j * sextNat 32 (fld h.active.rstr (32 * side) 32)
    XStart s k → spaceOf h.active.src = some .spad → spaceOf h.active.dst = some .spad →
      (1 ≤ l → l ≤ 4096 → fits x l → fits y l → ∃ t, exec (.xcopy ch a) s = .next t ∧ same t
          ∧ t.me.spad = s.me.spad.wrBytes y.toNat (s.me.spad.rdBytes x.toNat l) ∧ XCopied s t k [(y.toNat, l)])
      ∧ (let r := (s.xv ch b).toNat
        1 ≤ l → 1 ≤ r → r ≤ 64 → l * r ≤ 4096 → (∀ j, j < r → fits (row x 0 j) l ∧ fits (row y 1 j) l) →
          let ys := (List.range r).map fun j => ((row y 1 j).toNat, l)
          ∃ t, exec (.xtile ch a b) s = .next t ∧ same t
            ∧ t.me.spad = ((List.range r).foldl (fun m j =>
                m.wrBytes (row y 1 j).toNat (s.me.spad.rdBytes (row x 0 j).toNat l)) s.me.spad)
            ∧ XCopied s t k ys)
      ∧ (1 ≤ l → l ≤ 4096 → fits y l → ∃ t, exec (.xfill ch a b) s = .next t ∧ same t
          ∧ t.me.spad = s.me.spad.wrBytes y.toNat
              ((List.range l).map fun j => BitVec.ofNat 8 (fld (s.xv ch b) (8 * (j % 8)) 8))
          ∧ XCopied s t k [(y.toNat, l)])
      ∧ (let m := s.xv ch b
        let n := fld m 0 10
        let ix := (List.range n).map fun j => s.me.spad.rdN (x.toNat + 8 * j) 8
        (l = 1 ∨ l = 2 ∨ l = 4 ∨ l = 8) → 1 ≤ n → n ≤ 512 → fld m 10 1 = 1 → fld m 11 53 = 0 → x % 8 = 0 →
          fits x (8 * n) → fits y (l * n) → (∀ i, i ∈ ix → i % l = 0 ∧ i + l ≤ 2 ^ 21) →
          ∃ t, exec (.xgather ch a b) s = .next t ∧ same t
            ∧ (∀ j, j < n → t.me.spad.rdBytes (y.toNat + l * j) l = s.me.spad.rdBytes (ix.getD j 0) l)
            ∧ (∀ o, o < y.toNat ∨ y.toNat + l * n ≤ o → t.me.spad.rd o = s.me.spad.rd o)
            ∧ (t.xc k).eng = h.eng.stepped 0 ∧ (t.xc k).copied = true
            ∧ XElse s t k fun c => { c with spad := s.me.spad })
      ∧ (let op := s.xv ch b
        let ty := fld op 0 5
        let z := tyWidth ty / 8
        (ty = 0 ∨ ty = 1 ∨ ty = 2 ∨ ty = 0x0E ∨ ty = 0x0F ∨ ty = 0x12 ∨ ty = 0x13) → fld op 5 1 = 0 → fld op 6 2 ≤ 2 →
          fld op 8 56 = 0 → 1 ≤ l → l ≤ 4096 → l % z = 0 → x % z = 0 → y % z = 0 → fits x l → fits y l → s.me.uc = none →
          ∃ t, exec (.xred ch a b) s = .next t ∧ same t
            ∧ t.me.spad = ((List.range (l / z)).foldl (fun m j => m.wrN (y.toNat + j * z) z
                (redElem ty (fld op 6 2) (m.rdN (y.toNat + j * z) z) (s.me.spad.rdN (x.toNat + j * z) z))) s.me.spad)
            ∧ XCopied s t k ((List.range (l / z)).map fun j => (y.toNat + j * z, z)))
      ∧ ∀ arr, (l = 64 ∨ l = 128) → (s.xv ch b).toNat ≤ 3 → s.me.slotArray s.cur (s.xv ch b).toNat = some arr → fits x l →
          (s.array arr).sparse.length < 32 → ∃ t, exec (.xmeta ch a b) s = .next t
            ∧ t.array arr = { s.array arr with sparse := (s.array arr).sparse ++ [s.me.spad.rdBytes x.toNat l] }
            ∧ (∀ j, j ≠ arr → t.array j = s.array j) ∧ { t with cores := s.cores, arrays := s.arrays } = s
            ∧ XCopied s t k []

/-- R188, R189, R191: a copy in one segment. -/
def Obligations.GlobalCopyGoesThroughTheObserver : Prop :=
  ∀ (s t u : State) (ch : BitVec 3) (a : Src) (ss ds : XSpace) (bs : List Byte),
    let k := s.xch ch
    let h := s.xc k
    let l := (s.xv ch a).toNat
    let x := h.addr 0 (fld h.active.src 0 56)
    let y := h.addr 1 (fld h.active.dst 0 56)
    let src : Side := ⟨ss, [(x, l)]⟩
    let dst : Side := ⟨ds, [(y, l)]⟩
    ¬ (h.copied = true ∧ h.eng.inProg = true) → h.eng.elem = 0 → h.eng.outs = none → s.me.edgeHeld k.toNat = false →
      spaceOf h.active.src = some ss → spaceOf h.active.dst = some ds → 1 ≤ l → l ≤ 4096 →
      src.fail s.me s.cur = none → dst.fail s.me s.cur = none → src.meets dst = false →
      (ss = .glob → x.toNat % 65536 + l ≤ 65536) → (ds = .glob → y.toNat % 65536 + l ≤ 65536) →
      s.sideRead k ss x.toNat l = .ok bs t →
      (if ss = .glob then t.countFills k s.lines else t).sideWrite k ds y.toNat bs = .ok () u →
        exec (.xcopy ch a) s = .next (((u.copyEnd k).updX k fun h => { h with copied := true }).unitDone (.ch k))

/-- R195-R199, R203. -/
def Obligations.ChannelControlSteps : Prop :=
  (∀ (s : State) (ch : BitVec 3) (a b : Src) (sc : Scope),
    let k := s.xch ch
    let h := s.xc k
    let av := s.xv ch a
    let bv := s.xv ch b
    let same := fun (t : State) => { t with cores := s.cores } = s
    let done := fun (t : State) (g : Channel) => t.xc k = { g with eng := h.eng.stepped 0 } ∧ same t ∧ XElse s t k id
    let started := fun (t : State) (g : Channel) (q : Word) (sc : Scope) (chain : Bool) =>
      t.xc k = { g with copied := true, chain := some ⟨av.toNat, .read, q, sc, chain, 0, 0, []⟩ } ∧ same t
        ∧ XElse s t k fun c => { c with tracker := s.me.tracker }
    (∀ o, fld av 63 1 = 1 → o = fld av 0 21 → fld av 21 42 = 0 → o % 8 = 0 → s.me.edgeHeld k.toNat = false →
          s.me.writtenAt sc = true → h.eng.fails = [] → s.me.tiles = [] → s.me.guarded (8 + k.toNat) o 8 = false → ∃ t, exec (.xsig ch a b sc) s = .next t ∧ same t
            ∧ t.me.spad = s.me.spad.wrN o 8
                (let v := (bv.toNat + h.lin) % 2 ^ 64
                if h.fail then v % 2 ^ 63 + 2 ^ 63 else v)
            ∧ t.xc k = { h with fail := false, eng := h.eng.stepped 0 } ∧ XElse s t k fun c => { c with spad := s.me.spad })
      ∧ (s.me.uc = none → av.toNat % 32 = 0 → av.toNat + 32 ≤ 2 ^ 56 →
          (h.eng.elem ≠ 1 → bv = 0 → ∃ t, exec (.xbar ch a b sc) s = .next t ∧ done t h)
          ∧ (h.eng.elem = 1 → h.eng.fails = [] → (∀ p n, p ∈ s.cp.posts → p.op = .bytes k.toNat n → p.core ≠ s.cur) →
              ∃ t, exec (.xbar ch a b sc) s = .next t ∧ done t h)
          ∧ ∀ pa dom u, h.eng.elem ≠ 1 → bv ≠ 0 → s.me.edgeHeld k.toNat = false → s.me.writtenAt sc = true →
              s.blockAt s.cur av.toNat true (8 + k.toNat) = .ok (pa, dom) u → u.routePa u.cur pa ≠ .hold →
              u.routePa u.cur pa ≠ .none → u.isPoisoned pa 32 = false → ∃ t, exec (.xbar ch a b sc) s = .next t
                ∧ t.cp.posts = u.cp.posts ++ [{ pa := pa, dom := dom, va := av.toNat, core := s.cur
                                                op := .bytes k.toNat bv.toNat }]
                ∧ (∃ r q, t.xc k = { u.xc k with eng := { (u.xc k).eng with elem := 1, ready := r, ask := q } }
                  ∧ (u.heldAt u.cur (8 + k.toNat) false av.toNat 32 = false → (u.xc k).eng.ask = none →
                    q = some { sp := false, addr := av.toNat, len := 32, wr := true, at_ := u.frameClk
                               lim := u.dev.rsplim.toNat }))
                ∧ XElse u t k id
                ∧ { t with cores := u.cores, cp := { t.cp with posts := u.cp.posts } } = u)
      ∧ (∀ w, av.toNat ≤ 5 → w = vget h.active.loops 0 av.toNat → fld w 16 2 ≠ 0 → ∃ t g, exec (.xwrap ch a b) s = .next t
          ∧ fld g.org (10 * av.toNat) 10 =
              (((fld h.org (10 * av.toNat) 10 : Int) + bv.toInt) % (fld w 18 10 + 1)).toNat
          ∧ (∀ j, j ≤ 5 → j ≠ av.toNat → fld g.org (10 * j) 10 = fld h.org (10 * j) 10)
          ∧ { g with org := h.org } = h ∧ done t g)
      ∧ (av.toNat ≤ 31 → ∃ t, exec (.xrcnt ch a) s = .next t ∧ done t { h with rcnt := av.setWidth 5 })
      ∧ (∀ f, h.foots.length < 2 → footOf av bv = some f →
          ∃ t, exec (.xfoot ch a b) s = .next t ∧ done t { h with foots := h.foots ++ [f] })
      ∧ (s.me.uc = none → av.toNat % 128 = 0 → av.toNat + 128 ≤ 2 ^ 56 → h.foots = [] →
          (¬ (h.copied = true ∧ h.eng.inProg = true) →
            ∃ t, exec (.xjob ch a) s = .next t ∧ started t h 0 .pod false ∧ t.me.tracker =
              if s.me.tracker.length < 32 then
                let before := fun (x : Tracked) => !(x.at_ == s.me.sched && decide (k.toNat < x.ch))
                s.me.tracker.takeWhile before ++ { ch := k.toNat, foots := [], unread := true, at_ := s.me.sched }
                  :: s.me.tracker.dropWhile before
              else s.me.tracker)
          ∧ (h.eng.inProg = false → (bv = 0 ∨ (wordAddr bv 8).2.2 = none) →
            ∃ t, exec (.xchain ch a b sc) s = .next t ∧ started t { h with doneCnt := 0 } bv sc true
              ∧ t.me.tracker = s.me.tracker)))
  ∧ ∀ (s : State) (ch : BitVec 3) (e : BitVec 12),
    let trips := fun (h : Channel) => h.active.loops.toList.map fun w => Nat.max 1 (fld w 0 16)
    (∃ t, exec (.xrun ch e) s = .next t ∧ { t with cores := s.cores } = s ∧ XElse s t ch id
        ∧ t.xc ch = { s.xc ch with copied := false
                                   eng := { (s.xc ch).eng with upc := e.toNat, idx := Vector.replicate 6 0, due := none, elem := 0 } })
      ∧ ∀ x, (s.xc s.chan).eng.cur = some x → ∃ t, exec .xend s = .next t ∧ { t with cores := s.cores } = s
        ∧ XElse s t s.chan id ∧ (t.xc s.chan).copied = false
        ∧ { t.xc s.chan with copied := (s.xc s.chan).copied, eng := (s.xc s.chan).eng } = s.xc s.chan
        ∧ (nextIdx (trips (s.xc s.chan)) (s.xc s.chan).eng.idx.toList = none → (t.xc s.chan).eng.finished = true)
        ∧ ∀ l, nextIdx (trips (s.xc s.chan)) (s.xc s.chan).eng.idx.toList = some l →
            (t.xc s.chan).eng.upc = bitsOf x.word 0 12 ∧ (t.xc s.chan).eng.idx.toList = l

/-- R198-R200. -/
def Obligations.JobCardSteps : Prop :=
  ∀ (s : State) (n : Nat) (ch : BitVec 3) (c : ChainSt),
    let s' := { s with cur := n, chan := ch }
    let h := s'.xc ch
    let eng := fun (c' : ChainSt) => { h.eng with
      elem := 0, outs := none, parts := [], ask := none, fails := []
      read := !c'.chain && (c'.step == .post || c'.step == .seq) }
    let at_ := fun (t : State) (c' : ChainSt) =>
      let copies := c'.step = .copy ∧ bitsOf (c'.dw 8) 0 32 ≠ 0
      t.xc ch = { h with chain := some c', eng := eng c', early := if copies ∧ h.emitted = false then h.armed else h.early
                         emitted := h.emitted || decide copies }
    let goes := fun (c' : ChainSt) => ∃ t, exec (.jobCard n ch) s = .next t ∧ at_ t c' ∧ XElse s' t ch id
      ∧ { t with cores := s.cores } = s'
    let w := fun (off : Nat) => wordAddr (w64 (c.dw off)) 8
    let quiet := fun (off : Nat) => (w off).1 = true ∧ (w off).2.2 = none ∧ s'.me.tiles = []
      ∧ s'.me.guarded (8 + ch.toNat) (w off).2.1 8 = false
    h.chain = some c → s'.me.status = .running →
      (∀ t bs, c.step = .read → s'.rdA n (8 + ch.toNat) false c.card 128 = .ok bs t →
          let c' := { c with img := chunks 8 16 bs }
          (cardOk c'.dw = true → cardFoots c'.dw = some [] → (∀ x, x ∈ t.me.tracker → x.unread = false) → exec (.jobCard n ch) s =
            .next (t.setChain ch { c' with step := .wait, waitAt := t.me.sched }))
          ∧ (cardOk c'.dw = false → s'.me.uc = none → ∃ u r, exec (.jobCard n ch) s = .next u
            ∧ u.me.call = some (.fault r) ∧ r.cause = .chainFmt ∧ r.addr = BitVec.ofInt 64 c.card ∧ r.obs = 8 + ch.toNat
            ∧ u.mem = s.mem ∧ u.me.spad = s'.me.spad))
      ∧ (c.step = .wait → c.bit 34 = false → goes { c with step := .edges })
      ∧ (c.step = .wait → c.bit 34 = true → quiet 0x30 →
          let v := w64 (s'.me.spad.rdN (w 0x30).2.1 8)
          c.dw 0x38 % 2 ^ 64 ≤ v.toNat → goes { c with step := .edges, last := v })
      ∧ (c.step = .edges → s'.me.edgeHeld ch.toNat = false → goes { c with step := .copy })
      ∧ (c.step = .copy → bitsOf (c.dw 8) 0 32 = 0 → goes { c with step := .post })
      ∧ (c.step = .post → s'.me.writtenAt c.cardScope = true → c.bit 35 = false → goes { c with step := .seq })
      ∧ (c.step = .post → s'.me.writtenAt c.cardScope = true → c.bit 35 = true → h.eng.fails = [] → quiet 0x40 → ∃ t, exec (.jobCard n ch) s = .next t
          ∧ t.me.spad = s'.me.spad.wrN (w 0x40).2.1 8 ((s'.me.spad.rdN (w 0x40).2.1 8 + c.dw 0x48) % 2 ^ 64)
          ∧ at_ t { c with step := .seq } ∧ XElse s' t ch fun x => { x with spad := s'.me.spad })
      ∧ (c.step = .seq → c.seqWord = 0 → cardFoots c.dw = some [] →
          (c.chain = true → c.bit 36 = false → ∃ t, exec (.jobCard n ch) s = .next t ∧ XElse s' t ch id
            ∧ { t with cores := s.cores } = s' ∧ t.xc ch = { h with doneCnt := h.doneCnt + 1, chain := some { c with step := .done }, eng := eng { c with step := .done } })
          ∧ (c.chain = false ∨ c.bit 36 = true → ∃ t, exec (.jobCard n ch) s = .next t ∧ XElse s' t ch id
            ∧ { t with cores := s.cores } = s' ∧ t.xc ch = { h with doneCnt := h.doneCnt + 1, chain := none, eng := h.eng.stepped 0 }))
      ∧ ∀ t bs, c.step = .done → c.card ≠ h.tailSeen.toNat → s'.rdA n (8 + ch.toNat) false c.card 8 = .ok bs t →
          leNat bs ≠ 0 → leNat bs % 128 = 0 → leNat bs < 2 ^ 56 → exec (.jobCard n ch) s =
            .next (t.setChain ch { c with card := leNat bs, step := .read, img := [] })

/-- R186, R196. -/
def Obligations.WatermarkAndOriginRegisters : Prop :=
  ∀ (s : State) (ch : BitVec 3) (a : Src),
    let v := s.sval a
    let st := fld v 0 22
    let en := fld v 22 22
    let k := fld v 44 3
    let h := vget s.me.ch .zero k
    let others := fun (t : State) (k : Nat) => ∀ j, j ≠ k → vget t.me.ch .zero j = vget s.me.ch .zero j
    (st ≤ en → en ≤ 2 ^ 21 → ∃ t g, exec (.wmarm a) s = .next t ∧ vget t.me.ch .zero k = g ∧ g.mark = st ∧ g.wend = en
        ∧ g.filled = [] ∧ g.armed = true ∧ g.early = h.emitted
        ∧ { g with mark := h.mark, wend := h.wend, filled := h.filled, early := h.early, armed := h.armed } = h
        ∧ others t k ∧ Issued s t 1 fun c => { c with ch := s.me.ch })
      ∧ ((en < st ∨ 2 ^ 21 < en) → s.me.status = .running → s.me.uc = none → RaisesS (.wmarm a) s .spadRange v.toNat)
      ∧ ((s.xc ch).eng.cur = none → (s.xc ch).eng.queue = [] → ∃ t, exec (.chOrg ch a) s = .next t
          ∧ vget t.me.ch .zero ch.toNat = { s.xc ch with org := v &&& 0x0FFFFFFFFFFFFFFF }
          ∧ others t ch.toNat ∧ Issued s t 1 fun c => { c with ch := s.me.ch })
      ∧ ((s.xc ch).eng.cur.isSome → exec (.chOrg ch a) s = .next (s.stallS .sysReg))

/-- A step of the HU is done and has changed nothing but what `f` takes back. -/
def Sys2Proof.Machine.HuDone (s t : State) (f : Core → Core) : Prop :=
  t.me.hu = s.me.hu.stepped 0 ∧ f { t.me with hu := s.me.hu } = s.me
    ∧ (∀ n, n ≠ s.cur → t.core n = s.core n) ∧ { t with cores := s.cores } = s

/-- `exec i` writes hypervector register `d` and nothing else. -/
def Sys2Proof.Machine.GivesHv (i : Instr) (s : State) (d : BitVec 4) (v : Nat → Bool) : Prop :=
  ∃ t, exec i s = .next t ∧ (∀ j, j < 4096 → (t.me.hvOf d).getLsbD j = v j) ∧ (∀ r, r ≠ d → t.me.hvOf r = s.me.hvOf r)
    ∧ HuDone s t fun c => { c with hv := s.me.hv }

/-- `exec i` writes TIES and nothing else. -/
def Sys2Proof.Machine.GivesTies (i : Instr) (s : State) (v : Hv) : Prop :=
  ∃ t, exec i s = .next t ∧ t.me.ties = v ∧ HuDone s t fun c => { c with ties := s.me.ties }

/-- One step of expand's generator (R212). -/
def Sys2Proof.Machine.expandStep (x : Word) : Word :=
  let x := x ^^^ (x <<< 13)
  let x := x ^^^ (x >>> 7)
  x ^^^ (x <<< 17)

/-- Doubleword `j` of expand: the generator's state after j + 1 steps. -/
def Sys2Proof.Machine.expandWord (q : Word) (j : Nat) : Word :=
  (List.range (j + 1)).foldl (fun x _ => expandStep x) (if q = 0 then 0x9E3779B97F4A7C15 else q)

/-- R206, R209-R212. -/
def Obligations.HypervectorRegisterSteps : Prop :=
  ∀ (s : State) (d a b : BitVec 4) (e : BitVec 2) (r : BitVec 5) (m : BitVec 12) (q : Src),
    let c := s.me
    let v := s.ev .hu q
    let bit := fun (k : BitVec 4) (j : Nat) => (c.hvOf k).getLsbD j
    let cnt := fun (x : Core) (j : Nat) => (x.counters e).getD j 0
    let lim := fun (x : Int) => if c.baW8.getLsbD e.toNat then min 127 (max (-128) x) else min 7 (max (-8) x)
    let bas := fun (t : State) (w8 : Bool) => (∀ j, j < 4096 → cnt t.me j = 0) ∧ t.me.baW8.getLsbD e.toNat = w8
      ∧ (∀ k, k ≠ e → vget t.me.ba 0 k.toNat = vget c.ba 0 k.toNat ∧ t.me.baW8.getLsbD k.toNat = c.baW8.getLsbD k.toNat)
      ∧ HuDone s t fun x => { x with ba := c.ba, baW8 := c.baW8 }
    GivesHv (.hxor d a b) s d (fun j => bit a j ^^ bit b j)
      ∧ GivesHv (.hrot d a q) s d (fun j => bit a ((j + 4096 - v.toNat % 4096) % 4096))
      ∧ GivesHv (.hrotImm d a m) s d (fun j => bit a ((j + 4096 - m.toNat) % 4096))
      ∧ (∃ t, exec (.hacc e a q) s = .next t
          ∧ (∀ j, j < 4096 → cnt t.me j = lim (if bit a j then cnt c j + v.toInt else cnt c j - v.toInt))
          ∧ (∀ k, k ≠ e → vget t.me.ba 0 k.toNat = vget c.ba 0 k.toNat) ∧ HuDone s t fun x => { x with ba := c.ba })
      ∧ GivesHv (.hthr d e) s d (fun j => if cnt c j = 0 then c.ties.getLsbD j else decide (0 < cnt c j))
      ∧ GivesHv (.hclr d) s d (fun _ => false)
      ∧ (∃ t, exec (.hclrW4 e) s = .next t ∧ bas t false) ∧ (∃ t, exec (.hclrW8 e) s = .next t ∧ bas t true)
      ∧ (∃ t, exec (.hpop r a b) s = .next t
          ∧ RegTakes s t r (BitVec.ofNat 64 ((List.range 4096).countP fun j => bit a j != bit b j))
          ∧ HuDone s t fun x => { x with regs := c.regs, pend := c.pend })
      ∧ GivesHv (.hrnd d q) s d (fun j => (expandWord v (j / 64)).getLsbD (j % 64))
      ∧ GivesTies (.htie a) s (c.hvOf a)
      ∧ (∃ t, exec (.htieSeed q) s = .next t ∧ HuDone s t (fun x => { x with ties := c.ties })
          ∧ ∀ j, j < 4096 → t.me.ties.getLsbD j = (expandWord v (j / 64)).getLsbD (j % 64))
      ∧ GivesTies .htieZero s 0

/-- A valid entry of a partition within a limit, as distance and index. -/
def Sys2Proof.Machine.Hit (s : State) (r limit : Nat) (v : Hv) (x : Nat × Nat) : Prop :=
  ∃ h, h ∈ s.cp.ham ∧ h.1 = r ∧ x = (hvDist h.2.2 v, h.2.1) ∧ x.1 ≤ limit

/-- A list of matches in the order of R215. -/
def Sys2Proof.Machine.Ordered (s : State) (r limit : Nat) (v : Hv) (l : List (Nat × Nat)) : Prop :=
  (∀ x, x ∈ l ↔ Hit s r limit v x) ∧ l.Pairwise fun a b => a.1 < b.1 ∨ (a.1 = b.1 ∧ a.2 ≤ b.2)

/-- A request of the HU goes to S0 and its word stands. -/
def Sys2Proof.Machine.SendsHam (i : Instr) (s : State) (dest : Option Nat) (off : Nat) (op : HamOp) : Prop :=
  ∃ t, exec i s = .next t
    ∧ t.cp = { s.cp with searches := s.cp.searches ++ [{ core := s.cur, dest := dest, off := off, op := op }] }
    ∧ t.me = { s.me with hu := { s.me.hu with elem := 1 } } ∧ (∀ n, n ≠ s.cur → t.core n = s.core n)
    ∧ { t with cores := s.cores, cp := s.cp } = s

/-- The reply to core `n` is there: its request leaves the list, and no other core changes. -/
def Sys2Proof.Machine.HamReplied (s t : State) (n : Nat) : Prop :=
  (∀ m, m ≠ n → t.core m = s.core m)
    ∧ t.cp = { s.cp with searches := s.cp.searches.filter fun y => y.core != n } ∧ { t with cores := s.cores, cp := s.cp } = s

/-- R208, R213-R217, R239, R278. -/
def Obligations.HypervectorMemoryAndSearch : Prop :=
  (∀ (s : State) (d a : BitVec 4) (base r : BitVec 5) (off : BitVec 13) (q : Src) (reg amp : Nat),
    let c := s.me
    let va := s.hea base off
    let v := s.ev .hu q
    s.partition = some (reg, amp) →
      (va % 512 = 0 → va + 512 ≤ 2 ^ 21 → c.tiles = [] → c.guarded 2 va 512 = false →
        GivesHv (.hld d base off true) s d (fun j => (c.spad.rd (va + j / 8)).getLsbD (j % 8))
        ∧ (c.hu.fails = [] → ∃ t, exec (.hst d base off true) s = .next t
          ∧ (∀ j, j < 4096 → (t.me.spad.rd (va + j / 8)).getLsbD (j % 8) = (c.hvOf d).getLsbD j)
          ∧ (∀ o, o < va ∨ va + 512 ≤ o → t.me.spad.rd o = c.spad.rd o) ∧ HuDone s t fun x => { x with spad := c.spad }))
      ∧ (c.uc = none → s.s0Up s.cur = true → v.toNat < amp →
          (c.hu.elem = 0 → SendsHam (.hamw a q) s none 0 (.write reg v.toNat (some (c.hvOf a)))
            ∧ SendsHam (.hamd q) s none 0 (.write reg v.toNat none))
          ∧ ∀ x k, c.hu.elem ≠ 0 → s.cp.searches.find? (fun y => y.core == s.cur) = some x → x.doneAt = some k →
            k ≤ s.fab.cycles → ∃ t, exec (.hamw a q) s = .next t ∧ exec (.hamd q) s = .next t ∧ HamReplied s t s.cur
              ∧ t.me.hu = c.hu.stepped 0 ∧ { t.me with hu := c.hu } = c)
      ∧ (c.hu.elem ≠ 1 → 0 < amp →
          SendsHam (.hamq r a q) s (some r.toNat) 0 (.search reg amp (min v.toNat 4096) (c.hvOf a) 1)
          ∧ (hamkOk v = true →
            SendsHam (.hamk a q) s none (fld v 0 21) (.search reg amp (fld v 32 13) (c.hvOf a) (fld v 24 8))))
      ∧ (c.uc = none → c.status = .running → amp ≤ v.toNat → ∃ t f, exec (.hamw a q) s = .next t
          ∧ t.me.call = some (.fault f) ∧ f.cause = .hamRange ∧ f.slot = 3 ∧ t.cp = s.cp ∧ t.mem = s.mem
          ∧ exec (.hamd q) s = .next t))
  ∧ (∀ (s : State) (x : Search), s.cp.searches.find? (fun y => y.core == x.core) = some x →
      let t := s.hamServe x
      let at_ := t.cp.searches.find? (fun y => y.core == x.core)
      (∀ r e v, x.op = .write r e v → t.cp.searches.length = s.cp.searches.length
        ∧ (at_.map (·.doneAt)) = some (some (max s.fab.cycles (vget s.cp.banks 0 (e % 4)) + 39))
        ∧ (∀ h, (r, e, h) ∈ t.cp.ham ↔ v = some h)
        ∧ ∀ (k : Nat × Nat) (h : Hv), k ≠ (r, e) → ((k.1, k.2, h) ∈ t.cp.ham ↔ (k.1, k.2, h) ∈ s.cp.ham))
      ∧ ∀ r p limit key k, x.op = .search r p limit key k → t.cp.ham = s.cp.ham
        ∧ ∃ l, Ordered s r limit key l ∧ (at_.map (·.found)) = some ((List.range k).map fun j => hamRecord l[j]?))
  ∧ ∀ (s : State) (n : Nat) (x : Search), s.cp.searches.find? (fun y => y.core == n) = some x → s.s0Up n = true →
      ∀ r p limit key k b, x.op = .search r p limit key k → x.doneAt = some b → b ≤ s.fab.cycles →
      let c := s.core n
      let done := fun (t : State) => HamReplied s t n ∧ (t.core n).hu = { c.hu with
        finished := true, due := none, elem := 0, flags := c.hu.flags ||| 0, outs := none, parts := [], limit := none
        read := false, ask := none, hit := false, fails := [] }
      (∀ d w, x.dest = some d → x.found = [w] → ∃ t, exec (.searchCompletion n) s = .next t ∧ done t
          ∧ (d ≠ 0 → d < 32 → (t.core n).reg d = w) ∧ (∀ r, r ≠ d → (t.core n).reg r = c.reg r)
          ∧ { t.core n with hu := c.hu, regs := c.regs, pend := c.pend } = c)
      ∧ (x.dest = none → x.found ≠ [] → c.hu.fails = [] → c.tiles = [] → x.off + 8 * x.found.length ≤ 2 ^ 21 →
          c.guarded 2 x.off (8 * x.found.length) = false → ∃ t, exec (.searchCompletion n) s = .next t ∧ done t
          ∧ (t.core n).spad = c.spad.wrBytes x.off (x.found.flatMap fun w => leBytes 8 w.toNat)
          ∧ { t.core n with hu := c.hu, spad := c.spad } = c)

/-- From `s` the bundle has sent a request of R223 and waits: the note of it, and nothing else. -/
structure Sys2Proof.Machine.AsksCp (s t : State) (q : SyncReq) : Prop where
  sent : t.me.sync = some q
  since : t.me.waitAt = some (s.me.waitAt.getD s.me.sched)
  me : { t.me with sync := s.me.sync, waitAt := s.me.waitAt, stall := s.me.stall, tried := s.me.tried } = s.me
  others : ∀ m, m ≠ s.cur → t.core m = s.core m
  rest : { t with cores := s.cores } = s

/-- A request of R223 stands at its home, without a reply. -/
def Sys2Proof.Machine.AtCp (s : State) (q : SyncReq) : Prop :=
  s.cur < 88 ∧ s.me.uc = none ∧ s.me.sync = some q ∧ q.reply = none

/-- R223-R226. -/
def Obligations.WindowWords : Prop :=
  (∀ (s : State) (d : BitVec 5) (a b : Src) (ts : List WTile),
    let w := windowOf (s.sval a) (s.sval b)
    s.me.uc = none → s.me.sync = none → wdeclOk (s.sval a) (s.sval b) = true →
      s.me.winOverlaps w.spad w.size w.global = false → s.me.freeWin.isSome → w.global + w.size ≤ 2 ^ 56 →
      s.me.performed .core = true → s.wdeclWalk s.me.region w.tile w.reach (vaPages w.global w.size) = .ok ts →
      (∀ x, x ∈ ts → s.wdeclConflict s.cur w.tile x = false) →
        ∃ t, exec (.wdecl d a b) s = .next t ∧ AsksCp s t { pa := 0, at_ := s.frameClk, lim := s.dev.rsplim.toNat, wt := ts })
  ∧ (∀ (s : State) (d : BitVec 5) (a b : Src) (k : Nat) (q : SyncReq),
    let w := windowOf (s.sval a) (s.sval b)
    AtCp s q → s.snoop = [] → s.bis = [] → (∀ p, p ∈ s.cores → p.2.buf = []) → s.me.freeWin = some k →
      (∀ x, x ∈ q.wt → s.wdeclConflict s.cur w.tile x = false ∧ s.routePa s.cur x.pa ≠ .hold ∧ s.routePa s.cur x.pa ≠ .none) →
        ∃ t, exec (.wdecl d a b) s = .next t
          ∧ t.me.sync = some { q with reply := some (.value (BitVec.ofNat 64 k)) }
          ∧ (∀ j, vget t.me.win none j = if j = k then some w else vget s.me.win none j)
          ∧ (∃ l, t.me.tiles = s.me.tiles ++ l ∧ l.map (·.pa) = q.wt.map (·.pa)
              ∧ l.map (·.off) = (List.range q.wt.length).map (fun j => w.spad + j * w.tile)
              ∧ ∀ c, c ∈ l → c.st = .i ∧ c.size = w.tile)
          ∧ (∀ x, x ∈ q.wt → ∃ e, t.entAt (homeDom x.reach (dieOf s.cur)) x.pa = some e ∧ s.cur ∈ e.decl)
          ∧ { t with cores := s.cores, dir := s.dir } = s ∧ (∀ n, n ≠ s.cur → t.core n = s.core n)
          ∧ { t.me with sync := s.me.sync, stall := s.me.stall, tried := s.me.tried, win := s.me.win
                        tiles := s.me.tiles } = s.me)
  ∧ (∀ (s : State) (a : Src) (w : Window),
    s.me.uc = none → s.me.sync = none → vget s.me.win none (s.sval a).toNat = some w → s.me.performed w.reach = true →
      (∀ c, c ∈ s.me.winTiles w → c.settled = true ∧ c.bad = false) →
        let sent := fun (t : State) (kind : MsgKind) =>
          t.me.sync = some { pa := 0, at_ := s.frameClk, lim := s.dev.rsplim.toNat }
          ∧ (∃ l, t.msgs = s.msgs ++ l ∧ ∀ m, m ∈ l → m.kind = kind ∧ m.src = s.cur
              ∧ ∃ c, c ∈ s.me.winTiles w ∧ m.pa = c.pa ∧ m.dom = c.dom ∧ m.mask = c.mask)
          ∧ (∀ c, c ∈ s.me.winTiles w → c.st = .m ∨ c.st = .o → ∃ m, m ∈ t.msgs ∧ m.kind = kind ∧ m.pa = c.pa ∧ m.dom = c.dom)
          ∧ { t with cores := s.cores, msgs := s.msgs } = s ∧ (∀ n, n ≠ s.cur → t.core n = s.core n)
          ∧ { t.me with sync := s.me.sync, waitAt := s.me.waitAt, stall := s.me.stall, tried := s.me.tried
                        tiles := s.me.tiles } = s.me
        ∃ t u, exec (.wclose a) s = .next t ∧ sent t .drop ∧ exec (.wflush a) s = .next u ∧ sent u .flush)
  ∧ (∀ (s : State) (a : Src) (w : Window) (q : SyncReq),
    let k := (s.sval a).toNat
    let inside := fun (o : Nat) => w.spad ≤ o ∧ o < w.spad + w.size
    let now := some { q with reply := some (Reply.value 0) }
    AtCp s q → vget s.me.win none k = some w → s.writingBack s.cur = false →
      (∃ t, exec (.wclose a) s = .next t ∧ t.me.sync = now
          ∧ (∀ j, vget t.me.win none j = if j = k then none else vget s.me.win none j)
          ∧ (∀ c, c ∈ t.me.tiles → c ∈ s.me.tiles ∧ ¬ inside c.off)
          ∧ (∀ o, t.me.spad.rd o = if inside o then Config.freeByte s.draws o else s.me.spad.rd o)
          ∧ t.mem = s.mem ∧ (∀ n, n ≠ s.cur → t.core n = s.core n)
          ∧ { t.me with sync := s.me.sync, stall := s.me.stall, tried := s.me.tried, win := s.me.win, tiles := s.me.tiles
                        spad := s.me.spad } = s.me)
        ∧ ∃ t, exec (.wflush a) s = .next t ∧ t.me.sync = now ∧ { t with cores := s.cores } = s
          ∧ (∀ n, n ≠ s.cur → t.core n = s.core n)
          ∧ { t.me with sync := s.me.sync, stall := s.me.stall, tried := s.me.tried } = s.me)
  ∧ (∀ (s : State) (d : BitVec 5) (a b : Src) (v : Word) (q : SyncReq),
    s.me.uc = none → s.me.sync = some q → q.reply = some (.value v) → GivesReg (.wdecl d a b) s 1 d v
      ∧ (∃ t, exec (.wclose a) s = .next t ∧ Issued s t 1 id) ∧ ∃ t, exec (.wflush a) s = .next t ∧ Issued s t 1 id)
  ∧ ∀ (s : State) (n k d w b : Nat) (a : Access) (x : Window) (c : TileCopy),
      (s.core n).inflight[k]? = some a → a.kind = .wquery d w b → vget (s.core n).win none w = some x →
      (s.core n).tileSp (x.spad + b * x.tile) = some c → 0 < d → d < 32 → a.hWins = false →
        ∃ t, exec (.wqueryReply n k) s = .next t ∧ (t.core n).reg d = BitVec.ofNat 64 (s.tileQuery c)
          ∧ (∀ r, r ≠ d → (t.core n).reg r = (s.core n).reg r) ∧ (t.core n).inflight = (s.core n).inflight.eraseIdx k
          ∧ { t.core n with regs := (s.core n).regs, pend := (s.core n).pend, inflight := (s.core n).inflight } = s.core n
          ∧ Elsewhere n s t

/-- Slot `k` of the ring of a region and priority is in a page that is present (R292). -/
def Sys2Proof.Machine.State.SlotThere (s : State) (r : Region) (prio k : Nat) : Prop :=
  ∃ p, s.walk r.num (r.qbase + (prio * 2 ^ r.qlog + k % 2 ^ r.qlog) * 32) = .ok p

/-- The CP puts an image into slot `k` of a ring, the lowest that no CR stands in, which makes `v` of `s` (R292). -/
def Sys2Proof.Machine.State.RingTakes (s v : State) (r : Region) (i : CrImg) (k : Nat) : Prop :=
  let used := fun (j : Nat) => ∃ x, x ∈ s.cp.crs ∧ x.2.region = r.num ∧ x.2.img.prio = i.prio ∧ x.2.slot = j
    ∧ (x.2.st = .waiting ∨ x.2.st = .queued ∨ ∃ m a, x.2.st = .saved m a)
  k < 2 ^ r.qlog ∧ ¬ used k ∧ (∀ j, j < k → used j) ∧ s.SlotThere r i.prio k
    ∧ s.cpWr r.num (r.qbase + (i.prio * 2 ^ r.qlog + k) * 32)
        ([i.w0, i.w1, i.w2, i.w3].flatMap fun w => leBytes 8 w.toNat) = .ok v

/-- CR `k` has retired from core `n`: the core is idle, the CR is gone, and no array is held for it (R33, R173). -/
def Sys2Proof.Machine.Retired (t : State) (n k : Nat) : Prop :=
  (t.core n).status = .idle ∧ (t.core n).cr = none ∧ (t.core n).inflight = [] ∧ t.cr? k = none
    ∧ ∀ a h, a ∈ t.arrays → a.2.holder = some h → h.1 ≠ k

/-- The context slot of a saved CR can be read, and nothing has written over the parts of it that have no layout
(R306, R312, Table 17-12). -/
structure Sys2Proof.Machine.SlotHas (s : State) (n : Nat) (x : SavedCtx) : Prop where
  ctrl : s.part x (dieOf n) 0 0x4000 = some (slotFill x.free 0 0x4000)
  hyper : fld x.core.w0 56 1 = 0 → (s.part x (dieOf n) 0x4000 0x2000).isSome ∧ (s.part x (dieOf n) 0x6000 0x4000).isSome
    ∧ (s.part x (dieOf n) 0xA000 512).isSome
  tile : fld x.core.w0 57 1 = 0 → (s.part x (dieOf n) 0x10000 0x8000).isSome ∧ (s.part x (dieOf n) 0x20000 0x40000).isSome
    ∧ s.part x (dieOf n) 0xC000 0x1000 = some (slotFill x.free 0xC000 0x1000)
  spad : ∀ r, s.region? x.region = some r → ∀ p, p ∈ outsideWindows (2 * x.core.tiles.length + 2) x.core.tiles 0
    (s.rSpadsave r * 65536) → (s.part x (dieOf n) (0x60000 + p.1) p.2).isSome

/-- Core `n` of `v` stands where the saved CR stood, at index `pc`, and runs from the next cycle on: its registers,
predicates, shapes, counters, queues and progress are those of the save, and its large state is what its slot holds. The
slot is free (R40, R306, R307, R312). -/
structure Sys2Proof.Machine.Restored (s v : State) (n : Nat) (x : SavedCtx) (pc : Nat) : Prop where
  runs : (v.core n).pc = pc ∧ (v.core n).status = .frozen ∧ (v.core n).wake = true
  ctrl : { v.core n with
    pc := x.core.pc, status := x.core.status, wake := x.core.wake, call := x.core.call, waitAt := x.core.waitAt
    pfTag := x.core.pfTag, saving := x.core.saving, inflight := x.core.inflight, hv := x.core.hv, ba := x.core.ba
    baW8 := x.core.baW8, ties := x.core.ties, spad := x.core.spad, imem := x.core.imem, slots := x.core.slots
    tlb := x.core.tlb, stlb := x.core.stlb, locator := x.core.locator, nextTag := x.core.nextTag, gens := x.core.gens
    retired := x.core.retired, traceLost := x.core.traceLost, trace := x.core.trace, hold := x.core.hold
    loading := x.core.loading } = x.core
  hyper : fld x.core.w0 56 1 = 0 → ∀ h b w, s.part x (dieOf n) 0x4000 0x2000 = some h →
    s.part x (dieOf n) 0x6000 0x4000 = some b → s.part x (dieOf n) 0xA000 512 = some w →
      (∀ j, j < 16 → vget (v.core n).hv 0 j = BitVec.ofNat 4096 (leNat ((h.drop (512 * j)).take 512)))
      ∧ (∀ j, j < 4 → vget (v.core n).ba 0 j = BitVec.ofNat 32768 (leNat ((b.drop (4096 * j)).take 4096)))
      ∧ (v.core n).ties = BitVec.ofNat 4096 (leNat w) ∧ (v.core n).baW8 = x.core.baW8
  tile : fld x.core.w0 57 1 = 0 → ∀ a b, s.part x (dieOf n) 0x10000 0x8000 = some a →
    s.part x (dieOf n) 0x20000 0x40000 = some b → (∀ j, j < 0x8000 → (v.array n).accs.rd j = a.getD j 0)
      ∧ (∀ j, j < 0x40000 → (v.array n).tiles.rd j = b.getD j 0) ∧ (v.array n).sparse = x.sparse
  spad : ∀ r, s.region? x.region = some r → ∀ p, p ∈ outsideWindows (2 * x.core.tiles.length + 2) x.core.tiles 0
    (s.rSpadsave r * 65536) → ∀ b, s.part x (dieOf n) (0x60000 + p.1) p.2 = some b →
      ∀ j, j < p.2 → (v.core n).spad.rd (p.1 + j) = b.getD j 0
  slots : ∀ j a, j < 3 → (vget (v.core n).slots none j = some a ↔
    vget x.core.slots none j = some a ∧ (s.array a).holder = some (x.cr, j + 1))
  freed : ∀ y, y ∈ v.cp.saved ↔ y ∈ s.cp.saved ∧ ¬ (y.slot = x.slot ∧ y.cr = x.cr)
  frame : v.mem = s.mem ∧ v.lines = s.lines ∧ v.dir = s.dir ∧ ∀ m, m ≠ n → v.core m = s.core m

/-- R29, R30, R33, R34, R220, R222, R223, R312. The parts of a slot without a layout are as the save left them
(notes/assumptions/14.md); `tryLoad` makes the kernel image resident, as O41 says. -/
def Obligations.ContinuationWords : Prop :=
  (∀ (s t : State) (a : Src) (bs : List Byte),
    let va := (s.sval a).toNat
    s.me.uc = none → s.me.sync = none → s.me.performed .pkg = true → va % 32 = 0 → va + 32 ≤ 2 ^ 56 →
      s.rdA s.cur 3 false va 32 = .ok bs t →
        ∃ u, exec (.spawn a) s = .next u
          ∧ AsksCp t u { pa := 0, at_ := t.frameClk, lim := t.dev.rsplim.toNat, img := bs })
  ∧ (∀ (s : State) (a : Src) (q : SyncReq),
    let u := s.stallS .wait
    let i := CrImg.ofBytes q.img
    AtCp s q →
      (∀ c, u.crCheck s.me.region i = .error c →
        ∃ t, exec (.spawn a) s = .next t ∧ Replied u t s.cur (.fault c 0) ∧ { t with cores := s.cores } = s)
      ∧ ∀ r, u.crCheck s.me.region i = .ok r.num → u.region? r.num = some r →
        (u.queueFull r i = true →
          ∃ t, exec (.spawn a) s = .next t ∧ Replied u t s.cur (.fault .crqFull 0) ∧ { t with cores := s.cores } = s)
        ∧ (∀ k v, u.queueFull r i = false → r.st = .active → (u.reply s.cur (.value 0)).RingTakes v r i k →
            Replied u (u.reply s.cur (.value 0)) s.cur (.value 0)
            ∧ ∃ t c, exec (.spawn a) s = .next t ∧ t.cp.crs = v.cp.crs ++ [(v.cp.nextCr, c)] ∧ c.slot = k
              ∧ c.img = i ∧ c.va = s.sval a ∧ c.region = r.num ∧ c.prio = min i.prio (u.rCeil r)
              ∧ c.tag = u.tagOf s.cur ∧ c.enq = v.frameClk
              ∧ c.st = (if i.ttf = 0 ∧ i.release = 0 then .queued else .waiting)
              ∧ { t with cp := { t.cp with crs := v.cp.crs, nextCr := v.cp.nextCr } } = v))
  ∧ (∀ (s : State) (a : Src) (v : Word) (q : SyncReq), s.me.uc = none → s.me.sync = some q → q.reply = some (.value v) →
      ∃ t, exec (.spawn a) s = .next t ∧ Issued s t 1 id)
  ∧ (∀ (s t : State) (k : Nat) (j : JoinReq), s.cp.joins[k]? = some j → j.core < 88 → j.pf = none →
      s.homeReady j.core j.dom j.pa 64 = .ok () t → t.isPoisoned j.pa 64 = false → t.room j.dom j.pa = true → j.pa % 64 = 0 →
      let count := t.phNat j.dom j.pa 8
      let del := { t with cp := { t.cp with joins := t.cp.joins.eraseIdx k } }
      let low := (del.phWrite j.dom j.pa (le8 0)).markStale j.pa 8
      (1 < count → ∃ u, exec (.joinApply k) s = .next (u.settleTag j.tag) ∧ u.cp.joins = t.cp.joins.eraseIdx k
          ∧ u.phNat j.dom j.pa 8 = count - 1 ∧ u.cp.crs = t.cp.crs ∧ Replied t u j.core (.value 0)
          ∧ ∀ q x, x < j.pa ∨ j.pa + 8 ≤ x → u.phRead q x 1 = t.phRead q x 1)
        ∧ (∀ r n v, let i := CrImg.ofBytes (low.phRead j.dom (j.pa + 32) 32)
            let up := low.joinReply j none
            count = 1 → low.crCheck j.region i = .ok r.num → low.region? r.num = some r → r.st = .active →
            up.queueFull r i = false → up.RingTakes v r i n →
              up.phNat j.dom j.pa 8 = 0 ∧ Replied t up j.core (.value 0)
              ∧ ∃ (u : State) (c : Cr), exec (.joinApply k) s = .next (u.settleTag j.tag)
                ∧ u.cp.crs = v.cp.crs ++ [(v.cp.nextCr, c)] ∧ c.img = i ∧ c.region = r.num ∧ c.tag = j.tag ∧ c.slot = n
                ∧ c.va = BitVec.ofNat 64 (j.va + 32)
                ∧ { u with cp := { u.cp with crs := v.cp.crs, nextCr := v.cp.nextCr } } = v)
        ∧ (count = 0 → ∃ u, exec (.joinApply k) s = .next (u.settleTag j.tag) ∧ u.cp.joins = t.cp.joins.eraseIdx k
          ∧ u.cp.crs = t.cp.crs ∧ Replied t u j.core (.fault .joinUnderflow 0)
          ∧ { u with cores := t.cores, cp := { u.cp with joins := t.cp.joins } } = t))
  ∧ (∀ (s : State) (cr : Cr), s.me.quiet = true → s.me.performed .pkg = true → s.me.tiles = [] →
      s.writingBack s.cur = false → s.me.trace.active = false →
      (∀ x, s.trapped s.cur = some x → x.core.trace.active = false) →
      (∀ k r, s.me.uc = none → s.me.cr = some k → s.cr? k = some cr → k < s.cp.nextCr → s.region? s.me.region = some r →
          (cr.img.joinc = 0 ∨ ∃ q w, s.me.sync = some q ∧ q.reply = some w ∧ ∀ x, w ≠ .expired x) →
            ∃ t, exec .done s = .next t ∧ Retired t s.cur k)
        ∧ (∀ k pa dom u, s.me.uc = none → s.me.cr = some k → s.cr? k = some cr → cr.img.joinc ≠ 0 → s.me.sync = none →
            (s.updCore s.cur fun c => { c with win := Vector.replicate 16 none }).blockAt s.cur cr.img.joinc true
              = .ok (pa, dom) u →
            u.me.trace.active = false → (∀ x, u.trapped s.cur = some x → x.core.trace.active = false) →
            u.routePa s.cur pa ≠ .hold → u.routePa s.cur pa ≠ .none →
              ∃ t j, exec .done s = .next t ∧ t.cp.joins = u.cp.joins ++ [j] ∧ j.va = cr.img.joinc ∧ j.pa = pa
                ∧ j.dom = dom ∧ j.core = s.cur ∧ j.byDone = true ∧ j.region = u.me.region
                ∧ (∃ q, t.me.sync = some q ∧ q.reply = none) ∧ (∀ m, m ≠ s.cur → t.core m = u.core m)
                ∧ { t with cores := u.cores, cp := { t.cp with joins := u.cp.joins } } = u)
        ∧ ∀ id u, s.me.uc = some id → s.cp.ucs.find? (fun x => x.1 == id) = some (id, u) → u.st ≠ .adopted →
            ∃ t, exec .done s = .next t ∧ t.me.status = .idle ∧ t.mem = s.mem
              ∧ (t.cp.ucs.find? (fun x => x.1 == id)).map (·.2.st) = some .complete)
  ∧ ∀ s : State,
      (s.trapped s.cur = none → s.me.uc = none → s.me.status = .running →
        ∃ t r, exec .eret s = .next t ∧ t.me.call = some (.fault r) ∧ r.cause = .illegalInsn ∧ r.info0 = s.me.sWord
          ∧ r.rpc = s.me.pc ∧ t.me.regs = s.me.regs ∧ t.mem = s.mem)
      ∧ ∀ x, s.trapped s.cur = some x → fld (vget x.core.frame 0 0) 8 1 = 1 → s.me.quiet = true →
          s.me.performed .pod = true → s.me.buf = [] → s.me.tiles = [] → s.writingBack s.cur = false → x.core.pc < 8192 →
          s.me.trace.active = false →
          let t := (s.updCore s.cur fun c => { c with win := Vector.replicate 16 none }).updCr x.cr
            fun c => { c with st := .running s.cur }
          SlotHas t s.cur x → ∃ v, exec .eret s = .next (v.tryLoad s.cur)
            ∧ Restored t v s.cur x (fld (vget x.core.frame 0 1) 0 13)
            ∧ ∀ c, s.cr? x.cr = some c → v.cr? x.cr = some { c with st := .running s.cur }

/-- A core can try its bundle, which decodes to `b` (R20). -/
structure Sys2Proof.Machine.CanTry (c : Core) (b : Bundle) : Prop where
  runs : c.status = .running ∧ c.tried = false ∧ c.loading = .done
  time : c.nextIssue ≤ c.sched
  pc : c.pc < 8192
  word : c.bundle = .ok b

/-- R18-R22: one step runs one decoded instruction. -/
def Obligations.StepRunsTheDecodedInstruction : Prop :=
  (∀ (s : State) (i : Instr) (r : List Move), s.agenda = .ev i :: r → step s = exec i { s with agenda := r })
  ∧ (∀ (s t : State) (n : Nat) (r : List Move) (b : Bundle),
      let u := { s with agenda := r, cur := n }
      let c := u.me
      s.agenda = .cc n :: r → CanTry c b → c.held b = none → c.trace.active = false → c.hCheck b.h = none →
        exec b.s (u.upd fun c => { c with issued := false }) = .next t →
          (t.me.issued = true → t.me.countFull b = false → step s = .next (t.upd fun x => x.sendWords b c.regs c.pc))
          ∧ (t.me.issued = false → step s = .next t))
  ∧ ∀ (s t : State) (n : Nat) (k : Unit8) (r : List Move) (i : Instr) (d : Nat),
      let u := ({ s with agenda := r } : State).onUnit n k
      s.agenda = .unit n k :: r → u.me.status = .running → (u.eng k).finished = false → (u.eng k).due = some d →
        d ≤ u.me.sched → u.me.chainOf k = none → u.me.unitInstr k = .ok i → i ≠ .nop → exec i u = .next t → t.me.status ≠ .idle →
          (t.eng k).cur.isSome → t.me.chainOf k = none →
            ((t.eng k).due.isSome → step s = .next t) ∧ ((t.eng k).due = none → step s = t.unitEnd k)

/-- Table 4-3, the float entries. -/
def Sys2Proof.Machine.floatTable : List Nat :=
  [0x3F000000, 0x3E800000, 0x3E000000, 0x3D800000, 0x3D000000, 0x3C800000, 0x3C000000, 0x3B800000, 0x3EAAAAAB, 0x3E2AAAAB,
    0x3E124925, 0x3C010204, 0x3B808081, 0x3B124925, 0x37924925, 0x3F317218, 0x3FB8AA3B, 0x3F3504F3, 0x3FB504F3, 0x40490FDB,
    0x3EA2F983, 0x3F400000, 0x3FC00000, 0xBF000000]

/-- R99 and Table 4-3. -/
def Obligations.SourceFieldSelectsItsOperand : Prop :=
  (∀ (q : Nat) (k : Src → Dec), q < 128 →
    let src : Src := if q < 64 then .reg (BitVec.ofNat 5 q) else .const (BitVec.ofNat 6 (q - 64))
    (Dec.isrc q k = if q < 0x20 ∨ (0x40 ≤ q ∧ q < 0x68) then k src else .error .operand)
      ∧ Dec.fsrc q k = if q < 0x20 ∨ 0x40 ≤ q then k src else .error .operand)
  ∧ (∀ (g : Nat → Word) (r : BitVec 5), (Src.reg r).ival g = g r.toNat
      ∧ (Src.reg r).fval g = ((g r.toNat).extractLsb' 0 32).toNat)
  ∧ (∀ (g : Nat → Word) (e : BitVec 6), let n := e.toNat
      let v : Int := if n < 32 then (n : Int) - 8 else 2 ^ (n - 27)
      (n < 40 → (Src.const e).ival g = BitVec.ofInt 64 v ∧ (Src.const e).fval g = (rne32 (intVal v)).1
          ∧ (rne32 (intVal v)).2 = {})
      ∧ (40 ≤ n → (Src.const e).fval g = floatTable.getD (n - 40) 0))
  ∧ (∀ (w : Nat) (d : BitVec 5) (a : Src), (decodeS w = .ok (.fcvtF32Bf16 d a) ∨ decodeS w = .ok (.fcvtF32Fp16 d a)
      ∨ decodeS w = .ok (.fcvtF32E4m3 d a) ∨ decodeS w = .ok (.fcvtF32E5m2 d a)) → a.isInt = true)
  ∧ ∀ (s : State) (n k w : Nat), let c := s.core n
      c.status = .running → c.tried = false → c.loading = .done → c.nextIssue ≤ c.sched → c.pc < 8192 → c.uc = none →
        c.bundle = .error (.operand, k, w) →
          ∃ t r, exec (.bundleIssue n) s = .next t ∧ (t.core n).call = some (.fault r) ∧ r.cause = .illegalOperand

/-- R18-R21, R27, R97. -/
def Obligations.BundleIssueAndEntryCompletion : Prop :=
  (∀ (s : State) (n : Nat) (b : Bundle),
    let u := { s with cur := n }
    let c := u.me
    CanTry c b →
      (c.held b = none → c.trace.active = false → b.s = .nop → c.countFull b = false → c.hCheck b.h = none →
        (∀ k a e sc, b.x ≠ .xchain k a e sc) →
        ∃ t, exec (.bundleIssue n) s = .next t ∧ t.me.pc = c.pc + 1 ∧ t.me.nextIssue = c.sched + 1 ∧ t.me.regs = c.regs
          ∧ t.me.spad = c.spad ∧ t.me.tried = true
          ∧ (∀ k, (t.me.eng k).queue = (c.eng k).queue ++
              (b.sends.filter fun x => x.1 == k).map fun x => { word := x.2, regs := c.regs, ent := c.pc })
          ∧ t.me.ld = c.ld + b.counts.1 ∧ t.me.st = c.st + b.counts.2.1 ∧ t.me.cp = c.cp + b.counts.2.2.1
          ∧ t.me.tl = c.tl + b.counts.2.2.2 ∧ { t with cores := s.cores, cur := s.cur } = s
          ∧ ∀ m, m ≠ n → t.core m = s.core m)
      ∧ ∀ why, c.held b = some why → exec (.bundleIssue n) s = .next (u.stallS why))
  ∧ (∀ (s : State) (n k w : Nat) (e : DecErr),
      let u := { s with cur := n }
      let c := u.me
      c.status = .running → c.tried = false → c.loading = .done → c.nextIssue ≤ c.sched → c.pc < 8192 → c.uc = none →
        c.bundle = .error (e, k, w) → ∃ t r, exec (.bundleIssue n) s = .next t ∧ t.me.call = some (.fault r)
          ∧ r.cause = (match e with | .insn => .illegalInsn | .operand => .illegalOperand) ∧ r.slot = k
          ∧ r.info0 = BitVec.ofNat 64 w ∧ r.rpc = c.pc ∧ t.me.status = .freezing
          ∧ { t.me with status := c.status, call := c.call, frozenAt := c.frozenAt } = c ∧ Elsewhere n u t)
  ∧ ∀ (s : State) (n : Nat) (k : Unit8) (x : Entry),
      let c := s.core n
      (c.eng k).cur = some x → (c.eng k).finished = true → c.status = .running → c.trace.active = false →
        ∃ t, exec (.macroEntryCompletion n k) s = .next t
          ∧ (∀ j, (t.core n).eng j = if j = k then { Engine.empty with queue := (c.eng k).queue, ready := (c.eng k).ready }
              else c.eng j)
          ∧ (t.core n).fstat = c.fstat ||| (c.eng k).flags ∧ (t.core n).regs = c.regs ∧ (t.core n).spad = c.spad
          ∧ (k = .ve ∨ k = .me → (t.core n).tl = c.tl - 1 ∧ (t.core n).cp = c.cp ∧ (t.core n).ld = c.ld ∧ (t.core n).st = c.st)
          ∧ (∀ j, k = .ch j → (t.core n).cp = c.cp - 1 ∧ (t.core n).tl = c.tl ∧ (t.core n).ld = c.ld ∧ (t.core n).st = c.st)
          ∧ (k = .hu → (t.core n).tl = c.tl ∧ (t.core n).cp = c.cp)
          ∧ Elsewhere n s t

/-- Core `n` of `v` is in the start state of a CR of a region (R32, Table 1-5), which its memory and the other cores of `s`
know nothing of; what the scratchpad and the partner array hold is undefined after a CR of the same region or after none. -/
structure Sys2Proof.Machine.StartState (s v : State) (n region : Nat) (w0 : Word) (desc : List Byte) (s1 s2 s3 : Word) :
    Prop where
  runs : (v.core n).status = .running ∧ (v.core n).region = region ∧ (v.core n).w0 = w0 ∧ (v.core n).desc = desc
    ∧ (v.core n).loading = .full ∧ (v.core n).crVa = s3 ∧ (v.core n).sched = (s.core n).sched
  entry : ∀ k, kdesc desc = some k → (v.core n).pc = k.entries.getD (fld w0 0 6) 0 % 8192
  regs : (v.core n).reg 1 = s1 ∧ (v.core n).reg 2 = s2 ∧ (v.core n).reg 3 = s3
    ∧ ∀ r, r = 0 ∨ 4 ≤ r → (v.core n).reg r = 0
  preds : (v.core n).preds = 1
  vectors : (∀ j, vget (v.core n).sh 0 j = 0) ∧ (∀ j, vget (v.core n).hv 0 j = 0) ∧ (∀ j, vget (v.core n).ba 0 j = 0)
    ∧ (v.core n).ties = 0
  counters : (v.core n).ld = 0 ∧ (v.core n).st = 0 ∧ (v.core n).cp = 0 ∧ (v.core n).tl = 0
  engines : (∀ u, (v.core n).eng u = .empty) ∧ (v.core n).ch = Vector.replicate 8 .zero
    ∧ (v.core n).meShadow = .pop ∧ (v.core n).meActive = .pop ∧ (v.core n).fmtq = [] ∧ (v.core n).tracker = []
  windows : (∀ j, vget (v.core n).win none j = none) ∧ (v.core n).tiles = [] ∧ (v.core n).inflight = []
    ∧ (v.core n).sync = none
  zero : ∀ g, (s.core n).lastRegion = some g → g ≠ region → ∀ o, (v.core n).spad.rd o = 0
    ∧ (v.array n).tiles.rd o = 0 ∧ (v.array n).accs.rd o = 0
  undefined : (∀ g, (s.core n).lastRegion = some g → g = region) → ∃ j k l : Nat, ∀ o,
    (v.core n).spad.rd o = Config.freeByte j o ∧ (v.array n).tiles.rd o = Config.freeByte k o
      ∧ (v.array n).accs.rd o = Config.freeByte l o
  frame : v.mem = s.mem ∧ v.lines = s.lines ∧ v.dir = s.dir ∧ (∀ m, m ≠ n → v.core m = s.core m)
    ∧ ∀ m, m ≠ n → v.array m = s.array m

/-- Only the list of CRs has changed. -/
def Sys2Proof.Machine.OnlyCrs (s t : State) : Prop := { t with cp := { t.cp with crs := s.cp.crs } } = s

/-- R29-R32, R37, R40, R104, R288, R291-R294. `tryLoad` makes a kernel image resident: the last clause. -/
def Obligations.ScheduleEvents : Prop :=
  (∀ (s : State) (k : Nat) (c : Cr), s.cr? k = some c →
    (c.st = .waiting ∨ (c.st = .queued ∧ c.img.ttf ≠ 0 ∧ s.effRelease c ≠ c.rel) →
      (∀ r, s.effRelease c ≤ s.frameClk → s.releasedBefore k c = false → s.region? c.region = some r →
        s.SlotThere r c.img.prio c.slot → ∃ t, exec (.crRelease k) s = .next t ∧ OnlyCrs s t
          ∧ t.cp.crs = (s.cp.crs.filter fun x => x.1 != k) ++
            [(k, { c with st := .queued, rel := s.effRelease c, aged := s.frameClk })])
      ∧ (s.frameClk < s.effRelease c → ∃ t, exec (.crRelease k) s = .next t ∧ OnlyCrs s t
          ∧ t.cr? k = some { c with st := .waiting } ∧ ∀ j, j ≠ k → t.cr? j = s.cr? j))
    ∧ ∀ r, s.region? c.region = some r → 0 < s.rAgelim r → (c.st = .queued ∨ ∃ m v, c.st = .saved m v) →
        c.aged + s.rAgelim r * 4096 ≤ s.frameClk → c.prio < s.rCeil r → ∃ t, exec (.crAging k) s = .next t ∧ OnlyCrs s t
          ∧ t.cr? k = some { c with prio := c.prio + 1, aged := c.aged + s.rAgelim r * 4096 }
          ∧ ∀ j, j ≠ k → t.cr? j = s.cr? j)
  ∧ (∀ (s : State) (n k : Nat) (c : Cr), (s.core n).cr = some k → s.cr? k = some c → 0 < c.deadline →
      c.deadline ≤ s.frameClk → ∃ t, exec (.deadlinePassed n) s = .next t ∧ OnlyCrs s t
        ∧ t.cr? k = some { c with late := true } ∧ ∀ j, j ≠ k → t.cr? j = s.cr? j)
  ∧ (∀ (s t : State) (n k : Nat) (c : Cr) (r : Region), (s.core n).status = .idle → (s.core n).drained = true →
      s.cp.wq = [] →
      (∀ m, m < n → (s.core m).status = .idle → (s.core m).drained = true → (s.core m).since = (s.core n).since →
        ∀ x, x ∈ s.cp.crs → s.poppable m x.2 = false) →
      s.choose n = some (k, c, t) → s.cr? k = some c → t.region? c.region = some r → t.SlotThere r c.img.prio c.slot →
        (k, c) ∈ s.cp.crs ∧ s.poppable n c = true
          ∧ (∀ x, x ∈ s.cp.crs → s.poppable n x.2 = true → x.2.prio ≤ c.prio)
          ∧ { t with cp := { t.cp with regions := s.cp.regions } } = s
          ∧ (c.st = .queued → ∃ v, exec (.crPop n) s = .next (v.tryLoad n).flushOverflow
              ∧ StartState s v n r.num c.img.w0 c.desc (BitVec.ofNat 64 c.img.frame) (BitVec.ofNat 64 c.img.joinc) c.va
              ∧ (v.core n).cr = some k ∧ (v.core n).prio = c.prio ∧ (v.core n).slots = Vector.replicate 3 none
              ∧ v.cr? k = some { c with
                  st := .running n, rel := s.effRelease c
                  deadline := if c.deadline ≠ 0 then c.deadline else if c.img.deadline = 0 then 0
                    else s.effRelease c + 64 * c.img.deadline }
              ∧ ∀ j, j ≠ k → v.cr? j = s.cr? j)
          ∧ ∀ m slot y, c.st = .saved m slot → s.cp.saved.find? (fun y => y.slot == slot && y.cr == k) = some y →
              let st := match y.core.trap with
                | some p => CrSt.trapped n p.1
                | none => .running n
              let u := t.updCr k fun c => { c with st := st }
              let x := { y with core := { y.core with prio := c.prio } }
              SlotHas u n x → ∃ v, exec (.crPop n) s = .next (v.tryLoad n).flushOverflow ∧ Restored u v n x y.core.pc
                ∧ v.cr? k = some { c with st := st })
  ∧ ∀ (s : State) (n : Nat) (k : KDesc),
      let c := s.core n
      let sections := [(k.image, 0, 16 * k.nbund), (k.image + 0x20000, 0x20000, 4 * k.nvsec),
        (k.image + 0x24000, 0x24000, 4 * k.nxsec), (k.image + 0x28000, 0x28000, 4 * k.nmsec)]
      let preload := (k.image + 0x2C000, k.preoff, k.prelen)
      let got := fun (x : Nat × Nat × Nat) (b : List Byte) => s.cpRd c.region x.1 x.2.2 (dieOf n) = .ok b
      let there := fun (x : Nat × Nat × Nat) => (∃ b, got x b ∧ b.length = x.2.2)
        ∧ ∀ p, p ∈ vaPages x.1 x.2.2 → ∃ b, s.cpRd c.region p.1 p.2 (dieOf n) = .ok b
      c.loading ≠ .done → kdesc c.desc = some k → (∀ x, x ∈ sections → there x) → (c.loading = .full → there preload) →
        let t := s.tryLoad n
        (∀ x b, x ∈ sections → got x b → ∀ j, j < x.2.2 → (t.core n).imem.rd (x.2.1 + j) = b.getD j 0)
          ∧ (∀ b, c.loading = .full → got preload b → ∀ o, (t.core n).spad.rd o =
              if k.preoff ≤ o ∧ o < k.preoff + k.prelen then b.getD (o - k.preoff) 0 else c.spad.rd o)
          ∧ (c.loading ≠ .full → (t.core n).spad = c.spad)
          ∧ (t.core n).loading = .done ∧ (t.core n).nextIssue = c.sched + 1
          ∧ { t.core n with imem := c.imem, spad := c.spad, loading := c.loading, nextIssue := c.nextIssue
                            tried := c.tried } = c
          ∧ (∀ m, m ≠ n → t.core m = s.core m) ∧ { t with cores := s.cores, draws := s.draws } = s

/-- The freeze of core `n` for a fault has taken effect: the frame is Table 18-2's, and nothing but waits is given up. -/
def Sys2Proof.Machine.FrozenFor (s t : State) (n : Nat) (r : FaultRec) : Prop :=
  let c := s.core n
  let f := fun k => vget (t.core n).frame 0 k
  (t.core n).status = .frozen ∧ (t.core n).frozenAt = s.frameClk
    ∧ fld (f 0) 0 8 = r.cause.code ∧ fld (f 0) 8 1 = r.cause.restarts.toNat ∧ fld (f 0) 9 4 = r.obs
    ∧ fld (f 0) 13 2 = r.slot ∧ fld (f 0) 15 8 = r.sub ∧ fld (f 0) 23 1 = r.wr.toNat
    ∧ f 1 = BitVec.ofNat 64 (c.pc % 8192) ∧ f 2 = r.addr ∧ f 3 = r.info0 ∧ f 4 = r.info1 ∧ f 5 = r.info2
    ∧ f 6 = BitVec.ofNat 64 s.frameClk ∧ f 7 = BitVec.ofNat 64 c.sched
    ∧ { t.core n with status := c.status, frozenAt := c.frozenAt, frame := c.frame, issued := c.issued, sync := c.sync
                      qHead := c.qHead } = c
    ∧ Elsewhere n s t

/-- A list of parts of a slot is written, in order, as accesses of the region's own. -/
def Sys2Proof.Machine.WritesParts (region die slot : Nat) : State → List (Nat × List Byte) → State → Prop
  | s, [], u => u = s
  | s, x :: r, u => ∃ t, s.cpWr region (slot + x.1) x.2 die = .ok t ∧ WritesParts region die slot t r u

/-- The save of core `n` begins: it drops its window tiles, and the parts of Table 17-12 are written into the slot. The
bytes of the parts that have no layout are free (notes/assumptions/14.md). -/
def Sys2Proof.Machine.SaveBegins (s u : State) (n slot free : Nat) (r : Region) : Prop :=
  let d := (s.core n).tiles.foldl (fun s t => s.sendDrop n false t) s
  let c := d.core n
  let open_ := fun (off len : Nat) => (off, (List.range len).map fun k => Config.freeByte free (off + k))
  let parts := [open_ 0 0x4000]
    ++ (if fld c.w0 56 1 = 0 then
      [(0x4000, c.hv.toList.flatMap fun h => leBytes 512 h.toNat), (0x6000, c.ba.toList.flatMap fun b => leBytes 4096 b.toNat),
       (0xA000, leBytes 512 c.ties.toNat)] else [])
    ++ (if fld c.w0 57 1 = 0 then
      [open_ 0xC000 0x1000, (0x10000, (d.array n).accs.rdBytes 0 0x8000), (0x20000, (d.array n).tiles.rdBytes 0 0x40000)] else [])
    ++ (outsideWindows (2 * c.tiles.length + 2) c.tiles 0 (d.rSpadsave r * 65536)).map
        fun p => (0x60000 + p.1, c.spad.rdBytes p.1 p.2)
  d.region? c.region = some r ∧ free = d.draws
    ∧ ∃ w, WritesParts r.num (dieOf n) slot { d with draws := d.draws + 1 } parts w
      ∧ u = w.updCore n fun c => { c with saving := some (slot, free) }

/-- The context of core `n` has gone to a slot, the lowest that is free, in this step or in one before it, and `w` is the
state once the CP has performed what it can of its writes (R306, R307). -/
def Sys2Proof.Machine.SaveAt (s w : State) (n slot free : Nat) (r : Region) : Prop :=
  ((s.core n).saving = some (slot, free) ∧ w = s.cpDrain)
    ∨ ((s.core n).saving = none ∧ s.freeSlot r = some slot ∧ ∃ u, SaveBegins s u n slot free r ∧ w = u.cpDrain)

/-- The saved context of core `n` of `w` is in the list. -/
def Sys2Proof.Machine.SavedIn (w v : State) (n slot free : Nat) : Prop :=
  let c := w.core n
  ∃ x, v.cp.saved = w.cp.saved ++ [x] ∧ x.slot = slot ∧ x.region = c.region ∧ x.cr = c.cr.getD 0 ∧ x.free = free
    ∧ x.sparse = (w.array n).sparse
    ∧ { x.core with spad := c.spad, imem := c.imem, hv := c.hv, ba := c.ba, ties := c.ties, tlb := c.tlb, stlb := c.stlb
                    locator := c.locator, gens := c.gens, retired := c.retired, saving := c.saving } = c

/-- Core `n` of `w` has been saved and is idle. -/
structure Sys2Proof.Machine.SavedAway (w v : State) (n slot free : Nat) : Prop where
  saved : SavedIn w v n slot free
  idle : (v.core n).status = .idle ∧ (v.core n).cr = none ∧ (v.core n).trap = none ∧ (v.core n).call = none
    ∧ (v.core n).pfTag = none ∧ (v.core n).saving = none ∧ (v.core n).tiles = [] ∧ (v.core n).sched = (w.core n).sched
    ∧ (v.core n).lastRegion = some (w.core n).region
  frame : { v with cores := w.cores, arrays := w.arrays, cp := { v.cp with saved := w.cp.saved } } = w
    ∧ (∀ m, m ≠ n → v.core m = w.core m ∧ v.array m = w.array m)
    ∧ { v.array n with lastRegion := (w.array n).lastRegion } = w.array n

/-- R306-R313, R317, R318, R242. -/
def Obligations.ExceptionEntry : Prop :=
  (∀ (s : State) (n : Nat) (r : FaultRec),
    let c := s.core n
    c.status = .freezing → c.call = some (.fault r) → c.unstoppable = false → (∀ p, p ∈ s.cp.parks → p.core ≠ n) →
      (∀ p, p ∈ s.cp.posts → p.core ≠ n) → c.trace.active = false → c.me.due = none → c.ve.due = none →
      r.obs < 16 → r.slot < 4 → r.sub < 256 →
        (r.cause ≠ .pageFault → (r.cause = .waitLimit → s.defWait n = false) →
          ∃ t, FrozenFor s t n r
            ∧ exec (.freeze n) s = .next (if c.trap.isSome then t.failCore n 0x03 else t))
        ∧ (r.cause = .pageFault → c.pfTag = none →
          let page := r.addr.toNat / 65536 * 65536
          let old := s.cp.pfs.find? fun p => p.region == c.region && p.va == page
          ∃ f t, FrozenFor s f n r ∧ exec (.freeze n) s = .next t
            ∧ (∀ p, old = some p → t = f.updCore n fun c => { c with pfTag := some p.tag })
            ∧ (old = none → t.core n = { f.core n with pfTag := some s.cp.nextPf }
                ∧ t.cp.nextPf = (s.cp.nextPf + 1) % 2 ^ 32
                ∧ (∃ p, p ∈ t.cp.pfs ∧ p.tag = s.cp.nextPf ∧ p.region = c.region ∧ p.va = page ∧ p.core = n
                    ∧ p.wr = r.wr ∧ p.obs = r.obs ∧ p.leaf = r.leaf)
                ∧ (∀ p, p ∈ s.cp.pfs → ∃ q, q ∈ t.cp.pfs ∧ { q with posted := p.posted } = p)
                ∧ ∀ m, m ≠ n → (t.core m).regs = (s.core m).regs ∧ (t.core m).pc = (s.core m).pc)))
  ∧ (∀ (s w : State) (n slot free : Nat) (r : Region),
      let c := s.core n
      let k := c.cr.getD 0
      c.status = .frozen → s.settled n = true → s.region? c.region = some r →
        (s.toTrap n = true →
          (s.trapKernel r = none → exec (.trapDelivery n) s = .next (s.failCore n 0x04))
          ∧ ∀ desc, s.trapKernel r = some desc → SaveAt s w n slot free r →
              (w.cp.wq ≠ [] → exec (.trapDelivery n) s = .next w)
              ∧ (w.cp.wq = [] → ∃ v, exec (.trapDelivery n) s = .next (v.tryLoad n) ∧ SavedIn w v n slot free
                  ∧ StartState (w.updCore n fun c => { c with lastRegion := some c.region }) v n r.num (s.rTrapc r) desc
                      (BitVec.ofNat 64 slot) 0 c.crVa
                  ∧ (v.core n).trap = some (slot, k) ∧ (v.core n).cr = some k ∧ (v.core n).prio = c.prio
                  ∧ (v.core n).slots = c.slots ∧ v.cr? k = (w.cr? k).map fun x => { x with st := .trapped n slot }))
        ∧ ∀ tag, c.pfTag = some tag → c.frozenAt + 12000 < s.frameClk → SaveAt s w n slot free r →
            (w.cp.wq ≠ [] → exec (.pageFaultSave n) s = .next w)
            ∧ (w.cp.wq = [] → ∃ v, SavedAway w v n slot free
                ∧ exec (.pageFaultSave n) s = .next (v.updCr k fun x => { x with st := .aside n slot tag })))
  ∧ (∀ (s : State) (tag : Nat), (∃ p, p ∈ s.cp.pfs ∧ p.tag = tag) → (∀ x, x ∈ s.cp.crs → ∀ n v, x.2.st ≠ .aside n v tag) →
      (∀ j, j ∈ s.cp.joins → j.pf ≠ some tag) →
      (∀ x, x ∈ s.cores → (s.core x.1).pfTag = some tag →
        s.frameClk ≤ (s.core x.1).frozenAt + 12000
          ∧ ∀ r, (s.core x.1).call = some (.fault r) → s.walkAgain (s.core x.1).region r.addr.toNat r.wr = none) →
        ∃ u : State, exec (.resolve tag) s = .next u.flushPfs ∧ u.cp.pfs = s.cp.pfs.filter (fun p => p.tag != tag)
          ∧ u.mem = s.mem ∧ u.lines = s.lines
          ∧ ∀ x, x ∈ s.cores →
              let c := s.core x.1
              let waits := c.pfTag = some tag ∧ c.status = .frozen ∧ ∃ r, c.call = some (.fault r)
              (waits → (u.core x.1).wake = true ∧ (u.core x.1).call = none ∧ (u.core x.1).pfTag = none
                ∧ { u.core x.1 with wake := c.wake, call := c.call, waitAt := c.waitAt, pfTag := c.pfTag, saving := c.saving
                                    inflight := c.inflight } = c)
              ∧ (¬ waits → u.core x.1 = c))
  ∧ ∀ (s : State) (n : Nat), (s.core n).heldFaults = [] → (s.core n).trace.active = false →
      let t := s.restart n
      let c := s.core n
      (t.core n).status = .running ∧ (t.core n).wake = false ∧ Elsewhere n s t
        ∧ (∀ u, { (t.core n).eng u with ask := (c.eng u).ask } = c.eng u
            ∧ ((t.core n).eng u).ask = if u = .me then c.me.ask else (c.eng u).ask.map fun q => { q with at_ := s.frameClk })
        ∧ { t.core n with status := c.status, wake := c.wake, tried := c.tried, since := c.since, ve := c.ve, hu := c.hu
                          ch := c.ch } = c

/-- R143, R273, R295. -/
def Obligations.PreemptionAndWaitLimit : Prop :=
  (∀ (s : State) (n : Nat), s.victim n = true → (∀ x, x ∈ s.cores → x.1 ≠ n → s.victim x.1 = true → s.worse x.1 n = false) →
    ∃ t, exec (.preemption n) s = .next t ∧ (t.core n).status = .freezing ∧ (t.core n).call = some .preempt
      ∧ (t.core n).frozenAt = s.frameClk
      ∧ { t.core n with status := (s.core n).status, call := (s.core n).call, frozenAt := (s.core n).frozenAt } = s.core n
      ∧ Elsewhere n s t)
  ∧ (∀ (s w : State) (n slot free : Nat) (r : Region),
      let c := s.core n
      let k := c.cr.getD 0
      c.status = .frozen → s.settled n = true → s.region? c.region = some r → SaveAt s w n slot free r →
        let saves := fun (i : Instr) (head : Bool) =>
          (w.cp.wq ≠ [] → exec i s = .next w)
          ∧ (w.cp.wq = [] → ∃ v, SavedAway w v n slot free ∧ ∀ x y q j, v.cr? k = some x →
              (x.st = .running n ∨ ∃ a, x.st = .trapped n a) → v.region? x.region = some q → v.RingTakes y q x.img j →
                let e := (k, { x with st := .saved n slot, aged := v.frameClk, slot := j })
                let rest := y.cp.crs.filter fun z => z.1 != k
                exec i s = .next { y with cp := { y.cp with crs := if head then e :: rest else rest ++ [e] } })
        (c.call = some .preempt → saves (.preemption n) true)
        ∧ (c.call = some .yield → c.ve.due = none → saves (.freeze n) false)
        ∧ ∀ f, c.call = some (.fault f) → f.cause = .waitLimit → s.defWait n = true → saves (.waitLimit n) false)
  ∧ (∀ (s : State) (n : Nat) (r : Region), (s.core n).status = .frozen → (s.core n).call = some .preempt →
      s.settled n = true → s.region? (s.core n).region = some r → (s.core n).saving = none → s.freeSlot r = none →
        ∃ t, exec (.preemption n) s = .next t ∧ (t.core n).wake = true ∧ (t.core n).call = none ∧ t.cp = s.cp ∧ Elsewhere n s t)
  ∧ (∀ (s : State) (n t0 : Nat) (i : Instr) (lim addr : Word),
      let u := { s with cur := n }
      let c := s.core n
      c.status = .running → c.uc = none → c.waitAt = some t0 → s.waitAtPc n = some (i, lim, addr) →
        (lim = 0 → exec (.waitLimit n) s = .next u)
        ∧ (lim ≠ 0 → t0 + lim.toNat ≤ c.sched → u.waitHolds i = false →
            ((∃ d a b sc, i = .waita d a b sc) ∨ ∃ d a b, i = .waitq d a b) →
            ∃ t r, exec (.waitLimit n) s = .next t ∧ t.me.call = some (.fault r) ∧ r.cause = .waitLimit ∧ r.addr = addr
              ∧ r.info0 = (match i with | .waitq .. => c.qHead.getD c.waitVals.1 | _ => c.waitVals.1)
              ∧ r.info1 = c.waitVals.2 ∧ r.rpc = c.pc ∧ t.me.status = .freezing
              ∧ { t.me with status := c.status, call := c.call, frozenAt := c.frozenAt } = c ∧ Elsewhere n u t)
        ∧ ∀ q p h, lim ≠ 0 → t0 + lim.toNat ≤ c.sched → ((∃ d a b, i = .sbwait d a b) ∨ ∃ d a b, i = .fget d a b) →
            c.sync = some q → q.parked = true → q.reply = none →
            (∀ x, x ∈ s.cp.posts → x.pa = q.pa → x.op.last = true) →
            s.cp.parks.find? (fun p => p.core == n) = some p → u.homeReady n p.dom p.pa 32 = .ok () h →
              let at_ := if p.fut then p.pa + 8 else p.pa
              let now := h.phNat p.dom at_ 8
              let alone := ∀ x, x ∈ s.cp.parks → x.core ≠ n → ¬ (x.fut = true ∧ x.dom = p.dom ∧ x.pa = p.pa)
              ∃ t r, exec (.waitLimit n) s = .next t ∧ t.me.call = some (.fault r) ∧ r.cause = .waitLimit ∧ r.addr = addr
                ∧ r.info0 = BitVec.ofNat 64 now ∧ r.rpc = c.pc ∧ t.me.sync = none
                ∧ r.info1 = (match i with | .sbwait _ _ b => b.ival c.reg | _ => 0)
                ∧ t.cp.parks = h.cp.parks.filter (fun x => x.core != n)
                ∧ (p.fut = true → now % 4 = 2 → alone → at_ % 128 + 8 ≤ 128 → t.phNat p.dom at_ 8 = now / 4 * 4)
                ∧ (p.fut = false ∨ now % 4 ≠ 2 ∨ ¬ alone → t.mem = h.mem ∧ t.lines = h.lines))
  ∧ ∀ (s : State) (n : Nat), (s.core n).stall = .wait → ∃ t, exec (.waitReread n) s = .next t
      ∧ t.core n = { s.core n with tried := false } ∧ Elsewhere n s t

/-- Access `k` of core `n` has ended, with its cause in the failure record. -/
def Sys2Proof.Machine.FailsAcc (s t : State) (n k : Nat) (a : Access) (f : FailCause) : Prop :=
  let c := s.core n
  let cause := if a.kind.dest.isSome then FailCause.atomicUnknown else f
  (t.core n).inflight = c.inflight.eraseIdx k ∧ (t.core n).failRec = (c.recordFail cause a.addr).failRec
    ∧ (t.core n).st = c.st - 1 ∧ (t.core n).gens = tabSet c.gens a.tag ((a.gen + 1) % 16)
    ∧ (∀ d, a.kind.dest = some d → a.hWins = false → d < 32 → (t.core n).reg d = 0)
    ∧ (∀ d, a.kind.dest ≠ some d → (t.core n).reg d = c.reg d)
    ∧ (t.core n).buf = c.buf.filter (fun w => w.tag != some a.tag)
    ∧ { t.core n with inflight := c.inflight, failRec := c.failRec, st := c.st, gens := c.gens, retired := c.retired
                      regs := c.regs, pend := c.pend, buf := c.buf } = c
    ∧ Elsewhere n s t

/-- R319, R321, R337, R359. The bytes that a read given up delivers are a free value. -/
def Obligations.RequestFailures : Prop :=
  (∀ (s : State) (n k : Nat) (a : Access),
    let c := s.core n
    c.inflight[k]? = some a → a.held = false → k < 1000 →
      let writes := (∃ v, a.kind = .store v) ∨ (∃ d o u v, a.kind = .amo d o u v) ∨ ∃ d x v, a.kind = .cas d x v
      let reads := (∃ d e, a.kind = .load d e) ∨ (∃ m, a.kind = .pref m) ∨ ∃ d w b, a.kind = .wquery d w b
      let lim := s.dev.rsplim.toNat
      (a.atSrc = false → a.at_ + a.lim ≤ s.frameClk →
        (writes → ∃ t, exec (.requestTimeout n k) s = .next t ∧ FailsAcc s t n k a (a.err.getD .timeout))
        ∧ (reads → a.retried = false → ∃ t b, exec (.requestTimeout n k) s = .next t
            ∧ (t.core n).inflight = c.inflight.set k b ∧ b.retried = true ∧ b.err = none ∧ b.at_ = s.frameClk ∧ b.lim = lim
            ∧ (c.nextTag < 4096 → (∃ x, x < 4096 ∧ (∀ y, y ∈ c.inflight → y.tag ≠ x) ∧ ∀ r, r ∈ c.retired → r.1 ≠ x) →
                b.tag ≠ a.tag)
            ∧ { b with tag := a.tag, gen := a.gen, at_ := a.at_, lim := a.lim, retried := a.retried, err := a.err
                       sent := a.sent, wants := a.wants, applied := a.applied } = a
            ∧ (t.core n).gens = tabSet c.gens a.tag ((a.gen + 1) % 16)
            ∧ (t.core n).buf = c.buf.filter (fun w => w.tag != some a.tag)
            ∧ { t.core n with inflight := c.inflight, nextTag := c.nextTag, gens := c.gens, retired := c.retired
                              buf := c.buf } = c
            ∧ Elsewhere n s t)
        ∧ (∀ d e, a.kind = .load d e → a.retried = true → c.uc = none → c.status = .running → c.call = none →
            ∃ t r, exec (.requestTimeout n k) s = .next t ∧ (t.core n).call = some (.fault r) ∧ r.cause = .rdTimeout
              ∧ r.obs = 3 ∧ r.addr = BitVec.ofNat 64 a.addr ∧ r.rpc = c.pc ∧ (t.core n).status = .freezing
              ∧ (t.core n).inflight = c.inflight.eraseIdx k ∧ (t.core n).ld = c.ld - 1
              ∧ (a.hWins = false → 0 < d → d < 32 → (t.core n).reg d = a.result (Config.freeWord s.draws).toNat)
              ∧ (∀ r, r ≠ d → (t.core n).reg r = c.reg r) ∧ t.draws = s.draws + 1
              ∧ { t.core n with status := c.status, call := c.call, frozenAt := c.frozenAt, inflight := c.inflight, ld := c.ld
                                regs := c.regs, pend := c.pend, gens := c.gens, retired := c.retired, buf := c.buf } = c
              ∧ { t with cores := s.cores, draws := s.draws } = s ∧ ∀ m, m ≠ n → t.core m = s.core m))
      ∧ (∀ e, a.err = none → a.atSrc = false → ¬ (a.applied = true ∧ (e = .poison ∨ e = .refused)) →
          ∃ t, exec (.err n k e) s = .next t
            ∧ (t.core n).inflight = c.inflight.set k { a with err := some e }
            ∧ { t.core n with inflight := c.inflight } = c ∧ Elsewhere n s t)
      ∧ (∀ e, a.applied = true → e = .poison ∨ e = .refused → exec (.err n k e) s = .next s)
      ∧ (∀ e, a.err = some e → a.at_ + a.lim / 2 ≤ s.frameClk → writes →
          ∃ t, exec (.delayedFailureReport n k) s = .next t ∧ FailsAcc s t n k a e)
      ∧ ((∃ d e, a.kind = .load d e) → c.uc = none → (a.sp = true → c.tileSp a.addr = none) →
          exec (.dataPoison n k) s = .next (s.failCore n 0x01))
      ∧ (a.atSrc = false → exec (.holdEnd n k) s = .next s)
      ∧ (a.atSrc = true → a.sent = false → a.err = none →
          (s.accHeld n a = true → exec (.holdEnd n k) s = .next s)
          ∧ (s.accHeld n a = false → s.accBlocked n k a = false →
              ∃ u b, (u.core n).inflight = c.inflight.set k b ∧ b.atSrc = false ∧ b.at_ = s.frameClk ∧ b.lim = lim
                ∧ b.gen = tabGet 0 c.gens b.tag
                ∧ { b with tag := a.tag, gen := a.gen, at_ := a.at_, lim := a.lim, atSrc := a.atSrc } = a
                ∧ { u.core n with inflight := c.inflight, nextTag := c.nextTag } = c ∧ Elsewhere n s u
                ∧ (reads → exec (.holdEnd n k) s = exec (.loadCompletion n k) u)
                ∧ (writes → (∀ w, w ∈ c.buf → w.tag = none) → exec (.holdEnd n k) s = exec (.writePerformed n k) u))))
  ∧ (∀ (s : State) (n : Nat) (u : Unit8) (q : Ask), ((s.core n).eng u).ask = some q →
      let k := 1000 + unitObs u
      let e := (s.core n).eng u
      let only := fun (i : Instr) (x : Engine) =>
        ∃ t, exec i s = .next t ∧ (∀ v, (t.core n).eng v = if v = u then x else (s.core n).eng v) ∧ (t.core n).regs = (s.core n).regs
          ∧ (t.core n).pc = (s.core n).pc ∧ (t.core n).spad = (s.core n).spad ∧ Elsewhere n s t
      let reported := fun (i : Instr) (f : FailCause) =>
        (q.wr = true → only i { e with ask := none, fails := e.fails ++ [(q.sp, q.addr, f)] })
        ∧ (q.wr = false → q.second = false → only i { e with
            ask := some { q with second := true, at_ := s.frameClk, lim := s.dev.rsplim.toNat, err := none } })
        ∧ (q.wr = false → q.second = true → only i { e with ask := some { q with dead := true } })
      (q.dead = false → q.err = none → q.at_ + q.lim ≤ s.frameClk → reported (.requestTimeout n k) .timeout)
      ∧ (∀ f, q.err = none → only (.err n k f) { e with ask := some { q with err := some f } })
      ∧ (∀ f, q.dead = false → q.err = some f → q.at_ + q.lim / 2 ≤ s.frameClk → reported (.delayedFailureReport n k) f)
      ∧ (q.dead = true → q.wr = false → s.rdA n (unitObs u) q.sp q.addr q.len = .err (.refused q.addr)))
  ∧ ∀ (s : State) (n tag gen : Nat),
      let hit := (s.core n).inflight.any fun a => a.tag == tag && a.gen == gen
      ∃ t, exec (.lateDrop n tag gen) s = .next t ∧ { t with dev := { t.dev with lateDrop := s.dev.lateDrop } } = s
        ∧ t.dev.lateDrop.toNat = if hit then s.dev.lateDrop.toNat else min (s.dev.lateDrop.toNat + 1) (2 ^ 32 - 1)

/-- R244, R286, R287, R299, R301. -/
def Obligations.LaunchAndUndercoatEvents : Prop :=
  (∀ (s : State) (q : LaunchQ) (r rr : Region) (bs : List Byte), s.lq? q.num = some q → s.region? q.region = some r →
    r.st = .active → q.pend = none → q.tag = 0 → q.head < q.tail → s.cp.predEn = false → s.cp.wq = [] →
    s.cpGather (s.launchReads q) = (true, s) →
      let va := q.ring + 32 * (q.head % 2 ^ q.log2n)
      let i := CrImg.ofBytes bs
      let u := s.updLq q.num fun x => { x with hit := none }
      u.cpRd q.region va 32 = .ok bs → (∀ u, u ∈ s.cp.ucs → u.2.queue ≠ q.num) →
        u.crCheck q.region i = .ok rr.num → u.region? rr.num = some rr → u.queueFull rr i = false →
          let t := u.headOn q q.head
          (∀ v k, rr.st = .active → t.RingTakes v rr i k →
            ∃ w c, exec (.launchQueuePoint q.num) s = .next w ∧ w.cp.crs = v.cp.crs ++ [(v.cp.nextCr, c)] ∧ c.img = i
              ∧ c.va = BitVec.ofNat 64 va ∧ c.region = rr.num ∧ c.tag = s.cp.nextLaunch ∧ c.slot = k
              ∧ c.prio = min i.prio (t.rCeil rr)
              ∧ c.st = (if i.ttf = 0 ∧ i.release = 0 then .queued else .waiting)
              ∧ { w with cp := { w.cp with crs := v.cp.crs, nextCr := v.cp.nextCr } } = v)
          ∧ (t.lq? q.num).map (fun x => (x.head, x.tag, x.tail)) = some (q.head + 1, s.cp.nextLaunch, q.tail)
          ∧ t.cp.nextLaunch = s.cp.nextLaunch + 1)
  ∧ (∀ (s : State) (q : LaunchQ) (i : CrImg) (args : Vector Word 4), s.lq? q.num = some q → q.hit = some (i, args) →
      s.cp.wq = [] →
      let t := s.updLq q.num fun x => { x with hit := none }
      (t.lq? q.num).map (·.hit) = some none
        ∧ (s.cp.predEn = false → exec (.undercoatStart q.num) s = .next t)
        ∧ ∀ rn r d desc n, t.crCheck q.region i = .ok rn → t.region? rn = some r → t.kernel rn i.w0 = some d →
            t.cpRd rn (fld i.w0 6 50 * 64) 256 = .ok desc → s.cp.predEn = true → r.st = .active → t.rUcen r = true →
            t.rDustq r ≠ 0 → d.elig = true → (∀ f, f ∈ d.foots → f.ok d.ign args = true) → i.ttf = 0 → i.release = 0 →
            (∀ u, u ∈ s.cp.ucs → u.2.queue ≠ q.num) → t.ucCore r = some n →
              let k := if q.pend ≠ none ∧ q.tag = 0 then q.head + 1 else q.head
              let va := BitVec.ofNat 64 (q.ring + 32 * (k % 2 ^ q.log2n))
              let id := s.cp.nextLaunch
              (s.core n).status = .idle ∧ s.rPlace r n = true ∧ (s.array n).holder = none
                ∧ ∃ u v, exec (.undercoatStart q.num) s = .next (v.tryLoad n)
                  ∧ StartState ({ t with cp := { t.cp with ucs := t.cp.ucs ++ [(id, u)], nextLaunch := id + 1 } }.stat r.num 1
                      (· + 1)) v n r.num i.w0 desc (BitVec.ofNat 64 i.frame) (BitVec.ofNat 64 i.joinc) va
                  ∧ u.queue = q.num ∧ u.k = k ∧ u.core = n ∧ u.region = r.num ∧ u.img = i ∧ u.args = args ∧ u.va = va
                  ∧ u.st = .running ∧ u.stale = false ∧ u.dust = []
                  ∧ (v.core n).uc = some id ∧ (v.core n).cr = none ∧ (v.core n).prio = min i.prio (s.rCeil r))
  ∧ (∀ (s : State) (id : Nat) (u : Undercoat), s.cp.ucs = [(id, u)] → u.st ≠ .adopted →
      let gone := fun (t : State) => t.cp.ucs = [] ∧ ((s.core u.core).uc = some id →
        (t.core u.core).status = .idle ∧ (t.core u.core).inflight = [] ∧ (t.core u.core).buf = [])
      (u.stale = true → ∃ t, exec (.undercoatDiscard u.core) s = .next t ∧ t = s.discardUc id 3 ∧ gone t)
      ∧ (u.stale = false → (∀ r, s.region? u.region = some r → r.st ≠ .active) →
          ∃ t, exec (.undercoatDiscard u.core) s = .next t ∧ t = s.discardUc id 5 ∧ gone t))
  ∧ ∀ (s : State) (n : Nat), (s.core n).trace.active = true → 8 ≤ (s.core n).trace.old →
      ∃ t, exec (.chalkLineWrite n) s = .next t ∧ t = s.chalkLine n
        ∧ (t.core n).trace.store = (s.core n).trace.store.drop 8 ∧ (t.core n).regs = (s.core n).regs

/-- The home has taken message `k`, its entry is `e'`, it has sent `ms`, and nothing else has changed. -/
def Sys2Proof.Machine.HomeTakes (i : Instr) (s : State) (k : Nat) (m : Msg) (e' : DirEnt) (ms : List Msg) : Prop :=
  ∃ t, exec i s = .next t ∧ t.msgs = s.msgs.eraseIdx k ++ ms ∧ t.entAt m.dom m.pa = some e'
    ∧ (∀ d p, ¬ (d = m.dom ∧ p = m.pa) → t.entAt d p = s.entAt d p) ∧ { t with msgs := s.msgs, dir := s.dir } = s

/-- The event of a request's arrival. -/
def Sys2Proof.Machine.requestEvent (kind : MsgKind) (k : Nat) : Option Instr :=
  match kind with
  | .rs => some (.rs k)
  | .rx => some (.rx k)
  | .up => some (.up k)
  | .gr => some (.gr k)
  | .gw => some (.gw k)
  | _ => none

/-- Table 12-3. -/
def Obligations.DirectoryRequestsAtTheHome : Prop :=
  ∀ (s : State) (k : Nat) (m : Msg) (e : DirEnt) (i : Instr),
    let c := m.src
    let tile := s.phRead e.home e.pa e.tile
    let others := e.sharers.filter fun n => n != c
    let own := e.owner.toList.filter fun o => o != c
    let r := s.replicate e false
    let x := s.replicate e true
    requestEvent m.kind k = some i → s.arrives k m.kind = some m → s.entAt m.dom m.pa = some e →
      ((e.busy ≠ 0 ∨ e.queue ≠ []) → HomeTakes i s k m { e with queue := e.queue ++ [m] } [])
      ∧ (e.busy = 0 → e.queue = [] → (s.tileHolders e).any (fun h => h.2) = false →
        (m.kind = .rs →
          (∀ o, e.owner = some o → HomeTakes i s k m { r with busy := 1, cur := some m } [e.msg .fwd o c .s])
          ∧ (e.owner = none → e.st = .i → r.mayE = true →
              HomeTakes i s k m { r with st := .e, owner := some c } [e.msg .data c c .e 0 tile])
          ∧ (e.owner = none → e.st ≠ .i ∨ r.mayE = false →
              HomeTakes i s k m { r with st := .s, sharers := c :: e.sharers } [e.msg .data c c .s 0 tile]))
        ∧ (m.kind = .gr →
          (∀ o, e.owner = some o →
            HomeTakes i s k m { r with busy := 1, cur := some m } [e.msg .fwd o c .i m.tag [] m.gen])
          ∧ ∀ a, e.owner = none → (s.core c).access m.tag m.gen s.frameClk = some a → HomeTakes i s k m r
              [e.msg .data c c .i m.tag ((tile.drop ((s.accLoc c a).2 - e.pa)).take a.size) m.gen]))
      ∧ (e.busy = 0 → e.queue = [] → s.tileHolders e = [] →
        (m.kind = .rx ∨ m.kind = .up →
          (others = [] → own = [] →
              HomeTakes i s k m { x with st := .m, owner := some c, sharers := [], busy := 0, acks := 0, cur := none }
                [e.msg .data c c .m 0 (if m.kind = .up ∧ e.holds c = true then [] else tile)])
          ∧ (others ≠ [] ∨ own ≠ [] →
              HomeTakes i s k m
                { x with busy := (if others ≠ [] ∨ e.st ≠ .e then 2 else 1), acks := others.length + own.length
                         cur := some m, two := decide (others ≠ [] ∧ own ≠ []), passed := false }
                ((others.map fun n => e.msg .inv n c) ++ own.map fun o =>
                  e.msg .fwdInv o c (if e.sharers.contains c then .s else .m) (if others ≠ [] then 1 else 0))))
        ∧ (m.kind = .gw → c < 88 →
          (e.owner.isSome ∨ e.sharers ≠ [] → HomeTakes i s k m
              { x with busy := (if e.owner.isSome then 3 else 2), cur := some m
                       acks := e.sharers.length + e.owner.toList.length, passed := false }
              (e.sharers.map (fun n => e.msg .inv n c) ++ e.owner.toList.map fun n => e.msg .recall n c))
          ∧ ∀ a v, e.owner = none → e.sharers = [] → e.poisoned = false →
              (s.core c).access m.tag m.gen s.frameClk = some a →
              let pa := (s.accLoc c a).2
              let old := s.phNat e.home pa a.size
              pa % 128 + a.size ≤ 128 → s.room e.home pa = true → a.atHome old = some v →
                ∃ t, exec i s = .next t ∧ t.phNat e.home pa a.size = v % 2 ^ (8 * a.size)
                  ∧ t.msgs = s.msgs.eraseIdx k ++ [e.msg .data c c .i m.tag (leBytes a.size old) m.gen]
                  ∧ t.entAt m.dom m.pa = some x ∧ (∀ n, n ≠ c → t.core n = s.core n)
                  ∧ (t.core c).inflight = (s.core c).inflight.map (fun b =>
                      if b.tag = m.tag ∧ b.gen = m.gen then { b with applied := true } else b)
                  ∧ { t.core c with inflight := (s.core c).inflight } = s.core c
                  ∧ ∀ q y, y < pa ∨ pa + a.size ≤ y → t.phRead q y 1 = s.phRead q y 1))

/-- Memory has taken exactly the masked bytes of a tile. -/
def Sys2Proof.Machine.TookMasked (s t : State) (pa : Nat) (bytes : List Byte) (mask : List Nat) : Prop :=
  (∀ j, j ∈ mask → t.mem.rd (pa + j) = bytes.getD j 0)
    ∧ ∀ x, (∀ j, j ∈ mask → x ≠ pa + j) → t.mem.rd x = s.mem.rd x

/-- Table 12-3, the responses. -/
def Obligations.DirectoryAnswersAtTheHome : Prop :=
  ∀ (s : State) (k : Nat) (m : Msg) (e : DirEnt), s.arrives k m.kind = some m → s.entAt m.dom m.pa = some e →
    (m.kind = .ack → m.mask = [] → e.busy ≠ 0 → m.src < 88 →
      let e' := e.gave m.grant m.src
      let idle := fun (e : DirEnt) => { e with busy := 0, acks := 0, cur := none, two := false }
      (2 ≤ e.acks → HomeTakes (.ack k) s k m { e' with acks := e.acks - 1 } [])
      ∧ ∀ r, e.acks ≤ 1 → e.queue = [] → e.decl ≠ [] → e.cur = some r →
        (r.kind = .rs → m.grant = .s → HomeTakes (.ack k) s k m
            { idle e with st := .s, owner := none, sharers := r.src :: m.src :: e.sharers.filter fun n => n != m.src } [])
        ∧ (r.kind = .rs → m.grant ≠ .s → HomeTakes (.ack k) s k m { idle e with st := .o, sharers := r.src :: e.sharers } [])
        ∧ (r.kind = .rx ∨ r.kind = .up → e'.passed = true →
            HomeTakes (.ack k) s k m { idle e' with st := .m, owner := some r.src, sharers := [] }
              (if e.two then [e.msg .data r.src r.src .m 1] else []))
        ∧ (r.kind = .rx ∨ r.kind = .up → e'.passed = false →
            HomeTakes (.ack k) s k m { e' with st := .m, owner := some r.src, sharers := [], busy := 0, acks := 0, cur := none }
              [e.msg .data r.src r.src .m 0 (if r.kind = .up ∧ e'.holds r.src = true then [] else s.phRead e.home e.pa e.tile)]))
    ∧ (∀ r, m.kind = .gone → e.cur = some r → r.kind = .rs → e.owner = none → e.st = .i → e.queue = [] → e.decl ≠ [] →
        (s.tileHolders e).any (fun h => h.2) = false → (s.replicate e false).mayE = true → HomeTakes (.gone k) s k m
          { s.replicate e false with st := .e, owner := some r.src, busy := 0, acks := 0, cur := none, two := false }
          [e.msg .data r.src r.src .e 0 (s.phRead e.home e.pa e.tile)])
    ∧ (m.kind = .em → HomeTakes (.em k) s k m (if e.owner = some m.src ∧ e.st = .e then { e with st := .m } else e) [])
    ∧ (m.kind = .drop → e.holds m.src = true → ∃ t, exec (.drop k) s = .next t ∧ t.msgs = s.msgs.eraseIdx k
        ∧ TookMasked s t e.pa m.bytes m.mask ∧ t.cores = s.cores
        ∧ (let left := if m.tag = 1 then e.decl.erase m.src else e.decl
          (left = [] → e.busy = 0 → e.queue = [] → s.snoopFull e = [] →
              ∀ x, x ∈ t.dir → ¬ (x.dom = e.dom ∧ x.pa = e.pa))
          ∧ (left ≠ [] ∨ e.busy ≠ 0 ∨ e.queue ≠ [] ∨ s.snoopFull e ≠ [] → ∃ e', t.entAt m.dom m.pa = some e' ∧ e'.decl = left
            ∧ (e.owner = some m.src → e'.owner = none ∧ e'.sharers = e.sharers ∧ e'.st = if e.sharers = [] then .i else .s)
            ∧ (e.owner ≠ some m.src → e'.owner = e.owner ∧ e'.sharers = e.sharers.filter (fun n => n != m.src)))))
    ∧ (m.kind = .flush → e.owner = some m.src → ∃ t, exec (.flush k) s = .next t ∧ t.msgs = s.msgs.eraseIdx k
        ∧ TookMasked s t e.pa m.bytes m.mask ∧ t.cores = s.cores
        ∧ t.entAt m.dom m.pa = some (if e.st = .o then { e with st := .s, owner := none, sharers := m.src :: e.sharers }
          else { e with st := .e }))

/-- The event of a forward's arrival. -/
def Sys2Proof.Machine.forwardEvent (kind : MsgKind) (k : Nat) : Option Instr :=
  match kind with
  | .fwd => some (.fwd k)
  | .fwdInv => some (.fwdInv k)
  | .inv => some (.inv k)
  | .recall => some (.recall k)
  | _ => none

/-- The core has answered message `k` with `ms`, and its copy of the tile is `t'`. -/
def Sys2Proof.Machine.CoreAnswers (i : Instr) (s : State) (k : Nat) (m : Msg) (t' : TileCopy) (ms : List Msg) : Prop :=
  ∃ t, exec i s = .next t ∧ t.msgs = s.msgs.eraseIdx k ++ ms
    ∧ (t.core m.dst).tiles.find? (fun x => x.dom == m.dom && x.pa == m.pa) = some t'
    ∧ { t.core m.dst with tiles := (s.core m.dst).tiles } = s.core m.dst
    ∧ (∀ n, n ≠ m.dst → t.core n = s.core n) ∧ { t with msgs := s.msgs, cores := s.cores } = s

/-- Table 12-4. -/
def Obligations.DirectoryForwardsAtACore : Prop :=
  (∀ (s : State) (k : Nat) (m : Msg) (i : Instr), forwardEvent m.kind k = some i → s.arrives k m.kind = some m →
    let c := s.core m.dst
    let data := fun (b : List Byte) (mask : List Nat) (g : TileSt) =>
      ({ kind := .data, src := m.dst, dst := m.req, dom := m.dom, pa := m.pa, req := m.req, bytes := b, mask := mask
         grant := g, tag := 0, poison := m.poison } : Msg)
    (c.inStep = true → exec i s = .next s)
    ∧ (c.inStep = false →
    (c.tiles.find? (fun x => x.dom == m.dom && x.pa == m.pa) = none →
        exec i s = .next ((s.takeMsg k).post [m.answer (if m.kind = .inv then .ack else .gone)]))
      ∧ ∀ x, c.tiles.find? (fun x => x.dom == m.dom && x.pa == m.pa) = some x →
        ((x.st = .isd ∨ x.st = .imd) → m.kind ≠ .inv → CoreAnswers i s k m { x with held := x.held ++ [m] } [])
        ∧ (m.kind = .inv → (x.st = .isd → CoreAnswers i s k m { x with inval := true } [m.answer .ack])
            ∧ (x.st = .imd → CoreAnswers i s k m x [m.answer .ack]))
        ∧ ((x.st = .s ∨ x.st = .e ∨ x.st = .o ∨ x.st = .m) → x.bad = true →
          (m.kind = .fwd ∧ m.grant = .s) ∨ m.kind = .fwdInv →
            ∃ t d, exec i s = .next t ∧ t.msgs = s.msgs.eraseIdx k ++ d ∧ ∃ y, y ∈ d ∧ y.kind = .data ∧ y.dst = m.req ∧ y.poison = true)
        ∧ ((x.st = .s ∨ x.st = .e ∨ x.st = .o ∨ x.st = .m) → x.bad = false →
          let b := c.spad.rdBytes x.off x.size
          (m.kind = .inv → CoreAnswers i s k m { x with st := .i, mask := [] } [m.answer .ack])
          ∧ (m.kind = .fwd → m.grant = .s →
              let st : TileSt := if x.mask = [] then .s else .o
              CoreAnswers i s k m { x with st := st } [data b [] .s, m.answer .ack [] [] st])
          ∧ (∀ a, m.kind = .fwd → m.grant ≠ .s → (s.core m.req).access m.tag m.gen s.frameClk = some a →
              CoreAnswers i s k m x
                [{ data ((b.drop ((s.accLoc m.req a).2 - m.pa)).take a.size) [] .i with tag := m.tag, gen := m.gen },
                 m.answer .ack])
          ∧ (m.kind = .fwdInv → CoreAnswers i s k m { x with st := .i, mask := [] }
              [data (if m.grant = .s then [] else b) x.mask (if m.tag = 1 then .imd else .m), m.answer .ack [] [] .m])
          ∧ (m.kind = .recall → CoreAnswers i s k m { x with st := .i, mask := [] } [m.answer .ack b x.mask]))))
  ∧ ∀ (s : State) (k : Nat) (m : Msg), s.arrives k .data = some m →
    let c := s.core m.dst
    let names := fun (a : Access) => a.tag = m.tag ∧ a.gen = m.gen ∧ a.err = none
    (∀ i a, m.grant = .i → m.poison = false → c.inflight[i]? = some a → names a →
        (∀ j b, j < i → c.inflight[j]? = some b → ¬ names b) →
          exec (.data k) s = .next ((s.takeMsg k).finishAcc m.dst i a (leNat m.bytes)))
      ∧ ∀ x, m.grant ≠ .i → m.grant ≠ .imd → m.tag ≠ 1 →
          c.tiles.find? (fun x => x.dom == m.dom && x.pa == m.pa) = some x → x.leave = false →
          x.held = [] → m.bytes ≠ [] → (∀ a, a ∈ c.inflight → a.wants = false) → ∃ t, exec (.data k) s = .next t
            ∧ t.msgs = s.msgs.eraseIdx k ∧ (t.core m.dst).spad = c.spad.wrBytes x.off m.bytes
            ∧ (t.core m.dst).tiles.find? (fun x => x.dom == m.dom && x.pa == m.pa)
                = some (if x.inval then { x with st := .i, mask := [], part := 0, inval := false }
                  else { x with st := m.grant, mask := m.mask, part := 0 })
            ∧ (x.inval = false → { t.core m.dst with tiles := c.tiles, spad := c.spad } = c)
            ∧ (∀ u q, x.inval = true → u ≠ .me → (c.eng u).ask = some q → q.sp = true → q.wr = false → q.data = none →
                q.dead = false → x.off ≤ q.addr → q.addr + q.len ≤ x.off + x.size → m.bytes.length = x.size →
                  ((t.core m.dst).eng u).ask = some { q with data := some ((m.bytes.drop (q.addr - x.off)).take q.len) })
            ∧ { t.core m.dst with tiles := c.tiles, spad := c.spad, ve := c.ve, hu := c.hu, ch := c.ch } = c
            ∧ ∀ n, n ≠ m.dst → t.core n = s.core n

/-- The snoop filter records `hs` for a line and has no other entry for it; `only` says what the two states share. -/
def Sys2Proof.Machine.HoldersAre (t : State) (line : Nat) (hs : List (Nat × Bool)) : Prop :=
  (t.snoopAt line).elim [] (·.holders) = hs ∧ (∀ x, x ∈ t.snoop → x.pa = line → t.snoopAt line = some x ∧ x.groups = [])

/-- Table 12-5, R254, R263-R265. -/
def Obligations.RemoteHoldersAndMigration : Prop :=
  (∀ (s : State) (tile : Nat), paDev tile ≠ s.fab.fabId →
    (s.podEnt tile = none → ∃ t, exec (.bi tile) s = .next t ∧ exec (.biD tile) s = .next t
      ∧ t.line? 3 (tile / 128) = none ∧ t.cores = s.cores ∧ t.dir = s.dir
      ∧ ∀ l, s.line? 3 (tile / 128) = some l → l.dirty ≠ 0 → ∃ b, b ∈ t.fab.biData ∧ b.1 = 128 * l.line ∧ b.2.1 = l.data
          ∧ b.2.2 = (List.range 128).map fun i => l.dirty.getLsbD i)
    ∧ ∀ e, s.podEnt tile = some e → s.quiet e = true → s.entAt e.dom e.pa = some e → s.tileHolders e = [] → e.decl ≠ [] →
      (e.sharers = [] → e.owner = none → ∃ t, exec (.bi tile) s = .next t ∧ exec (.biD tile) s = .next t
        ∧ t.entAt e.dom e.pa = some { e with rep := none } ∧ t.cores = s.cores
        ∧ ∀ l, l ∈ t.lines → l.dom = 3 → ¬ (128 * l.line < e.pa + e.tile ∧ e.pa < 128 * l.line + 128))
      ∧ (e.sharers ≠ [] ∨ e.owner ≠ none → ∃ t, exec (.bi tile) s = .next t ∧ exec (.biD tile) s = .next t
        ∧ t.msgs = s.msgs ++ ((e.sharers.map fun n => e.msg .inv n 88) ++ e.owner.toList.map fun n => e.msg .recall n 88)
        ∧ (∃ e', t.entAt e.dom e.pa = some e' ∧ e'.busy = (if e.owner.isSome then 3 else 2)
            ∧ e'.acks = e.sharers.length + e.owner.toList.length)
        ∧ { t with msgs := s.msgs, dir := s.dir } = s))
  ∧ (∀ (s : State) (dev tile : Nat) (hs : List (Nat × Bool)), (∀ e, e ∈ s.dir → e.covers tile = false) →
      let line := tile / 128 * 128
      let rest := hs.filter fun h => h.1 != dev
      let only := fun (t : State) => { t with snoop := s.snoop } = s
      let gets := fun (t : State) => { t with snoop := s.snoop, fab := { t.fab with owed := s.fab.owed } } = s
        ∧ ∃ d, t.fab.owed = s.fab.owed ++ [d] ∧ d.code = 0x21 ∧ d.ddev = dev ∧ d.pa = line ∧ d.bytes = s.phRead 3 line 128
      HoldersAre s line hs → (∀ e, e ∈ s.dir → e.decl ≠ []) →
      (s.snoop.length < 8192 → rest.length < 4 →
        ((∀ h, h ∈ hs → h.2 = true → h.1 = dev) →
          ∃ t, exec (.remoteRead dev tile) s = .next t ∧ HoldersAre t line (rest ++ [(dev, false)]) ∧ gets t)
        ∧ ((∀ h, h ∈ hs → h.1 = dev) →
          ∃ t, exec (.remoteExclusive dev tile) s = .next t ∧ HoldersAre t line (rest ++ [(dev, true)]) ∧ gets t))
      ∧ (s.bis = [] →
        (∀ (a : Nat) (b : Byte), (dev, true) ∈ hs → ∃ t, exec (.replicaDrop dev tile [(a, b)]) s = .next t
            ∧ t.mem = s.mem.wr a b ∧ HoldersAre t line rest ∧ t.cores = s.cores)
        ∧ (∀ l, (dev, true) ∉ hs → ∃ t, exec (.replicaDrop dev tile l) s = .next t ∧ HoldersAre t line rest ∧ only t)
        ∧ exec (.biTimeout dev tile) s = .next s)
      ∧ ∀ b, s.bis = [b] → b.pa = line → b.dev = dev →
        (∀ (a : Nat) (v : Byte), (dev, true) ∈ hs → ∃ t, exec (.replicaDrop dev tile [(a, v)]) s = .next t
            ∧ t.phRead 3 a 1 = [v] ∧ HoldersAre t line rest ∧ t.bis = [] ∧ t.cores = s.cores)
        ∧ ∀ t0, b.at_ = some t0 → t0 + s.dev.rsplim.toNat ≤ s.frameClk → s.route 0 dev ≠ .hold →
          ∃ t, exec (.biTimeout dev tile) s = .next t ∧ HoldersAre t line rest ∧ t.bis = []
            ∧ t.poison = s.poison ++ [(line, 128)] ∧ t.isPoisoned tile 1 = true
            ∧ { t with snoop := s.snoop, poison := s.poison, bis := s.bis } = s)
  ∧ ∀ (s : State) (l : LineSt), s.lines = [l] → s.migrates l = true →
        ∃ t, exec (.lineMigration l.line) s = .next t
          ∧ t.lines = [{ l with slice := nearSlice l.lastCore, movedAt := s.frameClk }]
          ∧ (t.core l.lastCore).locator.head? = some (l.line, nearSlice l.lastCore)
          ∧ { t.core l.lastCore with locator := (s.core l.lastCore).locator } = s.core l.lastCore
          ∧ (∀ n, n ≠ l.lastCore → t.core n = s.core n) ∧ { t with lines := s.lines, cores := s.cores } = s

/-- The host reaches the device, which has power. -/
def Sys2Proof.Machine.HostReaches (s : State) : Prop := s.hostCut = false ∧ s.dev.powered = true

/-- The event of a mailbox command (Table 18-8). -/
def Sys2Proof.Machine.commandEvent (c : MbxCmd) : Instr :=
  match c with
  | .init => .init
  | .create => .create
  | .destroy => .destroy
  | .qopen => .qopen
  | .qclose => .qclose
  | .shoot => .shoot
  | .memwr => .memwr
  | .memrd => .memrd
  | .attest => .attest
  | .recChunk => .recChunk
  | .recBoot => .recBoot
  | .enetq => .enetq

/-- A command is in progress. -/
def Sys2Proof.Machine.State.started (s : State) (c : MbxCmd) : State :=
  { s with dev := { s.dev with busy := true }, cp := { s.cp with cmd := some c } }

/-- The command is answered with a code, from a state `t`, of which nothing else changes. -/
def Sys2Proof.Machine.Replies (r : Host.Outcome State Fault Refusal) (t : State) (code : Nat) : Prop :=
  ∃ u, r = .next u ∧ u.dev.code = BitVec.ofNat 8 code ∧ u.dev.busy = false ∧ u.cp.cmd = none
    ∧ u.cp.msix = 0 :: t.cp.msix
    ∧ { u with dev := { u.dev with code := t.dev.code, busy := t.dev.busy }
               cp := { u.cp with cmd := t.cp.cmd, msix := t.cp.msix } } = t

/-- The end of a command that can wait, from a state `t` in which its checks have passed. -/
def Sys2Proof.Machine.Finishes (c : MbxCmd) (t : State) (r : Host.Outcome State Fault Refusal) : Prop :=
  let a := t.arg 0
  let n := t.arg 1
  match c with
  | .init =>
    let g := t.cpGather [(a, 64)]
    (t.cp.inited = true → Replies r t 0x03)
      ∧ (t.cp.inited = false → g.1 = false → r = .next g.2)
      ∧ (t.cp.inited = false → g.1 = true →
          (g.2.initCode ≠ 0 → Replies r g.2 g.2.initCode)
            ∧ (g.2.initCode = 0 → Replies r { g.2 with cp := { g.2.cp with inited := true, pfq := g.2.arg 0 } } 0))
  | .create =>
    let g := t.cpGather [(a, 256)]
    let b := g.2.arg 0
    (g.1 = false → r = .next g.2)
      ∧ (g.1 = true → (∀ k, g.2.createRegion b = .inl k → Replies r g.2 k)
          ∧ ∀ u, g.2.createRegion b = .inr u → Replies r u 0 ∧ u.cp.regions = g.2.cp.regions ++ [g.2.rcbRegion b]
              ∧ u.region? (g.2.rcbRegion b).num = some (g.2.rcbRegion b)
              ∧ { u with cp := { u.cp with regions := g.2.cp.regions, ham := g.2.cp.ham, hamRows := g.2.cp.hamRows } } = g.2)
  | .qopen =>
    let g := t.cpGather [(a, 64)]
    (g.1 = false → r = .next g.2)
      ∧ (g.1 = true → (∀ k, g.2.queueAt (g.2.arg 0) = .inl k → Replies r g.2 k)
          ∧ ∀ q, g.2.queueAt (g.2.arg 0) = .inr q → Replies r
              { g.2 with
                cp := { g.2.cp with lqs := g.2.cp.lqs ++ [q] }
                dev := { g.2.dev with res := vset g.2.dev.res 0 (w64 q.num) } } 0)
  | .destroy => (t.region? a = none → Replies r t 0) ∧ ∀ x, t.region? a = some x → r = .next t
  | .qclose =>
    (t.lq? a = none → Replies r t 0) ∧ ∀ q, t.lq? a = some q →
      let idle := q.tag = 0 ∧ q.pend = none ∧ q.tail ≤ q.head
      (¬ idle → r = .next t)
        ∧ (idle → (∀ u, u ∈ t.cp.ucs → u.2.queue ≠ q.num) →
            Replies r { t with cp := { t.cp with lqs := t.cp.lqs.filter fun x => x.num != q.num } } 0)
  | .shoot =>
    let u := (t.sharers a).foldl (fun s x => s.performRegion x) t
    let l := u.shootRanges a
    let v := l.foldl State.clearRange u
    (u.shootDone = false → r = .next u) ∧ (u.shootDone = true → u.arg 3 % 2 = 0 → Replies r u 0)
      ∧ (u.shootDone = true → u.arg 3 % 2 = 1 → (∀ p, p ∈ l → v.rangeQuiet p = true) →
          Replies r (l.foldl State.dropRange v) 0)
      ∧ ∀ p, u.shootDone = true → u.arg 3 % 2 = 1 → p ∈ l → v.rangeQuiet p = false → r = .next v
  | .memwr =>
    let u := t.cpDrain.clearRange (a, n)
    ((u.cp.wq ≠ [] ∨ u.hostReady a n = false) → r = .next u)
      ∧ (u.cp.wq = [] → u.hostReady a n = true → u.dir = [] → Replies r (u.paWr a (u.dev.data.rdBytes 0 n)) 0)
  | .memrd =>
    let u := t.clearRange (a, n)
    (u.hostReady a n = false → r = .next u)
      ∧ (u.hostReady a n = true →
          let w := u.dropCopy 2 a n
          let b := ((w.paPieces a n).map fun x => w.cpRdPa w.mbxDie x.1 x.2 .pod).flatten
          Replies r { w with dev := { w.dev with data := w.dev.data.wrBytes 0 b } } 0)
  | .attest => Replies r (t.attestData (some (t.dev.leaf - 1))) 0
  | .recBoot =>
    Replies r ({ t with dev := { t.dev with flash := some t.recImage, flashBusy := false } }.startImage t.recImage) 0
  | .enetq =>
    (t.ethQ (bitsOf a 0 1) (bitsOf a 2 6) (bitsOf a 1 1 == 1) = none → Replies r t 0)
      ∧ ∀ e, t.ethQ (bitsOf a 0 1) (bitsOf a 2 6) (bitsOf a 1 1 == 1) = some e →
        let gone := t.fab.ethq.filter fun y => !(y.port == e.port && y.num == e.num && y.rx == e.rx)
        (t.ethFinished e = false → r = .next (t.setEthQ { e with closing := true }))
          ∧ (t.ethFinished e = true → e.rx = false → Replies r { t with fab := { t.fab with ethq := gone } } 0)
          ∧ (t.ethFinished e = true → e.rx = true → Replies r
              (({ t with fab := { t.fab with ethq := gone } }.updEth e.port fun p =>
                { p with held := p.held.filter fun h => h.1 != e.num }).unpause e.port e.prio) 0)
  | _ => r = .next t

/-- The work of a command that is accepted, from the state `t` in which it is in progress. -/
def Sys2Proof.Machine.Begins (c : MbxCmd) (t : State) (r : Host.Outcome State Fault Refusal) : Prop :=
  let a := t.arg 0
  let n := t.arg 1
  match c with
  | .init => Finishes .init t r
  | .create => Finishes .create t r
  | .destroy =>
    (t.region? a = none → Replies r t 0x08)
      ∧ ∀ x, t.region? a = some x → (x.st ≠ .active → r = .next t)
          ∧ (x.st = .active → Finishes .destroy (t.destroyRegion x.num) r)
  | .qopen => Finishes .qopen t r
  | .qclose => (t.lq? a = none → Replies r t 0x08) ∧ ∀ q, t.lq? a = some q → Finishes .qclose t r
  | .shoot =>
    (t.region? a = none → Replies r t 0x08) ∧ ∀ x, t.region? a = some x →
        let u := t.shootTlbs a
        Finishes .shoot { u with cp := { u.cp with shootAfter := t.shootUses } } r
  | .memwr => (t.hostRange a n = false → Replies r t 0x09) ∧ (t.hostRange a n = true → Finishes .memwr t r)
  | .memrd =>
    let image := ((le8 t.devstat.toNat).drop (a - Config.devstatImage)).take n
    (t.dev.recovery = true → t.dev.fatal = false →
        Replies r { t with dev := { t.dev with data := t.dev.data.wrBytes 0 image } } 0)
      ∧ (t.dev.recovery = false ∨ t.dev.fatal = true →
          (t.hostRange a n = false → Replies r t 0x09) ∧ (t.hostRange a n = true → Finishes .memrd t r))
  | .attest =>
    (t.dev.leaf < 2 ^ 20 → r = .next { t with dev := { t.dev with leaf := t.dev.leaf + 1 } })
      ∧ (2 ^ 20 ≤ t.dev.leaf →
          let u := t.attestData none
          Replies r { u with dev := { u.dev with lmsx := true } } 0x0B)
  | .recChunk =>
    let bad := n = 0 ∨ 4096 < n ∨ 0x1200 + 8388608 < a + n
    (bad → Replies r t 0x09)
      ∧ (¬ bad → Replies r
          { t with dev := { t.dev with recBuf := t.dev.recBuf.wrBytes a (t.dev.data.rdBytes 0 n) } } 0)
  | .recBoot =>
    (t.imageOk t.recImage = false → Replies r t 0x0A)
      ∧ (t.imageOk t.recImage = true → a % 2 = 1 → r = .next { t with dev := { t.dev with flashBusy := true } })
      ∧ (t.imageOk t.recImage = true → a % 2 = 0 → Replies r (t.startImage t.recImage) 0)
  | .enetq =>
    let b := t.ethBind (bitsOf a 0 1) (bitsOf a 2 6) n (t.arg 2) (bitsOf a 1 1 == 1)
    (bitsOf a 8 56 ≠ 0 → Replies r t 0x02)
      ∧ (bitsOf a 8 56 = 0 → t.arg 2 = 0 →
          (∀ k, t.ethUnbindCode (bitsOf a 0 1) (bitsOf a 2 6) n (bitsOf a 1 1 == 1) = some k → Replies r t k)
            ∧ (t.ethUnbindCode (bitsOf a 0 1) (bitsOf a 2 6) n (bitsOf a 1 1 == 1) = none → Finishes .enetq t r))
      ∧ (bitsOf a 8 56 = 0 → t.arg 2 ≠ 0 → Replies r b.2 b.1)

/-- The mailbox: R326, R285, R291, R316, R323, R324, R353. -/
def Obligations.MailboxCommands : Prop :=
  (∀ (s : State) (c : MbxCmd), HostReaches s →
    (s.dev.busy = true → exec (commandEvent c) s = .next { s with dev := { s.dev with ovr := true } })
      ∧ (s.dev.busy = false → s.mbxAllows c = false → Replies (exec (commandEvent c) s) s 0x01)
      ∧ (s.dev.busy = false → s.mbxAllows c = true → Begins c (s.started c) (exec (commandEvent c) s)))
  ∧ ∀ s : State, let u := s.cpDrain
      (u.cp.wq ≠ [] ∨ u.dev.busy = false ∨ u.cp.cmd = none → exec .mailboxReply s = .next u)
        ∧ ∀ c, u.cp.wq = [] → u.dev.busy = true → u.cp.cmd = some c → Finishes c u (exec .mailboxReply s)

/-- `exec i` answers with `t`, of which everything but the fabric's part is as in `s`, and `f` takes that back. -/
def Sys2Proof.Machine.OnlyFab (i : Instr) (s t : State) (f : FabState → FabState) : Prop :=
  exec i s = .next t ∧ { t with fab := f t.fab } = s

/-- Two events do the same. -/
def Sys2Proof.Machine.SameAs (i j : Instr) (s : State) : Prop := exec i s = exec j s

/-- The registers of the device. -/
def Sys2Proof.Machine.RegisterWrites (s : State) (v : Word) : Prop :=
  let w := fun off => Instr.registerWrite off v
  (∀ k, k < 4 → SameAs (w (0x10 + 8 * k)) (.fdomf k v) s)
    ∧ exec (w 0x30) s = .next { s with dev := { s.dev with rsplim := BitVec.ofNat 32 (fld v 0 32) } }
    ∧ (let p := { s with cp := { s.cp with predEn := fld v 0 1 == 1, pdist := fld v 1 13 } }
      exec (w 0x48) s = .next (if fld v 14 1 = 1 then { p with cp := { p.cp with pred := [], nextw := 0 } } else p))
    ∧ SameAs (w 0x80) (.resolve (fld v 0 32)) s
    ∧ (∀ c op, (op, c) ∈ [(1, MbxCmd.init), (2, .create), (3, .destroy), (4, .qopen), (5, .qclose), (6, .shoot), (7, .memwr),
          (8, .memrd), (9, .attest), (10, .recChunk), (11, .recBoot), (12, .enetq)] →
        fld v 0 8 = op → SameAs (w 0x100) (commandEvent c) s)
    ∧ SameAs (w 0x108) (.mbxStat v) s
    ∧ (∀ k, k < 8 → exec (w (0x110 + 8 * k)) s = .next { s with dev := { s.dev with arg := vset s.dev.arg k v } })
    ∧ (∀ k, k < 512 → exec (w (0x1000 + 8 * k)) s = .next
        { s with dev := { s.dev with data := s.dev.data.wrBytes (8 * k) (le8 v.toNat) } })
    ∧ (∀ q, q < 64 → SameAs (w (0x2000 + 8 * q)) (.qtail q v) s)
    ∧ (∀ d, d < 21 → exec (w (0x3000 + 0x20 * d)) s = (if fld v 20 1 = 1 then exec (.pclr d) s else .next s)
        ∧ exec (w (0x3008 + 0x20 * d)) s = (if fld v 40 1 = 1 then exec (.clr d) s else .next s))
    ∧ exec (w 0x3600) s = .next { s with fab := { s.fab with plim := BitVec.ofNat 13 (fld v 0 13) } }
    ∧ exec (w 0x3608) s = .next
        { s with fab := { s.fab with tthr := BitVec.ofNat 8 (fld v 0 8), hstep := BitVec.ofNat 3 (fld v 8 3) } }
    ∧ exec (w 0x3620) s = .next { s with fab := { s.fab with fevq := BitVec.ofNat 56 (fld v 0 56) } }
    ∧ SameAs (w 0x3800) (.fabId v) s
    ∧ exec (w 0x3808) s = (if fld v 1 1 = 1 then exec .tokenMove s else .next s)
    ∧ exec (w 0x3810) s = .next { s with fab := { s.fab with rtSel := BitVec.ofNat 12 (fld v 0 12) } }
    ∧ (let k := bitsOf s.fab.rtSel.toNat 0 9 * 8 + bitsOf s.fab.rtSel.toNat 9 3
      ∃ t, exec (w 0x3818) s = .next t ∧ tabGet 0 t.fab.routes k = fld v 0 17
        ∧ (∀ j, j ≠ k → tabGet 0 t.fab.routes j = tabGet 0 s.fab.routes j) ∧ { t with fab := { t.fab with routes := s.fab.routes } } = s)
    ∧ (∀ n, n < 95 → s.portOwn n = true → exec (w (0x4010 + 0x40 * n)) s = .next (s.setPort n
        { s.port n with peerDev := fld v 0 14, peerPort := fld v 14 7, peerV := fld v 21 1 == 1 }))
    ∧ (∀ n, n < 95 → s.portOwn n = true → s.port n = .resetOf n → fld v 0 4 = 0 → exec (w (0x4008 + 0x40 * n)) s = .next (s.setPort n
        { Port.resetOf n with tc0lim := fld v 4 4, darklim := fld v 8 24 }))
    ∧ (∀ x, x < 2 → exec (w (0x5810 + 0x40 * x)) s = .next (s.updEth x fun p => { p with mac := BitVec.ofNat 48 (fld v 0 48) }))
    ∧ (∀ x, x < 2 → fld v 0 1 = 1 → exec (w (0x5808 + 0x40 * x)) s = .next
        (s.updEth x fun p => { p with en := true, pfcen := BitVec.ofNat 8 (fld v 1 8) }))
    ∧ ∀ off, off % 8 ≠ 0 ∨ 0x5880 ≤ off ∨ (0x2200 ≤ off ∧ off < 0x3000) → exec (w off) s = .next s

/-- Table 18-7, Table 19-11, Table 21-3, R286, R345, R347, R349. -/
def Obligations.HostRegisters : Prop :=
  ∀ (s : State) (v : Word),
    (s.hostCut = true → (∀ off q k, ∀ i ∈ [Instr.registerWrite off v, .qtail q v, .fdomf k v, .mbxStat v, .clear, .pclr k, .clr k],
      exec i s = .next s))
    ∧ (s.hostCut = false → RegisterWrites s v
      ∧ (∀ q x, s.lq? q = some x → ∃ t, exec (.qtail q v) s = .next t ∧ t.lq? q = some { x with tail := v.toNat }
          ∧ (∀ p, p ≠ q → t.lq? p = s.lq? p) ∧ t.dev = s.dev
          ∧ (s.cp.wq = [] → s.dir = [] → s.snoop = [] → (∀ c, c ∈ s.cores → c.2.buf = []) →
              s.routePa (88 + s.cpOf 2) (x.pa + 0x18) ≠ .hold → s.routePa (88 + s.cpOf 2) (x.pa + 0x18) ≠ .none →
              s.isPoisoned (x.pa + 0x18) 8 (s.cpOf 2) = false →
              (∀ j, j < 8 → t.mem.rd (x.pa + 0x18 + j) = (le8 v.toNat).getD j 0) ∧ t.cores = s.cores))
      ∧ (∀ q, s.lq? q = none → exec (.qtail q v) s = .next s)
      ∧ (∀ k, k < 4 → ∃ t, exec (.fdomf k v) s = .next t ∧ vget t.dev.fdomf 0 k = vget s.dev.fdomf 0 k &&& ~~~v
          ∧ (∀ j, j ≠ k → vget t.dev.fdomf 0 j = vget s.dev.fdomf 0 j) ∧ { t with dev := { t.dev with fdomf := s.dev.fdomf } } = s)
      ∧ exec (.mbxStat v) s = .next { s with dev := { s.dev with ovr := if v.getLsbD 1 then false else s.dev.ovr } }
      ∧ exec .clear s = .next { s with cp := { s.cp with pred := [], nextw := 0 } }
      ∧ ∀ d, d < 21 → ∃ t u, OnlyFab (.pclr d) s t (fun f => { f with mons := s.fab.mons })
          ∧ t.mon d = { s.mon d with tpeak := (s.mon d).temp } ∧ (∀ e, e ≠ d → t.mon e = s.mon e)
          ∧ OnlyFab (.clr d) s u (fun f => { f with mons := s.fab.mons })
          ∧ u.mon d = { s.mon d with vmin := 0xFFF, droops := 0 } ∧ (∀ e, e ≠ d → u.mon e = s.mon e))
    ∧ (∃ t, OnlyFab (.fabId v) s t (fun f => { f with ports := s.fab.ports, fabId := s.fab.fabId, fabV := s.fab.fabV })
        ∧ t.fab.fabId = fld v 0 14 ∧ t.fab.fabV = (fld v 14 1 == 1) ∧ (∀ n, n < 64 → t.port n = s.port n)
        ∧ ∀ q, q < 31 → t.port (64 + q) = { s.port (64 + q) with
            peerDev := fld v 0 14 / 32 * 32 + (fld v 0 14 % 32 + q + 1) % 32, peerPort := 64 + (30 - q), peerV := true })
    ∧ (∀ n, s.portOwn n = false → exec (.en n true) s = .next s ∧ exec (.en n false) s = .next s
        ∧ exec (.reconf n) s = .next s ∧ exec (.relock n) s = .next s)
    ∧ (∀ n, s.portOwn n = true →
        exec (.en n true) s = .next (s.setPort n { s.port n with en := true })
        ∧ ((s.port n).st = .down → exec (.en n false) s = .next (s.setPort n { s.port n with en := false }))
        ∧ ((s.port n).st ≠ .down →
            exec (.en n false) s = .next ((s.setPort n { s.port n with en := false, reconf := false }).toDown n))
        ∧ ((s.port n).st = .active ∨ (s.port n).st = .degraded → exec (.reconf n) s = .next (s.startDrain n))
        ∧ ((s.port n).st = .train → (s.port n).kept.isSome = true →
            exec (.reconf n) s = .next (s.setPort n { s.port n with reconf := true }))
        ∧ ((s.port n).st ∉ [.active, .degraded, .train] → exec (.reconf n) s = .next s)
        ∧ (let u := s.setPort n { s.port n with lanes := (s.port n).lanes.map fun l => if l.st = .failed then ⟨.train, 0, 0⟩ else l }
          ((s.port n).st ∉ [.dark, .down, .quarantine] ∨ (s.port n).en = false ∨ s.fab.fabV = false → exec (.relock n) s = .next u)
          ∧ ((s.port n).st ∈ [.dark, .down, .quarantine] → (s.port n).en = true → s.fab.fabV = true →
              exec (.relock n) s = .next (u.toTrain n))))
    ∧ (s.dieReach 0 1 = true → s.fab.split = false →
        (∀ h, s.fab.token = some h → s.fab.tokenMsg = none →
          exec .tokenMove s = .next { s with fab := { s.fab with tokenMsg := some (0, 1 - h) } })
        ∧ (∀ h, s.fab.tokenMsg = some (0, h) → exec .tokenOffer s = .next { s with fab := { s.fab with tokenMsg := some (1, h) } })
        ∧ (∀ h, s.fab.tokenMsg = some (1, h) →
          exec .tokenAccept s = .next { s with fab := { s.fab with token := none, tokenMsg := some (2, h) } })
        ∧ ∀ h, s.fab.tokenMsg = some (2, h) →
          exec .tokenCommit s = .next { s with fab := { s.fab with token := some h, tokenMsg := none } })
    ∧ (s.fab.split = true → ∀ i ∈ [Instr.tokenMove, .tokenOffer, .tokenAccept, .tokenCommit], exec i s = .next s)

/-- The flit kinds that a port in service takes, as events. -/
def Sys2Proof.Machine.FlitEvent (kind n : Nat) (f : Flit) (i : Instr) : Prop :=
  (kind, i) ∈ [(0, Instr.null n f), (1, .slots n f), (2, .line n f), (3, .nak n f), (4, .drain n f), (6, .stripe n f)]

/-- A numbered flit has been accepted (R335): the next number is expected, the acknowledgement is due, and an entry of
its VC is freed. -/
structure Sys2Proof.Machine.TookFlit (p q : Port) (f : Flit) (clk : Nat) : Prop where
  next : q.rxNext = (p.rxNext + 1) % 4096
  owed : q.owe.isSome = true ∧ (p.owe = none → q.owe = some clk)
  freed : flFtype f ≠ 4 → flVc f < 10 → vget q.freed 0 (flVc f) = vget p.freed 0 (flVc f) + 1
  rest : { q with rxNext := p.rxNext, owe := p.owe, nak := p.nak, freed := p.freed } = p

/-- A NAK names a number at or above the SEQ of the STRIPE of this side's laser fault (R360). -/
def Sys2Proof.Machine.StaleNak (p : Port) (seq : Nat) : Prop := ∃ q, p.stripeSeq = some q ∧ seqLe q seq = true

/-- R330, R335, R338, R339, R360. -/
def Obligations.FlitsAtAPort : Prop :=
  ∀ (s : State) (n : Nat) (f : Flit),
    (∀ kind i, FlitEvent kind n f i →
      let p := s.port n
      let u := s.ackOf n f
      let q := u.port n
      -- what waits goes only once the flit has been dealt with (R335)
      let ends := fun (t : State) => exec i s = .next ((t.goPort n).drained n)
      (s.portOwn n = false ∨ p.flows = false → exec i s = .next s)
      ∧ (s.portOwn n = true → p.flows = true →
        (flCrcOk f = false →
          exec i s = .next (s.setPort n ({ p with crcerr := Nat.min (p.crcerr + 1) 65535 }.discard s.frameClk)))
        ∧ (flCrcOk f = true → 6 < flFtype f → exec i s = .next (s.setPort n (p.discard s.frameClk)))
        ∧ (flCrcOk f = true → flFtype f = kind →
          (p.mute = true → kind ≠ 6 → exec i s = .next s)
          ∧ (p.mute = false ∨ kind = 6 →
            (kind = 0 → ends u)
            ∧ (kind = 3 → StaleNak q (flSeq f) ∨ q.place (flSeq f) = none → ends u)
            ∧ (∀ k, kind = 3 → ¬ StaleNak q (flSeq f) → q.place (flSeq f) = some k →
                ends (u.setPort n { q.resendFrom k with naked := some (s.frameClk, q.out.length) }))
            ∧ ((kind = 1 ∨ kind = 2 ∨ kind = 4) → flSeq f ≠ q.rxNext → ends (u.setPort n (q.discard s.frameClk)))
            ∧ ((kind = 1 ∨ kind = 2 ∨ kind = 4) → flSeq f = q.rxNext → ∃ r, TookFlit q r f s.frameClk
                ∧ (kind = 4 → ends (u.setPort n { r with drainRx := flVc f :: r.drainRx }))
                ∧ (kind ≠ 4 → ends ((flitMsgs f n s.frameClk).foldl (fun t m => t.accept n m.1 m.2) (u.setPort n r))))
            ∧ (kind = 6 →
              let took := fun (u : State) (r : Port) => ends (u.newSet n (r.applySet (flLanes f)).askOn)
              (q.asked ≠ some (flLanes f) → q.mute = true ∨ flReq f = false → ends u)
              ∧ (flReq f = false → q.asked = some (flLanes f) → took u { q with mute := false, asked := none })
              ∧ (flReq f = true → q.asked = some (flLanes f) → q.mute = false → q.stripeSeq.isSome = true →
                  took { u with draws := u.draws + 1 } q)
              ∧ (flReq f = true → q.mute = false ∨ q.asked = some (flLanes f) →
                  q.asked ≠ some (flLanes f) ∨ q.mute = true ∨ q.stripeSeq = none →
                let w := { q with mute := false, asked := if q.asked = some (flLanes f) then none else q.asked }
                let v := { u with draws := u.draws + 1 }
                let first := (q.replay.head?.map (·.seq)).getD q.txSeq
                let planned := took v (w.wireStripe q.txSeq (flLanes f) s.frameClk)
                let dark := took v ((w.wireStripe first (flLanes f) s.frameClk).resendFrom 0)
                (planned ∨ dark)
                  ∧ (q.mute = true ∨ q.asked = some (flLanes f) ∨ seqLe q.rxNext (flSeq f) = false
                      ∨ (∀ l, l < 16 → bitsOf q.mask l 1 = 1 → bitsOf (flLanes f) l 1 = 1) → planned)))))))
    ∧ (let p := s.port n
      let b := bitsOf (flPayload f)
      let u := if p.identTx then s else s.sendIdent n
      (s.portOwn n = false ∨ p.st ≠ .ident → exec (.ident n f) s = .next s)
      ∧ (s.portOwn n = true → p.st = .ident →
        (flCrcOk f = false → exec (.ident n f) s = .next (s.setPort n { p with crcerr := Nat.min (p.crcerr + 1) 65535 }))
        ∧ (flCrcOk f = true → flFtype f ≠ 5 → exec (.ident n f) s = .next s)
        ∧ (flCrcOk f = true → flFtype f = 5 →
          (p.peerV = true → (b 0 16 ≠ p.peerDev ∨ b 16 8 ≠ p.peerPort) → exec (.ident n f) s = .next
              ((u.portTo n .quarantine { u.port n with foundDev := b 0 14, foundPort := b 16 7 }).reroute n))
          ∧ (p.peerV = false ∨ (b 0 16 = p.peerDev ∧ b 16 8 = p.peerPort) →
              exec (.ident n f) s = .next (u.identOk n (b 0 16) (b 16 8) (b 32 16) (b 48 12))))))

/-- The event that serves messages of some codes: with RD, the GR and RS of another device; with WR, its updates, GW, RX
and UP. -/
def Sys2Proof.Machine.ServeEvent (codes : List Nat) (k : Nat) (i : Instr) : Prop :=
  (codes, i) ∈ [([1, 0x10, 0x13], Instr.rd k), ([2, 4, 5, 6, 0x11, 0x12, 0x14], .wr k), ([3], .lwr k), ([8], .cpmsg k)]

/-- `n` bytes within one line, outside every window tile and registered range, held by no other device, met by no write on its
way and not poisoned, whose line stands in the L2 or has a way there. -/
def Sys2Proof.Machine.PlainLine (s : State) (m : FMsg) (n : Nat) : Prop :=
  s.dir = [] ∧ s.cp.ucs = [] ∧ s.snoop = [] ∧ (∀ c, c ∈ s.cores → c.2.buf = []) ∧ s.isPoisoned m.pa m.size = false
    ∧ m.poison = false ∧ m.pa % 128 + n ≤ 128 ∧ s.room 3 m.pa = true

/-- The message leaves the inbox. -/
def Sys2Proof.Machine.State.unboxed (s : State) (k : Nat) : State :=
  { s with fab := { s.fab with inbox := listDel s.fab.inbox k } }

/-- `i` applies message `k` at its home, in the bytes that the whole pod sees, and answers with `code` and the bytes `back`:
each byte for which `new` has a value takes it. A write fills the L2 and changes no other copy; an update of a line that the
L2 does not hold goes to memory (R237), where every copy that holds no line of its own reads it. -/
def Sys2Proof.Machine.AppliesAtHome (i : Instr) (k : Nat) (s : State) (m : FMsg) (fill : Bool) (code : Nat) (back : List Byte)
    (new : Nat → Option Byte) : Prop :=
  ∃ u : State, exec i s = .next ((u.sendMsg (u.respond m code 0 back false)).unboxed k)
    ∧ { u with lines := s.lines, mem := s.mem } = s ∧ (fill = true → u.mem = s.mem)
    ∧ (fill = false → u.lines.map (fun l => (l.dom, l.line)) = s.lines.map fun l => (l.dom, l.line))
    ∧ (∀ x b, new x = some b → u.phRead 3 x 1 = [b])
    ∧ (∀ q x, new x = none → u.phRead q x 1 = s.phRead q x 1)
    ∧ ∀ q x, q ≠ 3 → (fill = true ∨ (s.line? q (x / 128)).isSome = true) → u.phRead q x 1 = s.phRead q x 1

/-- The byte that a write of `bs` at `pa` gives an address. -/
def Sys2Proof.Machine.byteAt (pa : Nat) (bs : List Byte) (x : Nat) : Option Byte := if x < pa then none else bs[x - pa]?

/-- R332, R265, R343. -/
def Obligations.MessagesAtTheHome : Prop :=
  (∀ (s : State) (k : Nat) (codes : List Nat) (i : Instr), ServeEvent codes k i →
    (s.fab.inbox[k]? = none → exec i s = .next s)
    ∧ ∀ m, s.fab.inbox[k]? = some m →
      let t := s.unboxed k
      let old := s.phRead 3 m.pa
      let o := (Config.msgOp m.code m.info).toNat
      let operand := fun w j => leNat ((m.bytes.drop (w * j)).take w)
      let wr : Bool := !([1, 0x13].contains m.code)
      let ask : Bool := [0x10, 0x11, 0x12].contains m.code
      let answer := fun (code err : Nat) (bs : List Byte) (poison : Bool) =>
        exec i s = .next ((s.sendMsg (s.respond m code err bs poison)).unboxed k)
      (m.code ∉ codes → exec i s = .next s)
      ∧ (m.code ∈ codes → (m.spent s.frameClk = true ∨ paDev m.pa ≠ s.fab.fabId) → exec i s = .next t)
      ∧ (m.code ∈ codes → m.spent s.frameClk = false → paDev m.pa = s.fab.fabId → s.arrived m = false →
          exec i s = .next (t.sendMsg (s.respond m 0x27 1 [] false)))
      ∧ (m.code ∈ codes → m.spent s.frameClk = false → paDev m.pa = s.fab.fabId → s.arrived m = true →
        (m.code = 8 → answer 0x22 0 [] false)
        ∧ (m.code ≠ 8 → ask = false → s.homeBusy m.pa m.size wr = true → exec i s = .next (s.askHolders m.pa m.size wr))
        ∧ (wr = false → s.homeBusy m.pa m.size false = false → s.dir = [] →
            answer 0x20 0 (old m.size) (s.isPoisoned m.pa m.size))
        ∧ (wr = true → ask = false → m.code ≠ 8 → s.homeBusy m.pa m.size true = false →
            s.isPoisoned m.pa m.size = true → answer 0x27 5 [] false)
        ∧ (ask = true →
          let x : Bool := m.code != 0x10
          (∀ w, s.remoteWaits m.sdev m.pa x = some w → exec i s = .next w)
            ∧ (s.remoteWaits m.sdev m.pa x = none → s.dir = [] → m.sdev ≠ s.fab.fabId → ∃ (u : State) (d : FMsg), exec i s = .next (u.unboxed k)
              ∧ (m.sdev, x) ∈ u.holdersOf m.pa ∧ u.fab.owed = s.fab.owed ++ [d]
              ∧ d.code = 0x21 ∧ d.ddev = m.sdev ∧ d.ddie = m.sdie ∧ d.sport = m.sport ∧ d.tag = m.tag ∧ d.gen = m.gen
              ∧ d.pa = m.pa / 128 * 128 ∧ d.bytes = s.phRead 3 d.pa 128
              ∧ d.poison = s.isPoisoned d.pa 128 ∧ { u with snoop := s.snoop, fab := { u.fab with owed := s.fab.owed } } = s))
        ∧ ((m.code = 2 ∨ m.code = 0x14) → PlainLine s m m.bytes.length →
            AppliesAtHome i k s m true 0x22 [] (byteAt m.pa m.bytes))
        ∧ (m.code = 3 → PlainLine s m m.bytes.length → AppliesAtHome i k s m true 0x22 []
            fun x => if m.mask.getD (x - m.pa) false then byteAt m.pa m.bytes x else none)
        ∧ (m.code = 4 → PlainLine s m m.size → bitsOf o 0 3 ≤ 6 → AppliesAtHome i k s m false 0x20 (old m.size)
            (byteAt m.pa (leBytes m.size
              (amoResult (bitsOf o 0 3) (bitsOf o 3 1 == 1) m.size (leNat (old m.size)) (operand m.size 0)))))
        ∧ (m.code = 5 → PlainLine s m (m.size / 2) → AppliesAtHome i k s m false 0x20 (old (m.size / 2))
            (if leNat (old (m.size / 2)) = operand (m.size / 2) 0
              then byteAt m.pa (leBytes (m.size / 2) (operand (m.size / 2) 1)) else fun _ => none))
        ∧ (m.code = 6 → PlainLine s m m.bytes.length →
          let ty := bitsOf o 4 5
          let sz := Nat.max 1 (tyWidth ty / 8)
          AppliesAtHome i k s m false 0x22 [] fun x =>
            let j := (x - m.pa) / sz
            if x < m.pa ∨ m.bytes.length / sz ≤ j then none
            else (leBytes sz (redElem ty (bitsOf o 0 2) (leNat (s.phRead 3 (m.pa + sz * j) sz)) (operand sz j)))[(x - m.pa) % sz]?)))
  ∧ (∀ (s u : State) (p : BarPost) (m : FMsg) (b : Word), s.cp.posts = [p] → 1000 ≤ p.core → p.op = .wait b →
      s.homeReady p.core p.dom p.pa 32 = .ok () u → u.cp.posts = [p] →
      u.fab.syncs.find? (fun x => x.1 == p.core) = some (p.core, m) →
      let now := BitVec.ofNat 64 (u.phNat p.dom p.pa 8)
      now ≠ b → ∃ (t : State) (d : FMsg), exec (.sbarHomeStep p.pa) s = .next t ∧ t.cp.posts = [] ∧ t.fab.owed = u.fab.owed ++ [d]
        ∧ d.code = 0x20 ∧ d.ddev = m.sdev ∧ d.ddie = m.sdie ∧ d.sport = m.sport ∧ d.tag = m.tag ∧ d.gen = m.gen
        ∧ d.bytes = leBytes 8 now.toNat ∧ t.cores = u.cores ∧ t.mem = u.mem ∧ t.lines = u.lines)
  ∧ (∀ (s : State) (dst vc seq : Nat),
      let path := s.fab.paths.find? fun x => x.dst == dst && x.vc == vc
      (path = none → exec (.dack dst vc seq) s = .next s ∧ exec (.routeHoldTimeout dst vc) s = .next s)
      ∧ ∀ x, path = some x →
        let y := { x with covered := Nat.max x.covered seq }
        ((y.sent ≤ y.covered ∧ y.held ≠ []) → exec (.dack dst vc seq) s = .next ((s.setPath y).release y))
        ∧ (¬ (y.sent ≤ y.covered ∧ y.held ≠ []) → exec (.dack dst vc seq) s = .next (s.setPath y))
        ∧ (x.at_ + s.dev.rsplim.toNat / 2 ≤ s.frameClk → x.held ≠ [] →
            exec (.routeHoldTimeout dst vc) s = .next (s.release x))
        ∧ (s.frameClk < x.at_ + s.dev.rsplim.toNat / 2 ∨ x.held = [] → exec (.routeHoldTimeout dst vc) s = .next s))
  ∧ (∀ (s : State) (src vc seq : Nat), (src, vc, seq) ∈ s.fab.dacks → ∃ m : FMsg,
      m.code = 0x28 ∧ m.cls = 1 ∧ m.tc = 0 ∧ m.ddev = src ∧ m.sdev = s.fab.fabId ∧ m.info = (Config.dackInfo vc seq).toNat
      ∧ exec (.dackReturn src vc seq) s = .next
        ({ s with fab := { s.fab with dacks := s.fab.dacks.filter fun x => x != (src, vc, seq) } }.sendMsg m))
  ∧ ∀ (s : State) (pos : Nat) (up : Word),
      (pos < 32 → pos ≠ s.fab.fabId % 32 → ∃ t, exec (.globalPortAnnounce pos up) s = .next t
        ∧ tabGet 0 t.fab.peersUp pos = up ∧ (∀ q, q ≠ pos → tabGet 0 t.fab.peersUp q = tabGet 0 s.fab.peersUp q)
        ∧ { t with fab := { t.fab with peersUp := s.fab.peersUp } } = s)
      ∧ (32 ≤ pos ∨ pos = s.fab.fabId % 32 → exec (.globalPortAnnounce pos up) s = .next s)

/-- `exec i` sets port `n` to `p` and changes nothing else. -/
def Sys2Proof.Machine.SetsPort (i : Instr) (s : State) (n : Nat) (p : Port) : Prop := exec i s = .next (s.setPort n p)

/-- The port that runs, on the side that this device drives. -/
def Sys2Proof.Machine.Port.inService (p : Port) : Prop := p.st = .active ∨ p.st = .degraded

/-- R335, R336, R338, R339 and R360 at one port and lane. -/
def Sys2Proof.Machine.LinkEvents (s : State) (n lane errs : Nat) : Prop :=
  let p := s.port n
  let l := p.lane lane
  let up := Port.inService p
  let stuck := (∃ x, x ∈ p.replay ∧ 16 ≤ x.count) ∨ (p.replay ≠ [] ∧ p.ackAt + 60000 ≤ s.frameClk)
  let set := fun (l : Lane) => p.setLane lane l
  let may := p.st = .down ∧ p.en = true ∧ s.fab.fabV = true ∧ lane < p.built n
  let due := p.owe.isSome = true ∨ ∃ v, v < 10 ∧ vget p.freed 0 v ≠ 0;
  -- timers and states of the port
  ((p.flows = true → due → SetsPort (.ackTimer n) s n (p.wire 0 0 0 0 0 false 0))
      ∧ (p.flows = false ∨ ¬ due → exec (.ackTimer n) s = .next s))
  ∧ (up → stuck → exec (.linkRetrain n) s = .next (s.toTrainKept n))
  ∧ (¬ (up ∧ stuck) → exec (.linkRetrain n) s = .next s)
  ∧ (∀ t, p.kept = some t → (t + 600000 < s.frameClk → exec (.replayBufferDiscard n) s = .next (s.discardReplay n))
      ∧ (s.frameClk ≤ t + 600000 → exec (.replayBufferDiscard n) s = .next s))
  ∧ (p.kept = none → exec (.replayBufferDiscard n) s = .next s)
  ∧ ((may → exec (.signalDetect n lane) s = .next (s.toTrain n)) ∧ (¬ may → exec (.signalDetect n lane) s = .next s))
  ∧ (p.st = .train → l.st = .train →
      exec (.laneLock n lane) s = .next ((s.portTo n .ident (set ⟨.active, 0, 0⟩)).sendIdent n))
  ∧ (p.st = .ident → l.st = .train → SetsPort (.laneLock n lane) s n (set ⟨.active, 0, 0⟩))
  ∧ ((p.st ≠ .train ∧ p.st ≠ .ident) ∨ l.st ≠ .train → exec (.laneLock n lane) s = .next s)
  ∧ (p.st = .train → p.since + 600000 ≤ s.frameClk → exec (.trainTimeout n) s = .next (s.toDown n))
  ∧ (p.st ≠ .train ∨ s.frameClk < p.since + 600000 → exec (.trainTimeout n) s = .next s)
  ∧ (p.st = .dark → p.since + p.darklim * 1024 ≤ s.frameClk → exec (.darkTimeout n) s = .next (s.toDown n))
  ∧ (p.st ≠ .dark ∨ s.frameClk < p.since + p.darklim * 1024 → exec (.darkTimeout n) s = .next s)
  -- states of the lane
  ∧ (p.flows = false ∨ 16 ≤ lane ∨ (l.st ≠ .active ∧ l.st ≠ .prove) → exec (.berWindow n lane errs) s = .next s)
  ∧ (p.flows = true → lane < 16 → l.st = .active → errs * 100000 ≤ 2 ^ 26 → exec (.berWindow n lane errs) s = .next s)
  ∧ (p.flows = true → lane < 16 → l.st = .active → 2 ^ 26 < errs * 100000 →
      let q := set { l with st := .leaving }
      (q.wanted = 0 → exec (.berWindow n lane errs) s = .next (s.newSet n q))
        ∧ (q.wanted ≠ 0 → exec (.berWindow n lane errs) s = .next (s.newSet n (q.ask q.wanted p.txSeq))))
  ∧ (p.flows = true → lane < 16 → l.st = .prove →
      (2 ^ 26 < errs * 1000000 → l.tries < 7 → SetsPort (.berWindow n lane errs) s n (set ⟨.train, l.tries + 1, 0⟩))
      ∧ (2 ^ 26 < errs * 1000000 → 7 ≤ l.tries → SetsPort (.berWindow n lane errs) s n (set ⟨.failed, l.tries + 1, 0⟩))
      ∧ (errs * 1000000 ≤ 2 ^ 26 → l.good = 0 → SetsPort (.berWindow n lane errs) s n (set { l with good := 1 }))
      ∧ (errs * 1000000 ≤ 2 ^ 26 → 1 ≤ l.good → SetsPort (.berWindow n lane errs) s n
          (let q := set { l with st := .joining, good := 2 }
          q.ask q.wanted p.txSeq)))
  ∧ (l.st = .train → p.flows = true → SetsPort (.equaliserConverged n lane) s n (set { l with st := .prove, good := 0 }))
  ∧ (l.st ≠ .train ∨ p.flows = false → exec (.equaliserConverged n lane) s = .next s)
  ∧ (l.st = .train → SetsPort (.equaliserTimeout n lane) s n
      (set (if l.tries < 7 then ⟨.train, l.tries + 1, 0⟩ else ⟨.failed, l.tries + 1, 0⟩)))
  ∧ (l.st ≠ .train → exec (.equaliserTimeout n lane) s = .next s)
  ∧ (l.st = .dark → SetsPort (.lightPresent n lane) s n (set { l with st := .train, good := 0 }))
  ∧ (l.st ≠ .dark → exec (.lightPresent n lane) s = .next s)
  -- a loss of light: of one lane, or, from 16 on, of a quartet at once (R334)
  ∧ (∀ ls : List Nat, (ls, lane) ∈ (List.range 16).map (fun k => ([k], k))
        ++ [([0, 1, 2, 3], 16), ([4, 5, 6, 7], 17), ([8, 9, 10, 11], 18), ([12, 13, 14, 15], 19)] →
      ∀ q : Port, { q with lanes := p.lanes } = p →
        (∀ j, j < 16 → q.lane j = if j ∈ ls ∧ (p.lane j).st ∈ [.active, .leaving, .joining]
          then { p.lane j with st := .dark, good := 0 } else p.lane j) →
        (q = p → exec (.lossOfLight n lane) s = .next s)
          ∧ (q ≠ p → p.flows = true → q.laneCount ≠ 0 →
              exec (.lossOfLight n lane) s = .next (s.newSet n { q.ask q.mask p.txSeq with mute := true }))
          ∧ (q ≠ p → p.flows = false ∨ q.laneCount = 0 → exec (.lossOfLight n lane) s = .next (s.newSet n q)))
  ∧ (20 ≤ lane → exec (.lossOfLight n lane) s = .next s)

/-- R335-R339, R348, R349. -/
def Obligations.LinkAndLaneEvents : Prop :=
  (∀ (s : State) (n lane errs : Nat), s.portOwn n = true → LinkEvents s n lane errs)
  ∧ (∀ (s : State) (n lane errs : Nat), s.portOwn n = false →
      ∀ i ∈ [Instr.ackTimer n, .linkRetrain n, .replayBufferDiscard n, .signalDetect n lane, .laneLock n lane, .trainTimeout n,
        .darkTimeout n, .berWindow n lane errs, .lossOfLight n lane, .equaliserConverged n lane, .equaliserTimeout n lane,
        .lightPresent n lane], exec i s = .next s)
  ∧ (∀ (s : State) (k : Nat), (16 ≤ k → exec (.laserFault k) s = .next s)
      ∧ (k < 16 → (∀ n, n < 64 → s.portOwn n = true → (s.port n).darken ((s.port n).laserLanes n k) = s.port n) →
          exec (.laserFault k) s = .next ({ s with fab := { s.fab with laser := s.fab.laser ||| (1#16 <<< k) } }.devEvent 0x12 k 0 0))
      ∧ (k < 16 → ∃ t, exec (.laserFault k) s = .next t ∧ t.fab.laser = s.fab.laser ||| (1#16 <<< k) ∧ t.cores = s.cores
          ∧ t.mem = s.mem))
  ∧ (∀ s : State, (s.frameClk < s.fab.checked + 1000 → exec .cpReachabilityCheck s = .next s)
      ∧ (s.fab.checked + 1000 ≤ s.frameClk → exec .cpReachabilityCheck s = .next { s with fab := { s.fab with
          checked := s.frameClk, apart := if s.dieReach 0 1 = true then none else some (s.fab.apart.getD s.frameClk) } }))
  ∧ ∀ s : State, (s.fab.apart = none ∨ s.fab.split = true → exec .packageSplit s = .next s)
      ∧ ∀ t, s.fab.apart = some t → s.fab.split = false → (s.frameClk < t + 6000 → exec .packageSplit s = .next s)
        ∧ (t + 6000 ≤ s.frameClk →
          let halted := match s.fab.token with
            | some h => [1 - h]
            | none => [0, 1]
          let u := { s with fab := { s.fab with split := true, haltedCps := halted, tokenMsg := none } }
          let v := (halted.map nPorts).flatten.foldl
            (fun w n => if w.portOwn n && (w.port n).st != .down then w.toDown n else w) u
          (s.fab.token = none → exec .packageSplit s = .next v.deviceFatal)
            ∧ (s.fab.token ≠ none → exec .packageSplit s = .next (v.failAll 6).loseReplicas))

/-- The Ethernet port of a state is changed to `p`, and nothing else. -/
def Sys2Proof.Machine.SetsEth (i : Instr) (s : State) (x : Nat) (p : EthPort) : Prop := exec i s = .next (s.updEth x fun _ => p)

/-- R353-R357. -/
def Obligations.EthernetSteps : Prop :=
  (∀ (s : State) (x q : Nat),
    (s.ethQ x q false = none → exec (.ethTxPoll x q) s = .next s ∧ exec (.ethTxCompletion x q) s = .next s)
    ∧ ∀ e, s.ethQ x q false = some e →
      let rest := e.stopped = true ∨ e.closing = true ∨ (s.eth x).up = false ∨ (s.eth x).paused.getLsbD e.prio = true
      let idx := e.head + e.wire.length
      (rest → exec (.ethTxPoll x q) s = .next s)
      ∧ (∀ err, ¬ rest → s.ethTail e = .error err → exec (.ethTxPoll x q) s = .next (s.ethStop e err 3 (e.va + 0x18)))
      ∧ (∀ tail, ¬ rest → s.ethTail e = .ok tail →
          exec (.ethTxPoll x q) s = .next (s.ethSend e tail (2 ^ e.log2n - e.wire.length) idx)
          ∧ (tail ≤ idx → exec (.ethTxPoll x q) s = .next s)
          ∧ ∀ va len b, x < 2 → tail = idx + 1 → e.wire.length < 2 ^ e.log2n → s.ethDesc e idx = .ok (va, len, true) → 60 ≤ len →
              len ≤ 9212 → s.ethRd e.region va len = .ok b → ∃ t, exec (.ethTxPoll x q) s = .next t
                ∧ (t.eth x).out = (s.eth x).out ++ [b ++ fcs b]
                ∧ t.ethQ x q false = some { e with wire := e.wire ++ [(idx, len, 0)] }
                ∧ { t with fab := { t.fab with eth := s.fab.eth, ethq := s.fab.ethq } } = s)
      ∧ (e.wire = [] → exec (.ethTxCompletion x q) s = .next s)
      ∧ ∀ k len status r, e.wire = (k, len, status) :: r →
          let u := s.setEthQ { e with wire := r }
          let v := if status = 0 then u.updEth x fun p => { p with tx := Nat.min (p.tx + 1) (2 ^ 32 - 1) } else u
          exec (.ethTxCompletion x q) s = .next (v.ethComplete { e with wire := r } k len status))
  ∧ (∀ (s : State) (x : Nat) (ok : Bool) (f : List Byte),
      let p := s.eth x
      let taken := x < 2 ∧ p.up = true ∧ 60 ≤ f.length ∧ f.length ≤ 9212
      (¬ taken → exec (.ethRxFrame x ok f) s = .next s)
      ∧ (taken → ok = false → SetsEth (.ethRxFrame x ok f) s x { p with fcserr := Nat.min (p.fcserr + 1) 65535 })
      ∧ (taken → ok = true → s.ethSteer x f = none →
          SetsEth (.ethRxFrame x ok f) s x { p with noqueue := Nat.min (p.noqueue + 1) 65535 })
      ∧ ∀ e, taken → ok = true → s.ethSteer x f = some e →
          let waits := ∃ h, h ∈ p.held ∧ h.1 = e.num
          (e.closing = false ∧ e.rx = true ∧ e.port = x ∧ e.prio = framePrio f)
          ∧ (e.stopped = true → exec (.ethRxFrame x ok f) s = .next (s.ethHold x e f))
          ∧ (e.stopped = false →
            (∀ tail, s.ethTail e = .ok tail → e.head < tail → ¬ waits →
                exec (.ethRxFrame x ok f) s = .next (s.ethWrite e f))
            ∧ (∀ tail, s.ethTail e = .ok tail → (tail ≤ e.head ∨ waits) →
                exec (.ethRxFrame x ok f) s = .next (s.ethHold x e f))
            ∧ (∀ err, s.ethTail e = .error err →
                exec (.ethRxFrame x ok f) s = .next ((s.ethStop e err 3 (e.va + 0x18)).ethHold x e f)))
          ∧ (p.pfcen.getLsbD e.prio = false → s.ethHold x e f = s.ethDrop e))
  ∧ (∀ (s : State) (x : Nat),
      (s.ethNext x (s.eth x).held = none → exec (.ethHeldFrameDelivery x) s = .next s)
      ∧ ∀ e f, s.ethNext x (s.eth x).held = some (e, f) → ∃ u : State, exec (.ethHeldFrameDelivery x) s = .next (u.ethWrite e f)
          ∧ { u with fab := { u.fab with eth := s.fab.eth } } = s ∧ (x < 2 → (u.eth x).held.length + 1 = (s.eth x).held.length)
          ∧ ∀ y, y ≠ x → u.eth y = s.eth y)
  ∧ (∀ (s : State) (x prio : Nat) (on : Bool),
      let p := s.eth x
      let set := if on then p.paused ||| (1#8 <<< prio) else p.paused &&& ~~~(1#8 <<< prio)
      (prio < 8 → p.pfcen.getLsbD prio = true → SetsEth (.ethPause x prio on) s x { p with paused := set })
      ∧ (8 ≤ prio ∨ p.pfcen.getLsbD prio = false → exec (.ethPause x prio on) s = .next s))
  ∧ ∀ (s : State) (x : Nat) (up : Bool),
      let p := s.eth x
      let moves := x < 2 ∧ p.up ≠ up ∧ (up = true → p.en = true)
      (moves → exec (.ethLinkChange x up) s = .next
        ((s.updEth x fun p => { p with up := up, paused := if up then p.paused else 0 }).devEvent 0x13 x
          (p.up.toNat + up.toNat * 16) 0))
      ∧ (¬ moves → exec (.ethLinkChange x up) s = .next s)

/-- `exec i` changes the monitor of a die to `m`, and otherwise nothing but what `f` takes back of the fabric's part. -/
def Sys2Proof.Machine.SetsMon (i : Instr) (s : State) (die : Nat) (m : Mon) (f : FabState → FabState) : Prop :=
  ∃ t, exec i s = .next t ∧ t.mon die = m ∧ (∀ d, d ≠ die → t.mon d = s.mon d)
    ∧ { t with fab := f { t.fab with mons := s.fab.mons } } = s

/-- The boot ROM has run on what is left of the device (R322). -/
def Sys2Proof.Machine.Booted (s t : State) : Prop :=
  t.dev.leaf = s.dev.leaf ∧ t.dev.flash = s.dev.flash ∧ t.dev.powered = true ∧ t.dev.fatal = false ∧ t.cores = []
    ∧ t.cp.regions = [] ∧ t.cp.inited = false ∧ t.dev.busy = false ∧ t.frameClk ≤ s.frameClk
    ∧ (s.imageOk s.flashBytes = true → t.dev.fwrun = true ∧ t.dev.recovery = false ∧ t.dev.meas0 = Config.romDigest
        ∧ t.dev.meas1 = imageDigest s.flashBytes
        ∧ t.dev.svn = if leNat (bytesAt s.flashBytes 9 1) % 2 = 1 then some (BitVec.ofNat 8 (leNat (bytesAt s.flashBytes 8 1))) else s.dev.svn)
    ∧ (s.imageOk s.flashBytes = false → t.dev.fwrun = false ∧ t.dev.recovery = true ∧ t.dev.svn = s.dev.svn)

/-- R322-R324, R363-R366, R3. -/
def Obligations.ResetPowerAndMonitors : Prop :=
  (∀ s : State,
    (∃ t, exec .powerOnReset s = .next t ∧ Booted s t ∧ t.frameClk = 0 ∧ t.mem = State.reset.mem)
    ∧ (∃ t, exec .functionLevelReset s = .next t ∧ Booted s t ∧ t.frameClk = s.frameClk ∧ t.mem = s.mem ∧ t.poison = s.poison)
    ∧ ∃ t, exec .powerLoss s = .next t ∧ t.dev.powered = false ∧ t.dev.fwrun = false ∧ t.dev.leaf = s.dev.leaf
        ∧ t.dev.svn = s.dev.svn ∧ t.dev.flash = (if s.dev.flashBusy then some [] else s.dev.flash) ∧ t.cores = []
        ∧ t.mem = State.reset.mem)
  ∧ (∀ (s : State) (die temp volt rosc pwr : Nat),
      let m := s.mon die
      let n := { m with vnow := volt % 4096, vmin := Nat.min m.vmin (volt % 4096), rosc := rosc % 65536 }
      (die < 21 → s.frameClk % 1024 = 0 → SetsMon (.monitorSample die temp volt rosc pwr) s die
          { n with
            temp := temp % 1024, tpeak := Nat.max m.tpeak (temp % 1024)
            hot := if temp % 1024 < 440 then none else some (m.hot.getD s.frameClk) }
          (fun f => { f with pwr := s.fab.pwr }))
      ∧ (die < 21 → s.frameClk % 1024 ≠ 0 → SetsMon (.monitorSample die temp volt rosc pwr) s die n
          (fun f => { f with pwr := s.fab.pwr }))
      ∧ (die < 21 → SetsMon (.droop die) s die { m with droops := Nat.min (m.droops + 1) 65535 }
          (fun f => { f with stretch := s.fab.stretch }))
      ∧ (21 ≤ die → exec (.monitorSample die temp volt rosc pwr) s = .next s ∧ exec (.droop die) s = .next s)
      ∧ (∀ c, m.hot = some c → s.fab.stopped = false → c + 600000 ≤ s.frameClk →
          let u := { s with fab := { s.fab with stopped := true } }.devEvent 0x21 die 0 0
          ∃ t, exec (.tcrit die) s = .next t ∧ t = u.deviceFatal ∧ t.dev.fatal = true)
      ∧ (m.hot = none ∨ s.fab.stopped = true ∨ (∃ c, m.hot = some c ∧ s.frameClk < c + 600000) → exec (.tcrit die) s = .next s))
  ∧ (∀ s : State,
      let due := s.frameClk % 6000 = 0 ∧ s.fab.thrAt < s.frameClk
      let st := s.fab.step
      let up := s.hot = true ∨ s.over = true ∨ st < s.fab.hstep.toNat
      let cause := (if s.hot = true then 1 else 0) + (if s.over = true then 2 else 0) + if st < s.fab.hstep.toNat then 4 else 0
      (¬ due → exec .throttleEvaluation s = .next s)
      ∧ (due → ∃ t new, exec .throttleEvaluation s = .next t ∧ t.fab.step = new ∧ t.fab.thrCause = cause
          ∧ (up → st < 7 → new = st + 1) ∧ (up → 7 ≤ st → new = st)
          ∧ (¬ up → s.fab.hstep.toNat < st → s.fab.calm + 600000 ≤ s.frameClk → new = st - 1)
          ∧ (¬ up → s.fab.hstep.toNat = st ∨ s.frameClk < s.fab.calm + 600000 → new = st)
          ∧ t.fab.calm = (if s.hot = true ∨ s.over = true ∨ st < s.fab.hstep.toNat then s.frameClk else s.fab.calm)
          ∧ (new = st → t.fab.devEvents = s.fab.devEvents)
          ∧ (new ≠ st → t.fab.devEvents = putEvent (0x20, 0, st + new * 16 + cause * 256, 0) s.fab.devEvents)
          ∧ { t with fab := { t.fab with step := s.fab.step, thrCause := s.fab.thrCause, calm := s.fab.calm, thrAt := s.fab.thrAt
                                         devEvents := s.fab.devEvents } } = s))
  ∧ ∀ (s : State) (l : Nat),
      (dieLinks[l]? = none → exec (.dieLinkModuleFailure l) s = .next s)
      ∧ ∀ a b m, dieLinks[l]? = some (a, b, m) →
        (m ≤ vget s.fab.linkLost 0 l → exec (.dieLinkModuleFailure l) s = .next s)
        ∧ (vget s.fab.linkLost 0 l < m → ∃ t, exec (.dieLinkModuleFailure l) s = .next t
            ∧ vget t.fab.linkLost 0 l = vget s.fab.linkLost 0 l + 1 ∧ (∀ j, j ≠ l → vget t.fab.linkLost 0 j = vget s.fab.linkLost 0 j)
            ∧ t.linkState l m = (if vget s.fab.linkLost 0 l + 1 = m then .train else .degraded)
            ∧ (let up := m - (vget s.fab.linkLost 0 l + 1)
              t.linkEntries l m = 64 * up - 32 * Nat.min (vget s.fab.linkHalf 0 l) up)
            ∧ { t with fab := { t.fab with linkLost := s.fab.linkLost, linkHalf := s.fab.linkHalf, linkTrain := s.fab.linkTrain
                                           devEvents := s.fab.devEvents } } = s)

/-- Tables 4-2 and 5-1 to 5-10. -/
def Obligations.WordsOfEachSlotDecode : Prop :=
  decodeIn .s 0b000001_00011_0000001_0000010_0000000 = .ok (.add 3 (.reg 1) (.reg 2))
  ∧ decodeIn .s 0b000011_00010_0000001_1000001_0000010 = .ok (.cmp 2 (.reg 1) (.const 1) .lt)
  ∧ decodeIn .s 0b110000_00101_00010_0000000001000_11_0 = .ok (.ld 5 2 8 3 false)
  ∧ decodeIn .s 0b110100_001_1_000_0000000000000000101 = .ok (.br 1 true 5)
  ∧ decodeIn .s 0b001001_00000_0000110_00_000001001000 = .ok (.wmarm (.reg 6))
  ∧ decodeIn .v 0b000001_0010_0011_0100_0000_001_0000000 = .ok (.vadd 2 3 4 .rz)
  ∧ decodeIn .vsec 0b000111_00000000000000000000000_011 = .ok (.vchain 3)
  ∧ decodeIn .x 0b000001_010_0000100_0000000_00_0000000 = .ok (.xcopy 2 (.reg 4))
  ∧ decodeIn .xsec 0b000010_000_0000100_0000101_10_0000000 = .ok (.xsig 0 (.reg 4) (.reg 5) .pkg)
  ∧ decodeIn .x 0b100001_0001_0010_0011_01_0000111_00000 = .ok (.mma 1 2 3 1 7)
  ∧ decodeIn .x 0b100011_0010_0000_0000_01_0000111_00000 = .ok (.mown 2 (.reg 7))
  ∧ decodeIn .msec 0b111111_00000000000000_000000000000 = .ok .mend
  ∧ decodeIn .h 0b000011_00001_0010_0011_0000000_000000 = .ok (.hxor 1 2 3)
  ∧ decodeIn .h 0b000011_00001_0010_0000_1000011_000001 = .ok (.hrot 1 2 (.const 3))
  ∧ decodeLong 0b001111_00011_0000001_00000000000001 0b10 = .ok (.addLong 3 (.reg 1) 0x8001)
  ∧ decodeIn .s 0b000001_00011_0000001_0000010_0010101 = .error .insn
  ∧ decodeIn .s 0b111111_00000_0000000_0000000_0000000 = .error .insn
  ∧ decodeIn .v 0b000111_00000000000000000000000_011 = .error .insn
  ∧ decodeIn .s 0b000001_00011_0100000_0000010_0000000 = .error .operand
  ∧ decodeIn .s 0b000001_00011_1101000_0000010_0000000 = .error .operand

/-- An instruction of a slot that its code section holds as well (R103): all of the V map but VRUN, of the channel half
with channel 0, and of the ME half. -/
def Sys2Proof.Machine.alsoIn (i : Instr) : Option Sect :=
  match homeSect i with
  | some .v => if bitsOf (encode i) 26 6 = 0x3E then none else some .vsec
  | some .x =>
    if bitsOf (encode i) 26 6 = 0x3E ∨ bitsOf (encode i) 26 6 = 0x1E then none
    else if bitsOf (encode i) 31 1 = 1 then some .msec
    else if bitsOf (encode i) 23 3 = 0 then some .xsec else none
  | _ => none

/-- R96-R103, R112-R120. -/
def Obligations.DecodeOfEncode : Prop :=
  ∀ i : Instr, i.wf = true →
    encode i < 2 ^ 32 ∧ encodeHi i < 2 ^ 32
    ∧ (isLong i = true → decodeLong (encode i) (encodeHi i) = .ok i)
    ∧ (∀ c, homeSect i = some c → isLong i = false → decodeIn c (encode i) = .ok i)
    ∧ (homeSect i = some .s → isLongOp (bitsOf (encode i) 26 6) = isLong i)
    ∧ ∀ c, alsoIn i = some c → decodeIn c (encode i) = .ok i

/-- Table 18-7, Table 19-11, Table 21-3. -/
def Obligations.ResetMemoryIsCanonical : Prop :=
  let s := State.reset
  s.mem.wf = true ∧ s.mem.cells = [] ∧ s.dev.data.wf = true ∧ s.dev.recBuf.wf = true ∧ s.cores = [] ∧ s.arrays = []
  ∧ s.frameClk = 0 ∧ s.cp.regions = [] ∧ s.cp.inited = false ∧ s.dev.fwrun = false ∧ s.dev.recovery = false
  ∧ s.dev.fatal = false ∧ s.dev.busy = false ∧ s.dev.ovr = false ∧ s.dev.code = 0 ∧ s.dev.rsplim = 0xEA60
  ∧ s.dev.lateDrop = 0 ∧ s.dev.ceCount = 0 ∧ s.fab.plim = 0x1D4C ∧ s.fab.tthr = 0x5F ∧ s.fab.hstep = 0 ∧ s.fab.fabId = 0
  ∧ s.fab.fabV = false ∧ s.fab.token = some 0 ∧ (∀ n, (s.port n).tc0lim = 2 ∧ (s.port n).darklim = 0x16E4 ∧ (s.port n).en = false)

/-- R70, R315: the form in which State holds physical memory. -/
def Obligations.EveryStepKeepsMemoryCanonical : Prop :=
  ∀ s t : State, s.mem.wf = true → step s = .next t → t.mem.wf = true
end

