-- ==== Sys2Proof/Laws/Tables.lean ====
section
/-! SUPPORT. Laws of the tables, vectors and field operations that the state is built from. -/

namespace Sys2Proof.Machine

@[simp] theorem tabGet_tabSet_same {α : Type} (d : α) (l : List (Nat × α)) (n : Nat) (v : α) :
    tabGet d (tabSet l n v) n = v := by
  induction l with
  | nil => simp [tabSet, tabGet]
  | cons x r ih =>
    obtain ⟨k, y⟩ := x
    simp only [tabSet]
    split
    · simp [tabGet]
    · split <;> simp_all [tabGet]

theorem tabGet_tabSet_ne {α : Type} (d : α) (l : List (Nat × α)) {n m : Nat} (v : α) (h : m ≠ n) :
    tabGet d (tabSet l n v) m = tabGet d l m := by
  induction l with
  | nil => simp [tabSet, tabGet, Ne.symm h]
  | cons x r ih =>
    obtain ⟨k, y⟩ := x
    simp only [tabSet]
    split
    · rename_i hk; subst hk; simp [tabGet, Ne.symm h]
    · split
      · simp [tabGet, Ne.symm h]
      · simp only [tabGet]; split <;> simp_all

@[simp] theorem vget_vset_same {α : Type} {n : Nat} (v : Vector α n) (d x : α) {i : Nat} (h : i < n) :
    vget (vset v i x) d i = x := by
  simp [vget, vset, h]

theorem vget_vset_ne {α : Type} {n : Nat} (v : Vector α n) (d x : α) {i j : Nat} (h : j ≠ i) :
    vget (vset v i x) d j = vget v d j := by
  simp only [vget, vset, Vector.getElem?_setIfInBounds]
  split <;> simp_all

/-- A table whose keys rise keeps rising keys. -/
theorem keys_tabSet {α : Type} (l : List (Nat × α)) (n : Nat) (v : α)
    (h : l.Pairwise fun a b => a.1 < b.1) : (tabSet l n v).Pairwise fun a b => a.1 < b.1 := by
  induction l with
  | nil => simp [tabSet]
  | cons x r ih =>
    obtain ⟨k, y⟩ := x
    simp only [List.pairwise_cons] at h
    simp only [tabSet]
    have mem : ∀ z ∈ tabSet r n v, z = (n, v) ∨ z ∈ r := by
      clear ih h
      induction r with
      | nil => simp [tabSet]
      | cons w q ih2 =>
        obtain ⟨k2, y2⟩ := w
        simp only [tabSet]
        intro z hz
        split at hz
        · simp only [List.mem_cons] at hz ⊢; tauto
        · split at hz
          · simp only [List.mem_cons] at hz ⊢; tauto
          · simp only [List.mem_cons] at hz ⊢
            rcases hz with rfl | hz
            · tauto
            · rcases ih2 z hz with h1 | h1 <;> tauto
    split
    · rename_i hk; subst hk
      exact List.pairwise_cons.2 ⟨h.1, h.2⟩
    · split
      · rename_i hlt
        refine List.pairwise_cons.2 ⟨?_, List.pairwise_cons.2 h⟩
        intro z hz
        simp only [List.mem_cons] at hz
        rcases hz with rfl | hz
        · exact hlt
        · exact Nat.lt_trans hlt (h.1 z hz)
      · refine List.pairwise_cons.2 ⟨?_, ih h.2⟩
        intro z hz
        rcases mem z hz with rfl | hz
        · show k < n; omega
        · exact h.1 z hz

end Sys2Proof.Machine
end

