-- ==== Sys2Proof/Laws/State.lean ====
section
/-! SUPPORT. What each named update of the state and of a core leaves of each field, true by computation, so that no
later proof unfolds an update. -/

namespace Sys2Proof.Machine

variable (s : State) (c : Core)

@[simp] theorem State.setCore_mem (n : Nat) (c : Core) : (s.setCore n c).mem = s.mem := rfl
@[simp] theorem State.setCore_poison (n : Nat) (c : Core) : (s.setCore n c).poison = s.poison := rfl
@[simp] theorem State.setCore_dir (n : Nat) (c : Core) : (s.setCore n c).dir = s.dir := rfl
@[simp] theorem State.setCore_msgs (n : Nat) (c : Core) : (s.setCore n c).msgs = s.msgs := rfl
@[simp] theorem State.setCore_lines (n : Nat) (c : Core) : (s.setCore n c).lines = s.lines := rfl
@[simp] theorem State.setCore_snoop (n : Nat) (c : Core) : (s.setCore n c).snoop = s.snoop := rfl
@[simp] theorem State.setCore_bis (n : Nat) (c : Core) : (s.setCore n c).bis = s.bis := rfl
@[simp] theorem State.setCore_arrays (n : Nat) (c : Core) : (s.setCore n c).arrays = s.arrays := rfl
@[simp] theorem State.setCore_cp (n : Nat) (c : Core) : (s.setCore n c).cp = s.cp := rfl
@[simp] theorem State.setCore_dev (n : Nat) (c : Core) : (s.setCore n c).dev = s.dev := rfl
@[simp] theorem State.setCore_fab (n : Nat) (c : Core) : (s.setCore n c).fab = s.fab := rfl
@[simp] theorem State.setCore_frameClk (n : Nat) (c : Core) : (s.setCore n c).frameClk = s.frameClk := rfl
@[simp] theorem State.setCore_agenda (n : Nat) (c : Core) : (s.setCore n c).agenda = s.agenda := rfl
@[simp] theorem State.setCore_cur (n : Nat) (c : Core) : (s.setCore n c).cur = s.cur := rfl
@[simp] theorem State.setCore_chan (n : Nat) (c : Core) : (s.setCore n c).chan = s.chan := rfl
@[simp] theorem State.setCore_draws (n : Nat) (c : Core) : (s.setCore n c).draws = s.draws := rfl

@[simp] theorem State.updCore_mem (n : Nat) (f : Core → Core) : (s.updCore n f).mem = s.mem := rfl
@[simp] theorem State.updCore_poison (n : Nat) (f : Core → Core) : (s.updCore n f).poison = s.poison := rfl
@[simp] theorem State.updCore_dir (n : Nat) (f : Core → Core) : (s.updCore n f).dir = s.dir := rfl
@[simp] theorem State.updCore_msgs (n : Nat) (f : Core → Core) : (s.updCore n f).msgs = s.msgs := rfl
@[simp] theorem State.updCore_lines (n : Nat) (f : Core → Core) : (s.updCore n f).lines = s.lines := rfl
@[simp] theorem State.updCore_snoop (n : Nat) (f : Core → Core) : (s.updCore n f).snoop = s.snoop := rfl
@[simp] theorem State.updCore_bis (n : Nat) (f : Core → Core) : (s.updCore n f).bis = s.bis := rfl
@[simp] theorem State.updCore_arrays (n : Nat) (f : Core → Core) : (s.updCore n f).arrays = s.arrays := rfl
@[simp] theorem State.updCore_cp (n : Nat) (f : Core → Core) : (s.updCore n f).cp = s.cp := rfl
@[simp] theorem State.updCore_dev (n : Nat) (f : Core → Core) : (s.updCore n f).dev = s.dev := rfl
@[simp] theorem State.updCore_fab (n : Nat) (f : Core → Core) : (s.updCore n f).fab = s.fab := rfl
@[simp] theorem State.updCore_frameClk (n : Nat) (f : Core → Core) : (s.updCore n f).frameClk = s.frameClk := rfl
@[simp] theorem State.updCore_agenda (n : Nat) (f : Core → Core) : (s.updCore n f).agenda = s.agenda := rfl
@[simp] theorem State.updCore_cur (n : Nat) (f : Core → Core) : (s.updCore n f).cur = s.cur := rfl
@[simp] theorem State.updCore_chan (n : Nat) (f : Core → Core) : (s.updCore n f).chan = s.chan := rfl
@[simp] theorem State.updCore_draws (n : Nat) (f : Core → Core) : (s.updCore n f).draws = s.draws := rfl

@[simp] theorem State.upd_mem (f : Core → Core) : (s.upd f).mem = s.mem := rfl
@[simp] theorem State.upd_poison (f : Core → Core) : (s.upd f).poison = s.poison := rfl
@[simp] theorem State.upd_dir (f : Core → Core) : (s.upd f).dir = s.dir := rfl
@[simp] theorem State.upd_msgs (f : Core → Core) : (s.upd f).msgs = s.msgs := rfl
@[simp] theorem State.upd_lines (f : Core → Core) : (s.upd f).lines = s.lines := rfl
@[simp] theorem State.upd_snoop (f : Core → Core) : (s.upd f).snoop = s.snoop := rfl
@[simp] theorem State.upd_bis (f : Core → Core) : (s.upd f).bis = s.bis := rfl
@[simp] theorem State.upd_arrays (f : Core → Core) : (s.upd f).arrays = s.arrays := rfl
@[simp] theorem State.upd_cp (f : Core → Core) : (s.upd f).cp = s.cp := rfl
@[simp] theorem State.upd_dev (f : Core → Core) : (s.upd f).dev = s.dev := rfl
@[simp] theorem State.upd_fab (f : Core → Core) : (s.upd f).fab = s.fab := rfl
@[simp] theorem State.upd_frameClk (f : Core → Core) : (s.upd f).frameClk = s.frameClk := rfl
@[simp] theorem State.upd_agenda (f : Core → Core) : (s.upd f).agenda = s.agenda := rfl
@[simp] theorem State.upd_cur (f : Core → Core) : (s.upd f).cur = s.cur := rfl
@[simp] theorem State.upd_chan (f : Core → Core) : (s.upd f).chan = s.chan := rfl
@[simp] theorem State.upd_draws (f : Core → Core) : (s.upd f).draws = s.draws := rfl

@[simp] theorem State.setArray_mem (k : Nat) (a : ArraySt) : (s.setArray k a).mem = s.mem := rfl
@[simp] theorem State.setArray_poison (k : Nat) (a : ArraySt) : (s.setArray k a).poison = s.poison := rfl
@[simp] theorem State.setArray_dir (k : Nat) (a : ArraySt) : (s.setArray k a).dir = s.dir := rfl
@[simp] theorem State.setArray_msgs (k : Nat) (a : ArraySt) : (s.setArray k a).msgs = s.msgs := rfl
@[simp] theorem State.setArray_lines (k : Nat) (a : ArraySt) : (s.setArray k a).lines = s.lines := rfl
@[simp] theorem State.setArray_snoop (k : Nat) (a : ArraySt) : (s.setArray k a).snoop = s.snoop := rfl
@[simp] theorem State.setArray_bis (k : Nat) (a : ArraySt) : (s.setArray k a).bis = s.bis := rfl
@[simp] theorem State.setArray_cores (k : Nat) (a : ArraySt) : (s.setArray k a).cores = s.cores := rfl
@[simp] theorem State.setArray_cp (k : Nat) (a : ArraySt) : (s.setArray k a).cp = s.cp := rfl
@[simp] theorem State.setArray_dev (k : Nat) (a : ArraySt) : (s.setArray k a).dev = s.dev := rfl
@[simp] theorem State.setArray_fab (k : Nat) (a : ArraySt) : (s.setArray k a).fab = s.fab := rfl
@[simp] theorem State.setArray_frameClk (k : Nat) (a : ArraySt) : (s.setArray k a).frameClk = s.frameClk := rfl
@[simp] theorem State.setArray_agenda (k : Nat) (a : ArraySt) : (s.setArray k a).agenda = s.agenda := rfl
@[simp] theorem State.setArray_cur (k : Nat) (a : ArraySt) : (s.setArray k a).cur = s.cur := rfl
@[simp] theorem State.setArray_chan (k : Nat) (a : ArraySt) : (s.setArray k a).chan = s.chan := rfl
@[simp] theorem State.setArray_draws (k : Nat) (a : ArraySt) : (s.setArray k a).draws = s.draws := rfl

@[simp] theorem State.updChan_mem (n k : Nat) (f : Channel → Channel) : (s.updChan n k f).mem = s.mem := rfl
@[simp] theorem State.updChan_poison (n k : Nat) (f : Channel → Channel) : (s.updChan n k f).poison = s.poison := rfl
@[simp] theorem State.updChan_dir (n k : Nat) (f : Channel → Channel) : (s.updChan n k f).dir = s.dir := rfl
@[simp] theorem State.updChan_msgs (n k : Nat) (f : Channel → Channel) : (s.updChan n k f).msgs = s.msgs := rfl
@[simp] theorem State.updChan_lines (n k : Nat) (f : Channel → Channel) : (s.updChan n k f).lines = s.lines := rfl
@[simp] theorem State.updChan_snoop (n k : Nat) (f : Channel → Channel) : (s.updChan n k f).snoop = s.snoop := rfl
@[simp] theorem State.updChan_bis (n k : Nat) (f : Channel → Channel) : (s.updChan n k f).bis = s.bis := rfl
@[simp] theorem State.updChan_arrays (n k : Nat) (f : Channel → Channel) : (s.updChan n k f).arrays = s.arrays := rfl
@[simp] theorem State.updChan_cp (n k : Nat) (f : Channel → Channel) : (s.updChan n k f).cp = s.cp := rfl
@[simp] theorem State.updChan_dev (n k : Nat) (f : Channel → Channel) : (s.updChan n k f).dev = s.dev := rfl
@[simp] theorem State.updChan_fab (n k : Nat) (f : Channel → Channel) : (s.updChan n k f).fab = s.fab := rfl
@[simp] theorem State.updChan_frameClk (n k : Nat) (f : Channel → Channel) : (s.updChan n k f).frameClk = s.frameClk := rfl
@[simp] theorem State.updChan_agenda (n k : Nat) (f : Channel → Channel) : (s.updChan n k f).agenda = s.agenda := rfl
@[simp] theorem State.updChan_cur (n k : Nat) (f : Channel → Channel) : (s.updChan n k f).cur = s.cur := rfl
@[simp] theorem State.updChan_chan (n k : Nat) (f : Channel → Channel) : (s.updChan n k f).chan = s.chan := rfl
@[simp] theorem State.updChan_draws (n k : Nat) (f : Channel → Channel) : (s.updChan n k f).draws = s.draws := rfl

@[simp] theorem State.updRegion_mem (r : Nat) (f : Region → Region) : (s.updRegion r f).mem = s.mem := rfl
@[simp] theorem State.updRegion_poison (r : Nat) (f : Region → Region) : (s.updRegion r f).poison = s.poison := rfl
@[simp] theorem State.updRegion_dir (r : Nat) (f : Region → Region) : (s.updRegion r f).dir = s.dir := rfl
@[simp] theorem State.updRegion_msgs (r : Nat) (f : Region → Region) : (s.updRegion r f).msgs = s.msgs := rfl
@[simp] theorem State.updRegion_lines (r : Nat) (f : Region → Region) : (s.updRegion r f).lines = s.lines := rfl
@[simp] theorem State.updRegion_snoop (r : Nat) (f : Region → Region) : (s.updRegion r f).snoop = s.snoop := rfl
@[simp] theorem State.updRegion_bis (r : Nat) (f : Region → Region) : (s.updRegion r f).bis = s.bis := rfl
@[simp] theorem State.updRegion_cores (r : Nat) (f : Region → Region) : (s.updRegion r f).cores = s.cores := rfl
@[simp] theorem State.updRegion_arrays (r : Nat) (f : Region → Region) : (s.updRegion r f).arrays = s.arrays := rfl
@[simp] theorem State.updRegion_dev (r : Nat) (f : Region → Region) : (s.updRegion r f).dev = s.dev := rfl
@[simp] theorem State.updRegion_fab (r : Nat) (f : Region → Region) : (s.updRegion r f).fab = s.fab := rfl
@[simp] theorem State.updRegion_frameClk (r : Nat) (f : Region → Region) : (s.updRegion r f).frameClk = s.frameClk := rfl
@[simp] theorem State.updRegion_agenda (r : Nat) (f : Region → Region) : (s.updRegion r f).agenda = s.agenda := rfl
@[simp] theorem State.updRegion_cur (r : Nat) (f : Region → Region) : (s.updRegion r f).cur = s.cur := rfl
@[simp] theorem State.updRegion_chan (r : Nat) (f : Region → Region) : (s.updRegion r f).chan = s.chan := rfl
@[simp] theorem State.updRegion_draws (r : Nat) (f : Region → Region) : (s.updRegion r f).draws = s.draws := rfl

@[simp] theorem State.issueAt_mem (pc k : Nat) (f : Core → Core) : (s.issueAt pc k f).mem = s.mem := rfl
@[simp] theorem State.issueAt_poison (pc k : Nat) (f : Core → Core) : (s.issueAt pc k f).poison = s.poison := rfl
@[simp] theorem State.issueAt_dir (pc k : Nat) (f : Core → Core) : (s.issueAt pc k f).dir = s.dir := rfl
@[simp] theorem State.issueAt_msgs (pc k : Nat) (f : Core → Core) : (s.issueAt pc k f).msgs = s.msgs := rfl
@[simp] theorem State.issueAt_lines (pc k : Nat) (f : Core → Core) : (s.issueAt pc k f).lines = s.lines := rfl
@[simp] theorem State.issueAt_snoop (pc k : Nat) (f : Core → Core) : (s.issueAt pc k f).snoop = s.snoop := rfl
@[simp] theorem State.issueAt_bis (pc k : Nat) (f : Core → Core) : (s.issueAt pc k f).bis = s.bis := rfl
@[simp] theorem State.issueAt_arrays (pc k : Nat) (f : Core → Core) : (s.issueAt pc k f).arrays = s.arrays := rfl
@[simp] theorem State.issueAt_cp (pc k : Nat) (f : Core → Core) : (s.issueAt pc k f).cp = s.cp := rfl
@[simp] theorem State.issueAt_dev (pc k : Nat) (f : Core → Core) : (s.issueAt pc k f).dev = s.dev := rfl
@[simp] theorem State.issueAt_fab (pc k : Nat) (f : Core → Core) : (s.issueAt pc k f).fab = s.fab := rfl
@[simp] theorem State.issueAt_frameClk (pc k : Nat) (f : Core → Core) : (s.issueAt pc k f).frameClk = s.frameClk := rfl
@[simp] theorem State.issueAt_agenda (pc k : Nat) (f : Core → Core) : (s.issueAt pc k f).agenda = s.agenda := rfl
@[simp] theorem State.issueAt_cur (pc k : Nat) (f : Core → Core) : (s.issueAt pc k f).cur = s.cur := rfl
@[simp] theorem State.issueAt_chan (pc k : Nat) (f : Core → Core) : (s.issueAt pc k f).chan = s.chan := rfl
@[simp] theorem State.issueAt_draws (pc k : Nat) (f : Core → Core) : (s.issueAt pc k f).draws = s.draws := rfl

@[simp] theorem State.issueS_mem (k : Nat) (f : Core → Core) : (s.issueS k f).mem = s.mem := rfl
@[simp] theorem State.issueS_poison (k : Nat) (f : Core → Core) : (s.issueS k f).poison = s.poison := rfl
@[simp] theorem State.issueS_dir (k : Nat) (f : Core → Core) : (s.issueS k f).dir = s.dir := rfl
@[simp] theorem State.issueS_msgs (k : Nat) (f : Core → Core) : (s.issueS k f).msgs = s.msgs := rfl
@[simp] theorem State.issueS_lines (k : Nat) (f : Core → Core) : (s.issueS k f).lines = s.lines := rfl
@[simp] theorem State.issueS_snoop (k : Nat) (f : Core → Core) : (s.issueS k f).snoop = s.snoop := rfl
@[simp] theorem State.issueS_bis (k : Nat) (f : Core → Core) : (s.issueS k f).bis = s.bis := rfl
@[simp] theorem State.issueS_arrays (k : Nat) (f : Core → Core) : (s.issueS k f).arrays = s.arrays := rfl
@[simp] theorem State.issueS_cp (k : Nat) (f : Core → Core) : (s.issueS k f).cp = s.cp := rfl
@[simp] theorem State.issueS_dev (k : Nat) (f : Core → Core) : (s.issueS k f).dev = s.dev := rfl
@[simp] theorem State.issueS_fab (k : Nat) (f : Core → Core) : (s.issueS k f).fab = s.fab := rfl
@[simp] theorem State.issueS_frameClk (k : Nat) (f : Core → Core) : (s.issueS k f).frameClk = s.frameClk := rfl
@[simp] theorem State.issueS_agenda (k : Nat) (f : Core → Core) : (s.issueS k f).agenda = s.agenda := rfl
@[simp] theorem State.issueS_cur (k : Nat) (f : Core → Core) : (s.issueS k f).cur = s.cur := rfl
@[simp] theorem State.issueS_chan (k : Nat) (f : Core → Core) : (s.issueS k f).chan = s.chan := rfl
@[simp] theorem State.issueS_draws (k : Nat) (f : Core → Core) : (s.issueS k f).draws = s.draws := rfl

@[simp] theorem State.stallS_mem (w : StallCause) : (s.stallS w).mem = s.mem := rfl
@[simp] theorem State.stallS_poison (w : StallCause) : (s.stallS w).poison = s.poison := rfl
@[simp] theorem State.stallS_dir (w : StallCause) : (s.stallS w).dir = s.dir := rfl
@[simp] theorem State.stallS_msgs (w : StallCause) : (s.stallS w).msgs = s.msgs := rfl
@[simp] theorem State.stallS_lines (w : StallCause) : (s.stallS w).lines = s.lines := rfl
@[simp] theorem State.stallS_snoop (w : StallCause) : (s.stallS w).snoop = s.snoop := rfl
@[simp] theorem State.stallS_bis (w : StallCause) : (s.stallS w).bis = s.bis := rfl
@[simp] theorem State.stallS_arrays (w : StallCause) : (s.stallS w).arrays = s.arrays := rfl
@[simp] theorem State.stallS_cp (w : StallCause) : (s.stallS w).cp = s.cp := rfl
@[simp] theorem State.stallS_dev (w : StallCause) : (s.stallS w).dev = s.dev := rfl
@[simp] theorem State.stallS_fab (w : StallCause) : (s.stallS w).fab = s.fab := rfl
@[simp] theorem State.stallS_frameClk (w : StallCause) : (s.stallS w).frameClk = s.frameClk := rfl
@[simp] theorem State.stallS_agenda (w : StallCause) : (s.stallS w).agenda = s.agenda := rfl
@[simp] theorem State.stallS_cur (w : StallCause) : (s.stallS w).cur = s.cur := rfl
@[simp] theorem State.stallS_chan (w : StallCause) : (s.stallS w).chan = s.chan := rfl
@[simp] theorem State.stallS_draws (w : StallCause) : (s.stallS w).draws = s.draws := rfl

@[simp] theorem State.raise_mem (n : Nat) (r : FaultRec) : (s.raise n r).mem = s.mem := rfl
@[simp] theorem State.raise_poison (n : Nat) (r : FaultRec) : (s.raise n r).poison = s.poison := rfl
@[simp] theorem State.raise_dir (n : Nat) (r : FaultRec) : (s.raise n r).dir = s.dir := rfl
@[simp] theorem State.raise_msgs (n : Nat) (r : FaultRec) : (s.raise n r).msgs = s.msgs := rfl
@[simp] theorem State.raise_lines (n : Nat) (r : FaultRec) : (s.raise n r).lines = s.lines := rfl
@[simp] theorem State.raise_snoop (n : Nat) (r : FaultRec) : (s.raise n r).snoop = s.snoop := rfl
@[simp] theorem State.raise_bis (n : Nat) (r : FaultRec) : (s.raise n r).bis = s.bis := rfl
@[simp] theorem State.raise_arrays (n : Nat) (r : FaultRec) : (s.raise n r).arrays = s.arrays := rfl
@[simp] theorem State.raise_cp (n : Nat) (r : FaultRec) : (s.raise n r).cp = s.cp := rfl
@[simp] theorem State.raise_dev (n : Nat) (r : FaultRec) : (s.raise n r).dev = s.dev := rfl
@[simp] theorem State.raise_fab (n : Nat) (r : FaultRec) : (s.raise n r).fab = s.fab := rfl
@[simp] theorem State.raise_frameClk (n : Nat) (r : FaultRec) : (s.raise n r).frameClk = s.frameClk := rfl
@[simp] theorem State.raise_agenda (n : Nat) (r : FaultRec) : (s.raise n r).agenda = s.agenda := rfl
@[simp] theorem State.raise_cur (n : Nat) (r : FaultRec) : (s.raise n r).cur = s.cur := rfl
@[simp] theorem State.raise_chan (n : Nat) (r : FaultRec) : (s.raise n r).chan = s.chan := rfl
@[simp] theorem State.raise_draws (n : Nat) (r : FaultRec) : (s.raise n r).draws = s.draws := rfl

@[simp] theorem State.draw_draws : s.draw.2.draws = s.draws + 1 := rfl
@[simp] theorem State.draw_fst : s.draw.1 = s.draws := rfl
@[simp] theorem State.draw_mem : s.draw.2.mem = s.mem := rfl
@[simp] theorem State.draw_poison : s.draw.2.poison = s.poison := rfl
@[simp] theorem State.draw_dir : s.draw.2.dir = s.dir := rfl
@[simp] theorem State.draw_msgs : s.draw.2.msgs = s.msgs := rfl
@[simp] theorem State.draw_lines : s.draw.2.lines = s.lines := rfl
@[simp] theorem State.draw_snoop : s.draw.2.snoop = s.snoop := rfl
@[simp] theorem State.draw_bis : s.draw.2.bis = s.bis := rfl
@[simp] theorem State.draw_cores : s.draw.2.cores = s.cores := rfl
@[simp] theorem State.draw_arrays : s.draw.2.arrays = s.arrays := rfl
@[simp] theorem State.draw_cp : s.draw.2.cp = s.cp := rfl
@[simp] theorem State.draw_dev : s.draw.2.dev = s.dev := rfl
@[simp] theorem State.draw_fab : s.draw.2.fab = s.fab := rfl
@[simp] theorem State.draw_frameClk : s.draw.2.frameClk = s.frameClk := rfl
@[simp] theorem State.draw_agenda : s.draw.2.agenda = s.agenda := rfl
@[simp] theorem State.draw_cur : s.draw.2.cur = s.cur := rfl
@[simp] theorem State.draw_chan : s.draw.2.chan = s.chan := rfl

/-! ## Cores and arrays -/

@[simp] theorem State.core_setCore_same (n : Nat) (x : Core) : (s.setCore n x).core n = x := by
  simp [State.core, State.setCore]

theorem State.core_setCore_ne {n m : Nat} (x : Core) (h : m ≠ n) : (s.setCore n x).core m = s.core m := by
  simp [State.core, State.setCore, tabGet_tabSet_ne _ _ _ h]

@[simp] theorem State.core_updCore_same (n : Nat) (f : Core → Core) : (s.updCore n f).core n = f (s.core n) := by
  simp [State.updCore]

theorem State.core_updCore_ne {n m : Nat} (f : Core → Core) (h : m ≠ n) : (s.updCore n f).core m = s.core m := by
  simp [State.updCore, s.core_setCore_ne _ h]

@[simp] theorem State.me_upd (f : Core → Core) : (s.upd f).me = f s.me := by
  simp [State.me, State.upd]

theorem State.core_upd_ne {m : Nat} (f : Core → Core) (h : m ≠ s.cur) : (s.upd f).core m = s.core m :=
  s.core_updCore_ne f h

@[simp] theorem State.array_setArray_same (k : Nat) (a : ArraySt) : (s.setArray k a).array k = a := by
  simp [State.array, State.setArray]

theorem State.array_setArray_ne {k j : Nat} (a : ArraySt) (h : j ≠ k) : (s.setArray k a).array j = s.array j := by
  simp [State.array, State.setArray, tabGet_tabSet_ne _ _ _ h]

/-! ## Memory: no update of a core or an array touches a byte -/

@[simp] theorem State.phRead_setCore (n : Nat) (x : Core) (dom pa k : Nat) :
    (s.setCore n x).phRead dom pa k = s.phRead dom pa k := rfl
@[simp] theorem State.phRead_updCore (n : Nat) (f : Core → Core) (dom pa k : Nat) :
    (s.updCore n f).phRead dom pa k = s.phRead dom pa k := rfl
@[simp] theorem State.phRead_upd (f : Core → Core) (dom pa k : Nat) :
    (s.upd f).phRead dom pa k = s.phRead dom pa k := rfl
@[simp] theorem State.phRead_setArray (j : Nat) (a : ArraySt) (dom pa k : Nat) :
    (s.setArray j a).phRead dom pa k = s.phRead dom pa k := rfl

/-! ## Registers and predicates of a core -/

@[simp] theorem Core.reg_zero : c.reg 0 = 0 := rfl
@[simp] theorem Core.pred_zero : c.pred 0 = true := rfl

theorem Core.reg_setReg_same {r : Nat} (v : Word) (h0 : r ≠ 0) (h : r < 32) : (c.setReg r v).reg r = v := by
  simp [Core.reg, Core.setReg, h0, h]

theorem Core.reg_setReg_ne {r q : Nat} (v : Word) (h : q ≠ r) : (c.setReg r v).reg q = c.reg q := by
  unfold Core.reg Core.setReg
  split
  · rfl
  · split
    · rfl
    · exact vget_vset_ne _ _ _ h

@[simp] theorem Core.setReg_status (r : Nat) (v : Word) : (c.setReg r v).status = c.status := by
  unfold Core.setReg; split <;> rfl
@[simp] theorem Core.setReg_call (r : Nat) (v : Word) : (c.setReg r v).call = c.call := by
  unfold Core.setReg; split <;> rfl
@[simp] theorem Core.setReg_heldFaults (r : Nat) (v : Word) : (c.setReg r v).heldFaults = c.heldFaults := by
  unfold Core.setReg; split <;> rfl
@[simp] theorem Core.setReg_pc (r : Nat) (v : Word) : (c.setReg r v).pc = c.pc := by
  unfold Core.setReg; split <;> rfl
@[simp] theorem Core.setReg_preds (r : Nat) (v : Word) : (c.setReg r v).preds = c.preds := by
  unfold Core.setReg; split <;> rfl
@[simp] theorem Core.setReg_pend (r : Nat) (v : Word) : (c.setReg r v).pend = c.pend := by
  unfold Core.setReg; split <;> rfl
@[simp] theorem Core.setReg_ld (r : Nat) (v : Word) : (c.setReg r v).ld = c.ld := by
  unfold Core.setReg; split <;> rfl
@[simp] theorem Core.setReg_st (r : Nat) (v : Word) : (c.setReg r v).st = c.st := by
  unfold Core.setReg; split <;> rfl
@[simp] theorem Core.setReg_cp (r : Nat) (v : Word) : (c.setReg r v).cp = c.cp := by
  unfold Core.setReg; split <;> rfl
@[simp] theorem Core.setReg_tl (r : Nat) (v : Word) : (c.setReg r v).tl = c.tl := by
  unfold Core.setReg; split <;> rfl
@[simp] theorem Core.setReg_sched (r : Nat) (v : Word) : (c.setReg r v).sched = c.sched := by
  unfold Core.setReg; split <;> rfl
@[simp] theorem Core.setReg_nextIssue (r : Nat) (v : Word) : (c.setReg r v).nextIssue = c.nextIssue := by
  unfold Core.setReg; split <;> rfl
@[simp] theorem Core.setReg_stall (r : Nat) (v : Word) : (c.setReg r v).stall = c.stall := by
  unfold Core.setReg; split <;> rfl
@[simp] theorem Core.setReg_tried (r : Nat) (v : Word) : (c.setReg r v).tried = c.tried := by
  unfold Core.setReg; split <;> rfl
@[simp] theorem Core.setReg_issued (r : Nat) (v : Word) : (c.setReg r v).issued = c.issued := by
  unfold Core.setReg; split <;> rfl
@[simp] theorem Core.setReg_waitAt (r : Nat) (v : Word) : (c.setReg r v).waitAt = c.waitAt := by
  unfold Core.setReg; split <;> rfl
@[simp] theorem Core.setReg_waitVals (r : Nat) (v : Word) : (c.setReg r v).waitVals = c.waitVals := by
  unfold Core.setReg; split <;> rfl
@[simp] theorem Core.setReg_fstat (r : Nat) (v : Word) : (c.setReg r v).fstat = c.fstat := by
  unfold Core.setReg; split <;> rfl
@[simp] theorem Core.setReg_rngCc (r : Nat) (v : Word) : (c.setReg r v).rngCc = c.rngCc := by
  unfold Core.setReg; split <;> rfl
@[simp] theorem Core.setReg_rngVe (r : Nat) (v : Word) : (c.setReg r v).rngVe = c.rngVe := by
  unfold Core.setReg; split <;> rfl
@[simp] theorem Core.setReg_rngMe (r : Nat) (v : Word) : (c.setReg r v).rngMe = c.rngMe := by
  unfold Core.setReg; split <;> rfl
@[simp] theorem Core.setReg_failRec (r : Nat) (v : Word) : (c.setReg r v).failRec = c.failRec := by
  unfold Core.setReg; split <;> rfl
@[simp] theorem Core.setReg_imem (r : Nat) (v : Word) : (c.setReg r v).imem = c.imem := by
  unfold Core.setReg; split <;> rfl
@[simp] theorem Core.setReg_spad (r : Nat) (v : Word) : (c.setReg r v).spad = c.spad := by
  unfold Core.setReg; split <;> rfl
@[simp] theorem Core.setReg_sh (r : Nat) (v : Word) : (c.setReg r v).sh = c.sh := by
  unfold Core.setReg; split <;> rfl
@[simp] theorem Core.setReg_hv (r : Nat) (v : Word) : (c.setReg r v).hv = c.hv := by
  unfold Core.setReg; split <;> rfl
@[simp] theorem Core.setReg_ba (r : Nat) (v : Word) : (c.setReg r v).ba = c.ba := by
  unfold Core.setReg; split <;> rfl
@[simp] theorem Core.setReg_baW8 (r : Nat) (v : Word) : (c.setReg r v).baW8 = c.baW8 := by
  unfold Core.setReg; split <;> rfl
@[simp] theorem Core.setReg_ties (r : Nat) (v : Word) : (c.setReg r v).ties = c.ties := by
  unfold Core.setReg; split <;> rfl
@[simp] theorem Core.setReg_ve (r : Nat) (v : Word) : (c.setReg r v).ve = c.ve := by
  unfold Core.setReg; split <;> rfl
@[simp] theorem Core.setReg_me (r : Nat) (v : Word) : (c.setReg r v).me = c.me := by
  unfold Core.setReg; split <;> rfl
@[simp] theorem Core.setReg_hu (r : Nat) (v : Word) : (c.setReg r v).hu = c.hu := by
  unfold Core.setReg; split <;> rfl
@[simp] theorem Core.setReg_ch (r : Nat) (v : Word) : (c.setReg r v).ch = c.ch := by
  unfold Core.setReg; split <;> rfl
@[simp] theorem Core.setReg_meShadow (r : Nat) (v : Word) : (c.setReg r v).meShadow = c.meShadow := by
  unfold Core.setReg; split <;> rfl
@[simp] theorem Core.setReg_meActive (r : Nat) (v : Word) : (c.setReg r v).meActive = c.meActive := by
  unfold Core.setReg; split <;> rfl
@[simp] theorem Core.setReg_slots (r : Nat) (v : Word) : (c.setReg r v).slots = c.slots := by
  unfold Core.setReg; split <;> rfl
@[simp] theorem Core.setReg_fmtHeld (r : Nat) (v : Word) : (c.setReg r v).fmtHeld = c.fmtHeld := by
  unfold Core.setReg; split <;> rfl
@[simp] theorem Core.setReg_meProg (r : Nat) (v : Word) : (c.setReg r v).meProg = c.meProg := by
  unfold Core.setReg; split <;> rfl
@[simp] theorem Core.setReg_meFlags (r : Nat) (v : Word) : (c.setReg r v).meFlags = c.meFlags := by
  unfold Core.setReg; split <;> rfl
@[simp] theorem Core.setReg_fmtq (r : Nat) (v : Word) : (c.setReg r v).fmtq = c.fmtq := by
  unfold Core.setReg; split <;> rfl
@[simp] theorem Core.setReg_win (r : Nat) (v : Word) : (c.setReg r v).win = c.win := by
  unfold Core.setReg; split <;> rfl
@[simp] theorem Core.setReg_tiles (r : Nat) (v : Word) : (c.setReg r v).tiles = c.tiles := by
  unfold Core.setReg; split <;> rfl
@[simp] theorem Core.setReg_inflight (r : Nat) (v : Word) : (c.setReg r v).inflight = c.inflight := by
  unfold Core.setReg; split <;> rfl
@[simp] theorem Core.setReg_sync (r : Nat) (v : Word) : (c.setReg r v).sync = c.sync := by
  unfold Core.setReg; split <;> rfl
@[simp] theorem Core.setReg_tracker (r : Nat) (v : Word) : (c.setReg r v).tracker = c.tracker := by
  unfold Core.setReg; split <;> rfl
@[simp] theorem Core.setReg_nextTag (r : Nat) (v : Word) : (c.setReg r v).nextTag = c.nextTag := by
  unfold Core.setReg; split <;> rfl
@[simp] theorem Core.setReg_gens (r : Nat) (v : Word) : (c.setReg r v).gens = c.gens := by
  unfold Core.setReg; split <;> rfl
@[simp] theorem Core.setReg_cr (r : Nat) (v : Word) : (c.setReg r v).cr = c.cr := by
  unfold Core.setReg; split <;> rfl
@[simp] theorem Core.setReg_crVa (r : Nat) (v : Word) : (c.setReg r v).crVa = c.crVa := by
  unfold Core.setReg; split <;> rfl
@[simp] theorem Core.setReg_region (r : Nat) (v : Word) : (c.setReg r v).region = c.region := by
  unfold Core.setReg; split <;> rfl
@[simp] theorem Core.setReg_prio (r : Nat) (v : Word) : (c.setReg r v).prio = c.prio := by
  unfold Core.setReg; split <;> rfl
@[simp] theorem Core.setReg_since (r : Nat) (v : Word) : (c.setReg r v).since = c.since := by
  unfold Core.setReg; split <;> rfl
@[simp] theorem Core.setReg_lastRegion (r : Nat) (v : Word) : (c.setReg r v).lastRegion = c.lastRegion := by
  unfold Core.setReg; split <;> rfl
@[simp] theorem Core.setReg_wake (r : Nat) (v : Word) : (c.setReg r v).wake = c.wake := by
  unfold Core.setReg; split <;> rfl
@[simp] theorem Core.setReg_qHead (r : Nat) (v : Word) : (c.setReg r v).qHead = c.qHead := by
  unfold Core.setReg; split <;> rfl
@[simp] theorem Core.setReg_posted (r : Nat) (v : Word) : (c.setReg r v).posted = c.posted := by
  unfold Core.setReg; split <;> rfl
@[simp] theorem Core.setReg_buf (r : Nat) (v : Word) : (c.setReg r v).buf = c.buf := by
  unfold Core.setReg; split <;> rfl
@[simp] theorem Core.setReg_hold (r : Nat) (v : Word) : (c.setReg r v).hold = c.hold := by
  unfold Core.setReg; split <;> rfl
@[simp] theorem Core.setReg_retired (r : Nat) (v : Word) : (c.setReg r v).retired = c.retired := by
  unfold Core.setReg; split <;> rfl
@[simp] theorem Core.setReg_w0 (r : Nat) (v : Word) : (c.setReg r v).w0 = c.w0 := by
  unfold Core.setReg; split <;> rfl
@[simp] theorem Core.setReg_desc (r : Nat) (v : Word) : (c.setReg r v).desc = c.desc := by
  unfold Core.setReg; split <;> rfl
@[simp] theorem Core.setReg_loading (r : Nat) (v : Word) : (c.setReg r v).loading = c.loading := by
  unfold Core.setReg; split <;> rfl
@[simp] theorem Core.setReg_uc (r : Nat) (v : Word) : (c.setReg r v).uc = c.uc := by
  unfold Core.setReg; split <;> rfl
@[simp] theorem Core.setReg_trap (r : Nat) (v : Word) : (c.setReg r v).trap = c.trap := by
  unfold Core.setReg; split <;> rfl
@[simp] theorem Core.setReg_frame (r : Nat) (v : Word) : (c.setReg r v).frame = c.frame := by
  unfold Core.setReg; split <;> rfl
@[simp] theorem Core.setReg_pfTag (r : Nat) (v : Word) : (c.setReg r v).pfTag = c.pfTag := by
  unfold Core.setReg; split <;> rfl
@[simp] theorem Core.setReg_frozenAt (r : Nat) (v : Word) : (c.setReg r v).frozenAt = c.frozenAt := by
  unfold Core.setReg; split <;> rfl
@[simp] theorem Core.setReg_tlb (r : Nat) (v : Word) : (c.setReg r v).tlb = c.tlb := by
  unfold Core.setReg; split <;> rfl
@[simp] theorem Core.setReg_stlb (r : Nat) (v : Word) : (c.setReg r v).stlb = c.stlb := by
  unfold Core.setReg; split <;> rfl
@[simp] theorem Core.setReg_locator (r : Nat) (v : Word) : (c.setReg r v).locator = c.locator := by
  unfold Core.setReg; split <;> rfl
@[simp] theorem Core.setReg_trace (r : Nat) (v : Word) : (c.setReg r v).trace = c.trace := by
  unfold Core.setReg; split <;> rfl
@[simp] theorem Core.setReg_traceLost (r : Nat) (v : Word) : (c.setReg r v).traceLost = c.traceLost := by
  unfold Core.setReg; split <;> rfl

@[simp] theorem Core.setPred_status (k : Nat) (v : Bool) : (c.setPred k v).status = c.status := by
  unfold Core.setPred; split <;> rfl
@[simp] theorem Core.setPred_call (k : Nat) (v : Bool) : (c.setPred k v).call = c.call := by
  unfold Core.setPred; split <;> rfl
@[simp] theorem Core.setPred_heldFaults (k : Nat) (v : Bool) : (c.setPred k v).heldFaults = c.heldFaults := by
  unfold Core.setPred; split <;> rfl
@[simp] theorem Core.setPred_pc (k : Nat) (v : Bool) : (c.setPred k v).pc = c.pc := by
  unfold Core.setPred; split <;> rfl
@[simp] theorem Core.setPred_regs (k : Nat) (v : Bool) : (c.setPred k v).regs = c.regs := by
  unfold Core.setPred; split <;> rfl
@[simp] theorem Core.setPred_pend (k : Nat) (v : Bool) : (c.setPred k v).pend = c.pend := by
  unfold Core.setPred; split <;> rfl
@[simp] theorem Core.setPred_ld (k : Nat) (v : Bool) : (c.setPred k v).ld = c.ld := by
  unfold Core.setPred; split <;> rfl
@[simp] theorem Core.setPred_st (k : Nat) (v : Bool) : (c.setPred k v).st = c.st := by
  unfold Core.setPred; split <;> rfl
@[simp] theorem Core.setPred_cp (k : Nat) (v : Bool) : (c.setPred k v).cp = c.cp := by
  unfold Core.setPred; split <;> rfl
@[simp] theorem Core.setPred_tl (k : Nat) (v : Bool) : (c.setPred k v).tl = c.tl := by
  unfold Core.setPred; split <;> rfl
@[simp] theorem Core.setPred_sched (k : Nat) (v : Bool) : (c.setPred k v).sched = c.sched := by
  unfold Core.setPred; split <;> rfl
@[simp] theorem Core.setPred_nextIssue (k : Nat) (v : Bool) : (c.setPred k v).nextIssue = c.nextIssue := by
  unfold Core.setPred; split <;> rfl
@[simp] theorem Core.setPred_stall (k : Nat) (v : Bool) : (c.setPred k v).stall = c.stall := by
  unfold Core.setPred; split <;> rfl
@[simp] theorem Core.setPred_tried (k : Nat) (v : Bool) : (c.setPred k v).tried = c.tried := by
  unfold Core.setPred; split <;> rfl
@[simp] theorem Core.setPred_issued (k : Nat) (v : Bool) : (c.setPred k v).issued = c.issued := by
  unfold Core.setPred; split <;> rfl
@[simp] theorem Core.setPred_waitAt (k : Nat) (v : Bool) : (c.setPred k v).waitAt = c.waitAt := by
  unfold Core.setPred; split <;> rfl
@[simp] theorem Core.setPred_waitVals (k : Nat) (v : Bool) : (c.setPred k v).waitVals = c.waitVals := by
  unfold Core.setPred; split <;> rfl
@[simp] theorem Core.setPred_fstat (k : Nat) (v : Bool) : (c.setPred k v).fstat = c.fstat := by
  unfold Core.setPred; split <;> rfl
@[simp] theorem Core.setPred_rngCc (k : Nat) (v : Bool) : (c.setPred k v).rngCc = c.rngCc := by
  unfold Core.setPred; split <;> rfl
@[simp] theorem Core.setPred_rngVe (k : Nat) (v : Bool) : (c.setPred k v).rngVe = c.rngVe := by
  unfold Core.setPred; split <;> rfl
@[simp] theorem Core.setPred_rngMe (k : Nat) (v : Bool) : (c.setPred k v).rngMe = c.rngMe := by
  unfold Core.setPred; split <;> rfl
@[simp] theorem Core.setPred_failRec (k : Nat) (v : Bool) : (c.setPred k v).failRec = c.failRec := by
  unfold Core.setPred; split <;> rfl
@[simp] theorem Core.setPred_imem (k : Nat) (v : Bool) : (c.setPred k v).imem = c.imem := by
  unfold Core.setPred; split <;> rfl
@[simp] theorem Core.setPred_spad (k : Nat) (v : Bool) : (c.setPred k v).spad = c.spad := by
  unfold Core.setPred; split <;> rfl
@[simp] theorem Core.setPred_sh (k : Nat) (v : Bool) : (c.setPred k v).sh = c.sh := by
  unfold Core.setPred; split <;> rfl
@[simp] theorem Core.setPred_hv (k : Nat) (v : Bool) : (c.setPred k v).hv = c.hv := by
  unfold Core.setPred; split <;> rfl
@[simp] theorem Core.setPred_ba (k : Nat) (v : Bool) : (c.setPred k v).ba = c.ba := by
  unfold Core.setPred; split <;> rfl
@[simp] theorem Core.setPred_baW8 (k : Nat) (v : Bool) : (c.setPred k v).baW8 = c.baW8 := by
  unfold Core.setPred; split <;> rfl
@[simp] theorem Core.setPred_ties (k : Nat) (v : Bool) : (c.setPred k v).ties = c.ties := by
  unfold Core.setPred; split <;> rfl
@[simp] theorem Core.setPred_ve (k : Nat) (v : Bool) : (c.setPred k v).ve = c.ve := by
  unfold Core.setPred; split <;> rfl
@[simp] theorem Core.setPred_me (k : Nat) (v : Bool) : (c.setPred k v).me = c.me := by
  unfold Core.setPred; split <;> rfl
@[simp] theorem Core.setPred_hu (k : Nat) (v : Bool) : (c.setPred k v).hu = c.hu := by
  unfold Core.setPred; split <;> rfl
@[simp] theorem Core.setPred_ch (k : Nat) (v : Bool) : (c.setPred k v).ch = c.ch := by
  unfold Core.setPred; split <;> rfl
@[simp] theorem Core.setPred_meShadow (k : Nat) (v : Bool) : (c.setPred k v).meShadow = c.meShadow := by
  unfold Core.setPred; split <;> rfl
@[simp] theorem Core.setPred_meActive (k : Nat) (v : Bool) : (c.setPred k v).meActive = c.meActive := by
  unfold Core.setPred; split <;> rfl
@[simp] theorem Core.setPred_slots (k : Nat) (v : Bool) : (c.setPred k v).slots = c.slots := by
  unfold Core.setPred; split <;> rfl
@[simp] theorem Core.setPred_fmtHeld (k : Nat) (v : Bool) : (c.setPred k v).fmtHeld = c.fmtHeld := by
  unfold Core.setPred; split <;> rfl
@[simp] theorem Core.setPred_meProg (k : Nat) (v : Bool) : (c.setPred k v).meProg = c.meProg := by
  unfold Core.setPred; split <;> rfl
@[simp] theorem Core.setPred_meFlags (k : Nat) (v : Bool) : (c.setPred k v).meFlags = c.meFlags := by
  unfold Core.setPred; split <;> rfl
@[simp] theorem Core.setPred_fmtq (k : Nat) (v : Bool) : (c.setPred k v).fmtq = c.fmtq := by
  unfold Core.setPred; split <;> rfl
@[simp] theorem Core.setPred_win (k : Nat) (v : Bool) : (c.setPred k v).win = c.win := by
  unfold Core.setPred; split <;> rfl
@[simp] theorem Core.setPred_tiles (k : Nat) (v : Bool) : (c.setPred k v).tiles = c.tiles := by
  unfold Core.setPred; split <;> rfl
@[simp] theorem Core.setPred_inflight (k : Nat) (v : Bool) : (c.setPred k v).inflight = c.inflight := by
  unfold Core.setPred; split <;> rfl
@[simp] theorem Core.setPred_sync (k : Nat) (v : Bool) : (c.setPred k v).sync = c.sync := by
  unfold Core.setPred; split <;> rfl
@[simp] theorem Core.setPred_tracker (k : Nat) (v : Bool) : (c.setPred k v).tracker = c.tracker := by
  unfold Core.setPred; split <;> rfl
@[simp] theorem Core.setPred_nextTag (k : Nat) (v : Bool) : (c.setPred k v).nextTag = c.nextTag := by
  unfold Core.setPred; split <;> rfl
@[simp] theorem Core.setPred_gens (k : Nat) (v : Bool) : (c.setPred k v).gens = c.gens := by
  unfold Core.setPred; split <;> rfl
@[simp] theorem Core.setPred_cr (k : Nat) (v : Bool) : (c.setPred k v).cr = c.cr := by
  unfold Core.setPred; split <;> rfl
@[simp] theorem Core.setPred_crVa (k : Nat) (v : Bool) : (c.setPred k v).crVa = c.crVa := by
  unfold Core.setPred; split <;> rfl
@[simp] theorem Core.setPred_region (k : Nat) (v : Bool) : (c.setPred k v).region = c.region := by
  unfold Core.setPred; split <;> rfl
@[simp] theorem Core.setPred_prio (k : Nat) (v : Bool) : (c.setPred k v).prio = c.prio := by
  unfold Core.setPred; split <;> rfl
@[simp] theorem Core.setPred_since (k : Nat) (v : Bool) : (c.setPred k v).since = c.since := by
  unfold Core.setPred; split <;> rfl
@[simp] theorem Core.setPred_lastRegion (k : Nat) (v : Bool) : (c.setPred k v).lastRegion = c.lastRegion := by
  unfold Core.setPred; split <;> rfl
@[simp] theorem Core.setPred_wake (k : Nat) (v : Bool) : (c.setPred k v).wake = c.wake := by
  unfold Core.setPred; split <;> rfl
@[simp] theorem Core.setPred_qHead (k : Nat) (v : Bool) : (c.setPred k v).qHead = c.qHead := by
  unfold Core.setPred; split <;> rfl
@[simp] theorem Core.setPred_posted (k : Nat) (v : Bool) : (c.setPred k v).posted = c.posted := by
  unfold Core.setPred; split <;> rfl
@[simp] theorem Core.setPred_buf (k : Nat) (v : Bool) : (c.setPred k v).buf = c.buf := by
  unfold Core.setPred; split <;> rfl
@[simp] theorem Core.setPred_hold (k : Nat) (v : Bool) : (c.setPred k v).hold = c.hold := by
  unfold Core.setPred; split <;> rfl
@[simp] theorem Core.setPred_retired (k : Nat) (v : Bool) : (c.setPred k v).retired = c.retired := by
  unfold Core.setPred; split <;> rfl
@[simp] theorem Core.setPred_w0 (k : Nat) (v : Bool) : (c.setPred k v).w0 = c.w0 := by
  unfold Core.setPred; split <;> rfl
@[simp] theorem Core.setPred_desc (k : Nat) (v : Bool) : (c.setPred k v).desc = c.desc := by
  unfold Core.setPred; split <;> rfl
@[simp] theorem Core.setPred_loading (k : Nat) (v : Bool) : (c.setPred k v).loading = c.loading := by
  unfold Core.setPred; split <;> rfl
@[simp] theorem Core.setPred_uc (k : Nat) (v : Bool) : (c.setPred k v).uc = c.uc := by
  unfold Core.setPred; split <;> rfl
@[simp] theorem Core.setPred_trap (k : Nat) (v : Bool) : (c.setPred k v).trap = c.trap := by
  unfold Core.setPred; split <;> rfl
@[simp] theorem Core.setPred_frame (k : Nat) (v : Bool) : (c.setPred k v).frame = c.frame := by
  unfold Core.setPred; split <;> rfl
@[simp] theorem Core.setPred_pfTag (k : Nat) (v : Bool) : (c.setPred k v).pfTag = c.pfTag := by
  unfold Core.setPred; split <;> rfl
@[simp] theorem Core.setPred_frozenAt (k : Nat) (v : Bool) : (c.setPred k v).frozenAt = c.frozenAt := by
  unfold Core.setPred; split <;> rfl
@[simp] theorem Core.setPred_tlb (k : Nat) (v : Bool) : (c.setPred k v).tlb = c.tlb := by
  unfold Core.setPred; split <;> rfl
@[simp] theorem Core.setPred_stlb (k : Nat) (v : Bool) : (c.setPred k v).stlb = c.stlb := by
  unfold Core.setPred; split <;> rfl
@[simp] theorem Core.setPred_locator (k : Nat) (v : Bool) : (c.setPred k v).locator = c.locator := by
  unfold Core.setPred; split <;> rfl
@[simp] theorem Core.setPred_trace (k : Nat) (v : Bool) : (c.setPred k v).trace = c.trace := by
  unfold Core.setPred; split <;> rfl
@[simp] theorem Core.setPred_traceLost (k : Nat) (v : Bool) : (c.setPred k v).traceLost = c.traceLost := by
  unfold Core.setPred; split <;> rfl

@[simp] theorem Core.setPend_status (r : Nat) (v : Bool) : (c.setPend r v).status = c.status := by
  unfold Core.setPend; split <;> rfl
@[simp] theorem Core.setPend_call (r : Nat) (v : Bool) : (c.setPend r v).call = c.call := by
  unfold Core.setPend; split <;> rfl
@[simp] theorem Core.setPend_heldFaults (r : Nat) (v : Bool) : (c.setPend r v).heldFaults = c.heldFaults := by
  unfold Core.setPend; split <;> rfl
@[simp] theorem Core.setPend_pc (r : Nat) (v : Bool) : (c.setPend r v).pc = c.pc := by
  unfold Core.setPend; split <;> rfl
@[simp] theorem Core.setPend_regs (r : Nat) (v : Bool) : (c.setPend r v).regs = c.regs := by
  unfold Core.setPend; split <;> rfl
@[simp] theorem Core.setPend_preds (r : Nat) (v : Bool) : (c.setPend r v).preds = c.preds := by
  unfold Core.setPend; split <;> rfl
@[simp] theorem Core.setPend_ld (r : Nat) (v : Bool) : (c.setPend r v).ld = c.ld := by
  unfold Core.setPend; split <;> rfl
@[simp] theorem Core.setPend_st (r : Nat) (v : Bool) : (c.setPend r v).st = c.st := by
  unfold Core.setPend; split <;> rfl
@[simp] theorem Core.setPend_cp (r : Nat) (v : Bool) : (c.setPend r v).cp = c.cp := by
  unfold Core.setPend; split <;> rfl
@[simp] theorem Core.setPend_tl (r : Nat) (v : Bool) : (c.setPend r v).tl = c.tl := by
  unfold Core.setPend; split <;> rfl
@[simp] theorem Core.setPend_sched (r : Nat) (v : Bool) : (c.setPend r v).sched = c.sched := by
  unfold Core.setPend; split <;> rfl
@[simp] theorem Core.setPend_nextIssue (r : Nat) (v : Bool) : (c.setPend r v).nextIssue = c.nextIssue := by
  unfold Core.setPend; split <;> rfl
@[simp] theorem Core.setPend_stall (r : Nat) (v : Bool) : (c.setPend r v).stall = c.stall := by
  unfold Core.setPend; split <;> rfl
@[simp] theorem Core.setPend_tried (r : Nat) (v : Bool) : (c.setPend r v).tried = c.tried := by
  unfold Core.setPend; split <;> rfl
@[simp] theorem Core.setPend_issued (r : Nat) (v : Bool) : (c.setPend r v).issued = c.issued := by
  unfold Core.setPend; split <;> rfl
@[simp] theorem Core.setPend_waitAt (r : Nat) (v : Bool) : (c.setPend r v).waitAt = c.waitAt := by
  unfold Core.setPend; split <;> rfl
@[simp] theorem Core.setPend_waitVals (r : Nat) (v : Bool) : (c.setPend r v).waitVals = c.waitVals := by
  unfold Core.setPend; split <;> rfl
@[simp] theorem Core.setPend_fstat (r : Nat) (v : Bool) : (c.setPend r v).fstat = c.fstat := by
  unfold Core.setPend; split <;> rfl
@[simp] theorem Core.setPend_rngCc (r : Nat) (v : Bool) : (c.setPend r v).rngCc = c.rngCc := by
  unfold Core.setPend; split <;> rfl
@[simp] theorem Core.setPend_rngVe (r : Nat) (v : Bool) : (c.setPend r v).rngVe = c.rngVe := by
  unfold Core.setPend; split <;> rfl
@[simp] theorem Core.setPend_rngMe (r : Nat) (v : Bool) : (c.setPend r v).rngMe = c.rngMe := by
  unfold Core.setPend; split <;> rfl
@[simp] theorem Core.setPend_failRec (r : Nat) (v : Bool) : (c.setPend r v).failRec = c.failRec := by
  unfold Core.setPend; split <;> rfl
@[simp] theorem Core.setPend_imem (r : Nat) (v : Bool) : (c.setPend r v).imem = c.imem := by
  unfold Core.setPend; split <;> rfl
@[simp] theorem Core.setPend_spad (r : Nat) (v : Bool) : (c.setPend r v).spad = c.spad := by
  unfold Core.setPend; split <;> rfl
@[simp] theorem Core.setPend_sh (r : Nat) (v : Bool) : (c.setPend r v).sh = c.sh := by
  unfold Core.setPend; split <;> rfl
@[simp] theorem Core.setPend_hv (r : Nat) (v : Bool) : (c.setPend r v).hv = c.hv := by
  unfold Core.setPend; split <;> rfl
@[simp] theorem Core.setPend_ba (r : Nat) (v : Bool) : (c.setPend r v).ba = c.ba := by
  unfold Core.setPend; split <;> rfl
@[simp] theorem Core.setPend_baW8 (r : Nat) (v : Bool) : (c.setPend r v).baW8 = c.baW8 := by
  unfold Core.setPend; split <;> rfl
@[simp] theorem Core.setPend_ties (r : Nat) (v : Bool) : (c.setPend r v).ties = c.ties := by
  unfold Core.setPend; split <;> rfl
@[simp] theorem Core.setPend_ve (r : Nat) (v : Bool) : (c.setPend r v).ve = c.ve := by
  unfold Core.setPend; split <;> rfl
@[simp] theorem Core.setPend_me (r : Nat) (v : Bool) : (c.setPend r v).me = c.me := by
  unfold Core.setPend; split <;> rfl
@[simp] theorem Core.setPend_hu (r : Nat) (v : Bool) : (c.setPend r v).hu = c.hu := by
  unfold Core.setPend; split <;> rfl
@[simp] theorem Core.setPend_ch (r : Nat) (v : Bool) : (c.setPend r v).ch = c.ch := by
  unfold Core.setPend; split <;> rfl
@[simp] theorem Core.setPend_meShadow (r : Nat) (v : Bool) : (c.setPend r v).meShadow = c.meShadow := by
  unfold Core.setPend; split <;> rfl
@[simp] theorem Core.setPend_meActive (r : Nat) (v : Bool) : (c.setPend r v).meActive = c.meActive := by
  unfold Core.setPend; split <;> rfl
@[simp] theorem Core.setPend_slots (r : Nat) (v : Bool) : (c.setPend r v).slots = c.slots := by
  unfold Core.setPend; split <;> rfl
@[simp] theorem Core.setPend_fmtHeld (r : Nat) (v : Bool) : (c.setPend r v).fmtHeld = c.fmtHeld := by
  unfold Core.setPend; split <;> rfl
@[simp] theorem Core.setPend_meProg (r : Nat) (v : Bool) : (c.setPend r v).meProg = c.meProg := by
  unfold Core.setPend; split <;> rfl
@[simp] theorem Core.setPend_meFlags (r : Nat) (v : Bool) : (c.setPend r v).meFlags = c.meFlags := by
  unfold Core.setPend; split <;> rfl
@[simp] theorem Core.setPend_fmtq (r : Nat) (v : Bool) : (c.setPend r v).fmtq = c.fmtq := by
  unfold Core.setPend; split <;> rfl
@[simp] theorem Core.setPend_win (r : Nat) (v : Bool) : (c.setPend r v).win = c.win := by
  unfold Core.setPend; split <;> rfl
@[simp] theorem Core.setPend_tiles (r : Nat) (v : Bool) : (c.setPend r v).tiles = c.tiles := by
  unfold Core.setPend; split <;> rfl
@[simp] theorem Core.setPend_inflight (r : Nat) (v : Bool) : (c.setPend r v).inflight = c.inflight := by
  unfold Core.setPend; split <;> rfl
@[simp] theorem Core.setPend_sync (r : Nat) (v : Bool) : (c.setPend r v).sync = c.sync := by
  unfold Core.setPend; split <;> rfl
@[simp] theorem Core.setPend_tracker (r : Nat) (v : Bool) : (c.setPend r v).tracker = c.tracker := by
  unfold Core.setPend; split <;> rfl
@[simp] theorem Core.setPend_nextTag (r : Nat) (v : Bool) : (c.setPend r v).nextTag = c.nextTag := by
  unfold Core.setPend; split <;> rfl
@[simp] theorem Core.setPend_gens (r : Nat) (v : Bool) : (c.setPend r v).gens = c.gens := by
  unfold Core.setPend; split <;> rfl
@[simp] theorem Core.setPend_cr (r : Nat) (v : Bool) : (c.setPend r v).cr = c.cr := by
  unfold Core.setPend; split <;> rfl
@[simp] theorem Core.setPend_crVa (r : Nat) (v : Bool) : (c.setPend r v).crVa = c.crVa := by
  unfold Core.setPend; split <;> rfl
@[simp] theorem Core.setPend_region (r : Nat) (v : Bool) : (c.setPend r v).region = c.region := by
  unfold Core.setPend; split <;> rfl
@[simp] theorem Core.setPend_prio (r : Nat) (v : Bool) : (c.setPend r v).prio = c.prio := by
  unfold Core.setPend; split <;> rfl
@[simp] theorem Core.setPend_since (r : Nat) (v : Bool) : (c.setPend r v).since = c.since := by
  unfold Core.setPend; split <;> rfl
@[simp] theorem Core.setPend_lastRegion (r : Nat) (v : Bool) : (c.setPend r v).lastRegion = c.lastRegion := by
  unfold Core.setPend; split <;> rfl
@[simp] theorem Core.setPend_wake (r : Nat) (v : Bool) : (c.setPend r v).wake = c.wake := by
  unfold Core.setPend; split <;> rfl
@[simp] theorem Core.setPend_qHead (r : Nat) (v : Bool) : (c.setPend r v).qHead = c.qHead := by
  unfold Core.setPend; split <;> rfl
@[simp] theorem Core.setPend_posted (r : Nat) (v : Bool) : (c.setPend r v).posted = c.posted := by
  unfold Core.setPend; split <;> rfl
@[simp] theorem Core.setPend_buf (r : Nat) (v : Bool) : (c.setPend r v).buf = c.buf := by
  unfold Core.setPend; split <;> rfl
@[simp] theorem Core.setPend_hold (r : Nat) (v : Bool) : (c.setPend r v).hold = c.hold := by
  unfold Core.setPend; split <;> rfl
@[simp] theorem Core.setPend_retired (r : Nat) (v : Bool) : (c.setPend r v).retired = c.retired := by
  unfold Core.setPend; split <;> rfl
@[simp] theorem Core.setPend_w0 (r : Nat) (v : Bool) : (c.setPend r v).w0 = c.w0 := by
  unfold Core.setPend; split <;> rfl
@[simp] theorem Core.setPend_desc (r : Nat) (v : Bool) : (c.setPend r v).desc = c.desc := by
  unfold Core.setPend; split <;> rfl
@[simp] theorem Core.setPend_loading (r : Nat) (v : Bool) : (c.setPend r v).loading = c.loading := by
  unfold Core.setPend; split <;> rfl
@[simp] theorem Core.setPend_uc (r : Nat) (v : Bool) : (c.setPend r v).uc = c.uc := by
  unfold Core.setPend; split <;> rfl
@[simp] theorem Core.setPend_trap (r : Nat) (v : Bool) : (c.setPend r v).trap = c.trap := by
  unfold Core.setPend; split <;> rfl
@[simp] theorem Core.setPend_frame (r : Nat) (v : Bool) : (c.setPend r v).frame = c.frame := by
  unfold Core.setPend; split <;> rfl
@[simp] theorem Core.setPend_pfTag (r : Nat) (v : Bool) : (c.setPend r v).pfTag = c.pfTag := by
  unfold Core.setPend; split <;> rfl
@[simp] theorem Core.setPend_frozenAt (r : Nat) (v : Bool) : (c.setPend r v).frozenAt = c.frozenAt := by
  unfold Core.setPend; split <;> rfl
@[simp] theorem Core.setPend_tlb (r : Nat) (v : Bool) : (c.setPend r v).tlb = c.tlb := by
  unfold Core.setPend; split <;> rfl
@[simp] theorem Core.setPend_stlb (r : Nat) (v : Bool) : (c.setPend r v).stlb = c.stlb := by
  unfold Core.setPend; split <;> rfl
@[simp] theorem Core.setPend_locator (r : Nat) (v : Bool) : (c.setPend r v).locator = c.locator := by
  unfold Core.setPend; split <;> rfl
@[simp] theorem Core.setPend_trace (r : Nat) (v : Bool) : (c.setPend r v).trace = c.trace := by
  unfold Core.setPend; split <;> rfl
@[simp] theorem Core.setPend_traceLost (r : Nat) (v : Bool) : (c.setPend r v).traceLost = c.traceLost := by
  unfold Core.setPend; split <;> rfl

@[simp] theorem Core.post_status (f : BitVec 64) : (c.post f).status = c.status := rfl
@[simp] theorem Core.post_call (f : BitVec 64) : (c.post f).call = c.call := rfl
@[simp] theorem Core.post_heldFaults (f : BitVec 64) : (c.post f).heldFaults = c.heldFaults := rfl
@[simp] theorem Core.post_pc (f : BitVec 64) : (c.post f).pc = c.pc := rfl
@[simp] theorem Core.post_regs (f : BitVec 64) : (c.post f).regs = c.regs := rfl
@[simp] theorem Core.post_preds (f : BitVec 64) : (c.post f).preds = c.preds := rfl
@[simp] theorem Core.post_pend (f : BitVec 64) : (c.post f).pend = c.pend := rfl
@[simp] theorem Core.post_ld (f : BitVec 64) : (c.post f).ld = c.ld := rfl
@[simp] theorem Core.post_st (f : BitVec 64) : (c.post f).st = c.st := rfl
@[simp] theorem Core.post_cp (f : BitVec 64) : (c.post f).cp = c.cp := rfl
@[simp] theorem Core.post_tl (f : BitVec 64) : (c.post f).tl = c.tl := rfl
@[simp] theorem Core.post_sched (f : BitVec 64) : (c.post f).sched = c.sched := rfl
@[simp] theorem Core.post_nextIssue (f : BitVec 64) : (c.post f).nextIssue = c.nextIssue := rfl
@[simp] theorem Core.post_stall (f : BitVec 64) : (c.post f).stall = c.stall := rfl
@[simp] theorem Core.post_tried (f : BitVec 64) : (c.post f).tried = c.tried := rfl
@[simp] theorem Core.post_issued (f : BitVec 64) : (c.post f).issued = c.issued := rfl
@[simp] theorem Core.post_waitAt (f : BitVec 64) : (c.post f).waitAt = c.waitAt := rfl
@[simp] theorem Core.post_waitVals (f : BitVec 64) : (c.post f).waitVals = c.waitVals := rfl
@[simp] theorem Core.post_rngCc (f : BitVec 64) : (c.post f).rngCc = c.rngCc := rfl
@[simp] theorem Core.post_rngVe (f : BitVec 64) : (c.post f).rngVe = c.rngVe := rfl
@[simp] theorem Core.post_rngMe (f : BitVec 64) : (c.post f).rngMe = c.rngMe := rfl
@[simp] theorem Core.post_failRec (f : BitVec 64) : (c.post f).failRec = c.failRec := rfl
@[simp] theorem Core.post_imem (f : BitVec 64) : (c.post f).imem = c.imem := rfl
@[simp] theorem Core.post_spad (f : BitVec 64) : (c.post f).spad = c.spad := rfl
@[simp] theorem Core.post_sh (f : BitVec 64) : (c.post f).sh = c.sh := rfl
@[simp] theorem Core.post_hv (f : BitVec 64) : (c.post f).hv = c.hv := rfl
@[simp] theorem Core.post_ba (f : BitVec 64) : (c.post f).ba = c.ba := rfl
@[simp] theorem Core.post_baW8 (f : BitVec 64) : (c.post f).baW8 = c.baW8 := rfl
@[simp] theorem Core.post_ties (f : BitVec 64) : (c.post f).ties = c.ties := rfl
@[simp] theorem Core.post_ve (f : BitVec 64) : (c.post f).ve = c.ve := rfl
@[simp] theorem Core.post_me (f : BitVec 64) : (c.post f).me = c.me := rfl
@[simp] theorem Core.post_hu (f : BitVec 64) : (c.post f).hu = c.hu := rfl
@[simp] theorem Core.post_ch (f : BitVec 64) : (c.post f).ch = c.ch := rfl
@[simp] theorem Core.post_meShadow (f : BitVec 64) : (c.post f).meShadow = c.meShadow := rfl
@[simp] theorem Core.post_meActive (f : BitVec 64) : (c.post f).meActive = c.meActive := rfl
@[simp] theorem Core.post_slots (f : BitVec 64) : (c.post f).slots = c.slots := rfl
@[simp] theorem Core.post_fmtHeld (f : BitVec 64) : (c.post f).fmtHeld = c.fmtHeld := rfl
@[simp] theorem Core.post_meProg (f : BitVec 64) : (c.post f).meProg = c.meProg := rfl
@[simp] theorem Core.post_meFlags (f : BitVec 64) : (c.post f).meFlags = c.meFlags := rfl
@[simp] theorem Core.post_fmtq (f : BitVec 64) : (c.post f).fmtq = c.fmtq := rfl
@[simp] theorem Core.post_win (f : BitVec 64) : (c.post f).win = c.win := rfl
@[simp] theorem Core.post_tiles (f : BitVec 64) : (c.post f).tiles = c.tiles := rfl
@[simp] theorem Core.post_inflight (f : BitVec 64) : (c.post f).inflight = c.inflight := rfl
@[simp] theorem Core.post_sync (f : BitVec 64) : (c.post f).sync = c.sync := rfl
@[simp] theorem Core.post_tracker (f : BitVec 64) : (c.post f).tracker = c.tracker := rfl
@[simp] theorem Core.post_nextTag (f : BitVec 64) : (c.post f).nextTag = c.nextTag := rfl
@[simp] theorem Core.post_gens (f : BitVec 64) : (c.post f).gens = c.gens := rfl
@[simp] theorem Core.post_cr (f : BitVec 64) : (c.post f).cr = c.cr := rfl
@[simp] theorem Core.post_crVa (f : BitVec 64) : (c.post f).crVa = c.crVa := rfl
@[simp] theorem Core.post_region (f : BitVec 64) : (c.post f).region = c.region := rfl
@[simp] theorem Core.post_prio (f : BitVec 64) : (c.post f).prio = c.prio := rfl
@[simp] theorem Core.post_since (f : BitVec 64) : (c.post f).since = c.since := rfl
@[simp] theorem Core.post_lastRegion (f : BitVec 64) : (c.post f).lastRegion = c.lastRegion := rfl
@[simp] theorem Core.post_wake (f : BitVec 64) : (c.post f).wake = c.wake := rfl
@[simp] theorem Core.post_qHead (f : BitVec 64) : (c.post f).qHead = c.qHead := rfl
@[simp] theorem Core.post_buf (f : BitVec 64) : (c.post f).buf = c.buf := rfl
@[simp] theorem Core.post_hold (f : BitVec 64) : (c.post f).hold = c.hold := rfl
@[simp] theorem Core.post_retired (f : BitVec 64) : (c.post f).retired = c.retired := rfl
@[simp] theorem Core.post_w0 (f : BitVec 64) : (c.post f).w0 = c.w0 := rfl
@[simp] theorem Core.post_desc (f : BitVec 64) : (c.post f).desc = c.desc := rfl
@[simp] theorem Core.post_loading (f : BitVec 64) : (c.post f).loading = c.loading := rfl
@[simp] theorem Core.post_uc (f : BitVec 64) : (c.post f).uc = c.uc := rfl
@[simp] theorem Core.post_trap (f : BitVec 64) : (c.post f).trap = c.trap := rfl
@[simp] theorem Core.post_frame (f : BitVec 64) : (c.post f).frame = c.frame := rfl
@[simp] theorem Core.post_pfTag (f : BitVec 64) : (c.post f).pfTag = c.pfTag := rfl
@[simp] theorem Core.post_frozenAt (f : BitVec 64) : (c.post f).frozenAt = c.frozenAt := rfl
@[simp] theorem Core.post_tlb (f : BitVec 64) : (c.post f).tlb = c.tlb := rfl
@[simp] theorem Core.post_stlb (f : BitVec 64) : (c.post f).stlb = c.stlb := rfl
@[simp] theorem Core.post_locator (f : BitVec 64) : (c.post f).locator = c.locator := rfl
@[simp] theorem Core.post_trace (f : BitVec 64) : (c.post f).trace = c.trace := rfl
@[simp] theorem Core.post_traceLost (f : BitVec 64) : (c.post f).traceLost = c.traceLost := rfl

@[simp] theorem Core.post_fstat (f : BitVec 64) : (c.post f).fstat = c.fstat ||| f := rfl

end Sys2Proof.Machine
end

