-- ==== Sys2Proof/Laws/Scalar.lean ====
section
/-! SUPPORT. What an S word that issues leaves behind: one law for each shared operation. -/

namespace Sys2Proof.Machine

/-- A change of the current core alone leaves everything else. -/
theorem Elsewhere.upd (s : State) (f : Core → Core) : Elsewhere s.cur s (s.upd f) where
  rest := rfl
  cores := fun _ h => s.core_upd_ne f h
  bytes := fun _ _ => rfl

/-- A word that issues: everything that it does. `g` takes back what `f` has changed. -/
theorem State.issued_issueS (s : State) (k : Nat) (f g : Core → Core)
    (hs : (f s.me).sched = s.me.sched) (hg : g ((f s.me).keepCtl s.me) = s.me) :
    Issued s (s.issueS k f) k g where
  pc := by simp [State.issueS, State.issueAt]
  interval := by simp [State.issueS, State.issueAt, hs]
  went := by simp [State.issueS, State.issueAt]
  frame := by simpa [State.issueS, State.issueAt, Core.keepCtl] using hg
  elsewhere := by unfold State.issueS State.issueAt; exact Elsewhere.upd s _

/-- The registers after a write. -/
theorem RegTakes.of_regs {s t : State} {d : BitVec 5} {v : Word} (h : t.me.regs = (s.me.setReg d.toNat v).regs) :
    RegTakes s t d v := by
  have e : ∀ r, t.me.reg r = (s.me.setReg d.toNat v).reg r := fun r => by simp [Core.reg, h]
  refine ⟨fun hd => ?_, ?_, fun r hr => ?_⟩
  · rw [e]
    exact Core.reg_setReg_same _ _ (fun h0 => hd (BitVec.eq_of_toNat_eq (by simpa using h0))) d.isLt
  · rw [e]; rfl
  · rw [e]; exact Core.reg_setReg_ne _ _ hr

theorem Core.setReg_back (c : Core) (r : Nat) (v : Word) : { c.setReg r v with regs := c.regs } = c := by
  unfold Core.setReg; split <;> rfl

/-- A word that answers `setD` gives its register (R121, R124). -/
theorem givesReg_of_setD {i : Instr} {s : State} {k : Nat} {d : BitVec 5} {v : Word} (h : exec i s = s.setD k d v) :
    GivesReg i s k d v := by
  refine ⟨_, h, RegTakes.of_regs (by simp [State.issueS, State.issueAt]), ?_⟩
  refine s.issued_issueS k _ _ (by simp) ?_
  unfold Core.setReg; split <;> rfl

/-- The same, for a value that is known to be equal. -/
theorem givesReg_of_eq {i : Instr} {s : State} {k : Nat} {d : BitVec 5} {v w : Word} (h : exec i s = s.setD k d v)
    (e : v = w) : GivesReg i s k d w := e ▸ givesReg_of_setD h

end Sys2Proof.Machine
end

