-- ==== Sys2Proof/Laws/Faults.lean ====
section
/-! SUPPORT. What a bundle that is held, a fault and a transfer of control leave behind: one law for each shared
operation. -/

namespace Sys2Proof.Machine

/-- A change of one core alone leaves everything else. -/
theorem Elsewhere.updCore (s : State) (n : Nat) (f : Core → Core) : Elsewhere n s (s.updCore n f) where
  rest := rfl
  cores := fun m h => by simp [State.updCore, State.core, State.setCore, tabGet_tabSet_ne _ _ _ h]
  bytes := fun _ _ => rfl

/-- A held bundle changes nothing but its own record of why (R20). -/
theorem State.stallS_spec (s : State) (why : StallCause) :
    { (s.stallS why).me with stall := s.me.stall, tried := s.me.tried } = s.me ∧ (s.stallS why).me.stall = why
      ∧ (s.stallS why).me.tried = true ∧ Elsewhere s.cur s (s.stallS why) := by
  refine ⟨by simp [State.stallS], by simp [State.stallS], by simp [State.stallS], Elsewhere.upd s _⟩

/-- A fault of a running core calls for a freeze in this cycle, and nothing else changes (R309). -/
theorem State.raise_running (s : State) (n : Nat) (r : FaultRec) (h : (s.core n).status = .running) :
    (s.raise n r).core n = { s.core n with status := .freezing, call := some (.fault r), frozenAt := s.frameClk }
      ∧ Elsewhere n s (s.raise n r) := by
  refine ⟨?_, Elsewhere.updCore s n _⟩
  simp [State.raise, State.updCore, State.core, State.setCore] at h ⊢
  simp [h]

/-- A fault of a frozen core is held until the resume (R368). -/
theorem State.raise_frozen (s : State) (n : Nat) (r : FaultRec) (h : (s.core n).status = .frozen) :
    (s.raise n r).core n = { s.core n with heldFaults := (s.core n).heldFaults ++ [r] } ∧ Elsewhere n s (s.raise n r) := by
  refine ⟨?_, Elsewhere.updCore s n _⟩
  simp [State.raise, State.updCore, State.core, State.setCore] at h ⊢
  simp [h]

/-- A core without a CR takes no fault. -/
theorem State.raise_idle (s : State) (n : Nat) (r : FaultRec) (h : (s.core n).status = .idle) :
    (s.raise n r).core n = s.core n ∧ Elsewhere n s (s.raise n r) := by
  refine ⟨?_, Elsewhere.updCore s n _⟩
  simp [State.raise, State.updCore, State.core, State.setCore] at h ⊢
  simp [h]

/-- A transfer to an index of the instruction memory (R133). -/
theorem State.jumpTo_spec (s : State) (t : Int) (f g : Core → Core) (h0 : 0 ≤ t) (h1 : t < 8192)
    (hs : (f s.me).sched = s.me.sched) (hg : g ((f s.me).keepCtl s.me) = s.me) :
    ∃ u, s.jumpTo t f = .next u ∧ Jumped s u t.toNat g := by
  refine ⟨_, if_pos ⟨h0, h1⟩, ?_⟩
  exact
    { pc := by simp [State.issueAt], interval := by simp [State.issueAt, hs], went := by simp [State.issueAt]
      frame := by simpa [State.issueAt, Core.keepCtl] using hg
      elsewhere := by unfold State.issueAt; exact Elsewhere.upd s _ }

/-- A transfer to another index is the illegal-instruction fault, and the core keeps its registers and its PC (R133). -/
theorem State.jumpTo_out (s : State) (t : Int) (f : Core → Core) (h : ¬ (0 ≤ t ∧ t < 8192)) :
    s.jumpTo t f = .next (s.sFault .illegalInsn (info0 := s.me.sWord)) := if_neg h

/-- The predicates after a write. -/
theorem PredTakes.of_preds {s t : State} {p : BitVec 3} {v : Bool} (h : t.me.preds = (s.me.setPred p.toNat v).preds) :
    PredTakes s t p v := by
  have e : ∀ k, t.me.pred k = (s.me.setPred p.toNat v).pred k := fun k => by simp [Core.pred, h]
  have hp := p.isLt
  refine ⟨fun h0 => ?_, by simp [Core.pred], fun k hk hne => ?_⟩
  · have : p.toNat ≠ 0 := fun h1 => h0 (BitVec.eq_of_toNat_eq (by simpa using h1))
    rw [e]
    cases v
    · simp [Core.pred, Core.setPred, this]
    · simp [Core.pred, Core.setPred, this]; omega
  · rw [e]
    by_cases h1 : p.toNat = 0
    · simp [Core.pred, Core.setPred, h1]
    · rcases Nat.lt_or_ge k p.toNat with hlt | hge
      · cases v <;> simp [Core.pred, Core.setPred, h1, hk, hlt]
      · have hn : k - p.toNat ≠ 0 := by omega
        have hk' : ¬ k < p.toNat := by omega
        cases v <;> simp [Core.pred, Core.setPred, h1, hk, hn]

end Sys2Proof.Machine
end

