-- ==== Sys2Proof/Laws/Memory.lean ====
section
/-! SUPPORT. Laws of byte memories: a read after a write, and that every memory operation keeps the canonical form. -/

namespace Sys2Proof.Machine

/-! ## Cells -/

theorem cellAt_append (l r : List Host.Cell) (a : Nat) :
    cellAt (l ++ r) a = (cellAt l a).or (cellAt r a) := by
  induction l with
  | nil => simp [cellAt]
  | cons c l ih =>
    obtain ⟨x, b⟩ := c
    simp only [List.cons_append, cellAt]
    split <;> simp [ih]

theorem cellAt_filter (l : List Host.Cell) (p : Host.Cell → Bool) (q : Nat → Bool) (hp : ∀ c, p c = q c.1) (a : Nat) :
    cellAt (l.filter p) a = if q a then cellAt l a else none := by
  induction l with
  | nil => simp [cellAt]
  | cons c l ih =>
    obtain ⟨x, b⟩ := c
    simp only [List.filter_cons, hp]
    by_cases h : q x = true
    · simp only [h, if_true, cellAt]
      split
      · rename_i e; subst e; simp [h]
      · exact ih
    · simp only [Bool.not_eq_true] at h
      simp only [h, Bool.false_eq_true, if_false, cellAt, ih]
      by_cases e : x = a
      · subst e; simp [h]
      · simp [e]

theorem cellAt_runCells (z : Bool) (bs : List Byte) (a x : Nat) :
    cellAt (runCells z a bs) x =
      if a ≤ x ∧ x < a + bs.length then (if z && bs.getD (x - a) 0 == 0 then none else some (bs.getD (x - a) 0))
      else none := by
  induction bs generalizing a with
  | nil => simp [runCells, cellAt]
  | cons b r ih =>
    have key : cellAt (runCells z (a + 1) r) x = if a + 1 ≤ x ∧ x < a + (r.length + 1) then
        (if z && (b :: r).getD (x - a) 0 == 0 then none else some ((b :: r).getD (x - a) 0)) else none := by
      rw [ih (a + 1), show a + 1 + r.length = a + (r.length + 1) by omega]
      by_cases h : a + 1 ≤ x ∧ x < a + (r.length + 1)
      · rw [if_pos h, if_pos h, show x - a = (x - (a + 1)) + 1 by omega, List.getD_cons_succ]
      · rw [if_neg h, if_neg h]
    by_cases hx : x = a
    · subst hx
      have hin : x ≤ x ∧ x < x + (b :: r).length := ⟨Nat.le_refl _, by simp⟩
      rw [if_pos hin]
      simp only [runCells, Nat.sub_self, List.getD_cons_zero]
      split
      · rw [key, if_neg (by omega)]
      · simp [cellAt]
    · have e : (a ≤ x ∧ x < a + (b :: r).length) ↔ (a + 1 ≤ x ∧ x < a + (r.length + 1)) := by
        simp only [List.length_cons]; omega
      simp only [runCells]
      rw [if_congr e rfl rfl]
      split
      · exact key
      · simp only [cellAt, if_neg (Ne.symm hx)]; exact key

theorem cellAt_putCells (l : List Host.Cell) (a : Nat) (bs : List Byte) (x : Nat) :
    cellAt (putCells l a bs) x =
      if a ≤ x ∧ x < a + bs.length then some (bs.getD (x - a) 0) else cellAt l x := by
  simp only [putCells, cellAt_append, cellAt_runCells]
  rw [cellAt_filter l _ (fun y => decide (y < a)) (fun _ => rfl),
    cellAt_filter l _ (fun y => decide (a + bs.length ≤ y)) (fun _ => rfl)]
  by_cases h1 : x < a
  · have h2 : ¬ (a ≤ x ∧ x < a + bs.length) := by omega
    simp only [h1, h2, decide_true, if_true, if_false]
    rw [show decide (a + bs.length ≤ x) = false from decide_eq_false (by omega)]
    simp
  · by_cases h2 : x < a + bs.length
    · simp [h1, h2, Nat.not_lt.1 h1]
    · simp [h1, h2, Nat.not_lt.1 h2]

namespace Memory

/-- A read after a write, byte by byte. -/
theorem rd_wrBytes (m : Memory) (a : Nat) (bs : List Byte) (x : Nat) :
    (m.wrBytes a bs).rd x = if a ≤ x ∧ x < a + bs.length then bs.getD (x - a) 0 else m.rd x := by
  simp only [rd, wrBytes, cellAt_append, cellAt_runCells]
  rw [cellAt_filter m.cells _ (fun y => decide (y < a)) (fun _ => rfl),
    cellAt_filter m.cells _ (fun y => decide (a + bs.length ≤ y)) (fun _ => rfl)]
  by_cases h1 : x < a
  · have h2 : ¬ (a ≤ x ∧ x < a + bs.length) := by omega
    simp only [h1, h2, decide_true, if_true, if_false]
    rw [show decide (a + bs.length ≤ x) = false from decide_eq_false (by omega)]
    simp
  · by_cases h2 : x < a + bs.length
    · have h3 : ¬ (a + bs.length ≤ x) := by omega
      simp only [h1, h2, h3, Nat.not_lt.1 h1, and_self, if_true, decide_false, Bool.false_eq_true, if_false]
      by_cases hz : (m.fill == .zero && bs.getD (x - a) 0 == 0) = true
      · simp only [hz, if_true]
        simp only [Bool.and_eq_true, beq_iff_eq] at hz
        rw [hz.1, hz.2]; rfl
      · simp only [hz]; simp
    · simp [h1, h2, Nat.not_lt.1 h2]

@[simp] theorem fill_wrBytes (m : Memory) (a : Nat) (bs : List Byte) : (m.wrBytes a bs).fill = m.fill := rfl

/-! ## The canonical form -/

theorem rising_mono {l : List Host.Cell} {j k : Nat} (h : risingFrom k l) (hj : j ≤ k) : risingFrom j l := by
  cases l with
  | nil => rfl
  | cons c l =>
    obtain ⟨x, b⟩ := c
    simp only [risingFrom, Bool.and_eq_true, decide_eq_true_eq] at h ⊢
    exact ⟨by omega, h.2⟩

theorem rising_mem {l : List Host.Cell} {k : Nat} (h : risingFrom k l) : ∀ c ∈ l, k ≤ c.1 := by
  induction l generalizing k with
  | nil => simp
  | cons c l ih =>
    obtain ⟨x, b⟩ := c
    simp only [risingFrom, Bool.and_eq_true, decide_eq_true_eq] at h
    intro d hd
    rcases List.mem_cons.1 hd with rfl | hd
    · exact h.1
    · have := ih h.2 d hd; omega

theorem rising_of_le {l : List Host.Cell} {j k : Nat} (h : risingFrom j l) (hk : ∀ c ∈ l, k ≤ c.1) : risingFrom k l := by
  cases l with
  | nil => rfl
  | cons c l =>
    obtain ⟨x, b⟩ := c
    simp only [risingFrom, Bool.and_eq_true, decide_eq_true_eq] at h ⊢
    exact ⟨hk _ (List.mem_cons_self ..), h.2⟩

theorem rising_filter {l : List Host.Cell} {k : Nat} (p : Host.Cell → Bool) (h : risingFrom k l) :
    risingFrom k (l.filter p) := by
  induction l generalizing k with
  | nil => rfl
  | cons c l ih =>
    obtain ⟨x, b⟩ := c
    simp only [risingFrom, Bool.and_eq_true, decide_eq_true_eq] at h
    simp only [List.filter_cons]
    split
    · simp only [risingFrom, Bool.and_eq_true, decide_eq_true_eq]
      exact ⟨h.1, ih h.2⟩
    · exact rising_mono (ih h.2) (by omega)

theorem rising_append {l r : List Host.Cell} {k m : Nat} (hl : risingFrom k l) (hm : ∀ c ∈ l, c.1 < m)
    (hr : risingFrom m r) (hk : k ≤ m) : risingFrom k (l ++ r) := by
  induction l generalizing k with
  | nil => exact rising_mono hr hk
  | cons c l ih =>
    obtain ⟨x, b⟩ := c
    simp only [List.cons_append, risingFrom, Bool.and_eq_true, decide_eq_true_eq] at hl ⊢
    have hx : x < m := hm (x, b) (List.mem_cons_self ..)
    exact ⟨hl.1, ih hl.2 (fun d hd => hm d (List.mem_cons_of_mem _ hd)) hx⟩

theorem rising_runCells (z : Bool) (a : Nat) (bs : List Byte) : risingFrom a (runCells z a bs) := by
  induction bs generalizing a with
  | nil => rfl
  | cons b r ih =>
    simp only [runCells]
    split
    · exact rising_mono (ih (a + 1)) (by omega)
    · simp [risingFrom, ih]

theorem mem_runCells {z : Bool} {a : Nat} {bs : List Byte} {c : Host.Cell} (h : c ∈ runCells z a bs) :
    a ≤ c.1 ∧ c.1 < a + bs.length ∧ (z = true → c.2 ≠ 0) := by
  induction bs generalizing a with
  | nil => simp [runCells] at h
  | cons b r ih =>
    simp only [runCells] at h
    split at h
    · have h' := ih h; simp only [List.length_cons]; exact ⟨by omega, by omega, h'.2.2⟩
    · rename_i hz
      rcases List.mem_cons.1 h with rfl | h
      · refine ⟨Nat.le_refl _, by simp, fun hz' hb => hz ?_⟩
        simp [hz', show b = 0 from hb]
      · have := ih h; simp only [List.length_cons]; exact ⟨by omega, by omega, this.2.2⟩

/-- The addresses of the cells after a write rise. -/
theorem rising_write (l : List Host.Cell) (z : Bool) (a : Nat) (bs : List Byte) (h : risingFrom 0 l) :
    risingFrom 0 (l.filter (fun c => c.1 < a) ++ runCells z a bs ++ l.filter (fun c => a + bs.length ≤ c.1)) := by
  rw [List.append_assoc]
  refine rising_append (m := a) (rising_filter _ h) (fun c hc => by simpa using (List.mem_filter.1 hc).2) ?_ (by omega)
  refine rising_append (m := a + bs.length) (rising_runCells z a bs) (fun c hc => (mem_runCells hc).2.1) ?_ (by omega)
  exact rising_of_le (rising_filter _ h) fun c hc => by simpa using (List.mem_filter.1 hc).2

/-- A write keeps the canonical form. -/
theorem wf_wrBytes (m : Memory) (a : Nat) (bs : List Byte) (h : m.wf) : (m.wrBytes a bs).wf := by
  simp only [wf, Bool.and_eq_true, Bool.or_eq_true] at h ⊢
  refine ⟨rising_write m.cells _ a bs h.1, ?_⟩
  rcases h.2 with h2 | h2
  · exact .inl h2
  · by_cases hz : m.fill = .zero
    · right
      simp only [wrBytes, List.all_eq_true, List.mem_append] at h2 ⊢
      rintro c ((hc | hc) | hc)
      · exact h2 c (List.mem_filter.1 hc).1
      · simpa using (mem_runCells hc).2.2 (by simp [hz])
      · exact h2 c (List.mem_filter.1 hc).1
    · left; simpa [wrBytes] using hz

theorem wf_wr (m : Memory) (a : Nat) (b : Byte) (h : m.wf) : (m.wr a b).wf := wf_wrBytes m a [b] h

theorem wf_wrN (m : Memory) (a n v : Nat) (h : m.wf) : (m.wrN a n v).wf := wf_wrBytes m a _ h

theorem wf_empty : Memory.empty.wf := rfl

theorem wf_wrRuns {α : Type} (l : List α) (f : α → Nat) (g : α → List Byte) (m : Memory) (h : m.wf) :
    (l.foldl (fun m x => m.wrBytes (f x) (g x)) m).wf := by
  induction l generalizing m with
  | nil => exact h
  | cons x r ih => exact ih _ (wf_wrBytes _ _ _ h)

/-! ## Reads -/

theorem runBytes_eq (fill : Fill) (l : List Host.Cell) (a n : Nat) (h : risingFrom a l) :
    runBytes fill l a n = (List.range n).map fun k =>
      match cellAt l (a + k) with
      | some b => b
      | none => fill.byte (a + k) := by
  induction n generalizing l a with
  | zero => cases l <;> simp [runBytes]
  | succ n ih =>
    rw [List.range_succ_eq_map, List.map_cons, List.map_map]
    cases l with
    | nil =>
      simp only [runBytes, cellAt]
      rw [ih [] (a + 1) rfl]
      simp [cellAt, Function.comp_def, Nat.add_comm, Nat.add_left_comm]
    | cons c r =>
      obtain ⟨x, b⟩ := c
      simp only [risingFrom, Bool.and_eq_true, decide_eq_true_eq] at h
      simp only [runBytes, Nat.add_zero]
      by_cases hx : x = a
      · subst hx
        simp only [if_true, cellAt]
        rw [ih r (x + 1) h.2]
        congr 1
        refine List.map_congr_left fun k _ => ?_
        simp only [Function.comp_def]
        rw [if_neg (by omega), show x + 1 + k = x + (k + 1) by omega]
      · simp only [if_neg hx]
        have hr : risingFrom (a + 1) ((x, b) :: r) := by
          simp only [risingFrom, Bool.and_eq_true, decide_eq_true_eq]; exact ⟨by omega, h.2⟩
        rw [ih _ (a + 1) hr]
        have h0 : cellAt ((x, b) :: r) a = none := by
          have : ∀ (l : List Host.Cell) (k : Nat), risingFrom k l → a < k → cellAt l a = none := by
            intro l
            induction l with
            | nil => intros; rfl
            | cons c l ih2 =>
              obtain ⟨y, e⟩ := c
              intro k hk ha
              simp only [risingFrom, Bool.and_eq_true, decide_eq_true_eq] at hk
              simp only [cellAt]
              rw [if_neg (by omega)]
              exact ih2 (y + 1) hk.2 (by omega)
          exact this _ (a + 1) hr (by omega)
        simp only [h0]
        congr 1
        refine List.map_congr_left fun k _ => ?_
        simp only [Function.comp_def]
        rw [show a + 1 + k = a + (k + 1) by omega]

theorem cellAt_inRange (l : List Host.Cell) (a n x : Nat) (h : a ≤ x ∧ x < a + n) :
    cellAt (inRange l a n) x = cellAt l x := by
  rw [inRange, cellAt_filter l _ (fun y => decide (a ≤ y ∧ y < a + n)) (fun _ => rfl)]
  simp [h]

/-- A read of bytes, byte by byte. -/
theorem rdBytes_eq (m : Memory) (a n : Nat) : m.rdBytes a n = (List.range n).map fun k => m.rd (a + k) := by
  simp only [rdBytes]
  split
  · rename_i h
    rw [runBytes_eq _ _ _ _ h]
    refine List.map_congr_left fun k hk => ?_
    rw [cellAt_inRange _ _ _ _ ⟨by omega, by have := List.mem_range.1 hk; omega⟩]
    rfl
  · rfl

@[simp] theorem length_rdBytes (m : Memory) (a n : Nat) : (m.rdBytes a n).length = n := by simp [rdBytes_eq]

end Memory

/-! ## The lines of the L2 -/

theorem LineSt.length_piece (l : LineSt) (off n : Nat) : (l.piece off n).length = n := by
  simp [piece]

theorem LineSt.getD_piece (l : LineSt) (off n i : Nat) (h : i < n) : (l.piece off n).getD i 0 = l.data.getD (off + i) 0 := by
  simp only [piece, List.getD_eq_getElem?_getD]
  rw [List.getElem?_take_of_lt h, List.getElem?_append]
  split
  · simp [List.getElem?_drop]
  · rename_i h1
    have : l.data[off + i]? = none := by
      rw [List.getElem?_eq_none_iff]; simp only [List.length_drop] at h1; omega
    rw [this, List.getElem?_replicate]
    split <;> rfl

/-- The bytes of a line after a write into it. -/
theorem LineSt.getD_put (l : LineSt) (off : Nat) (bs : List Byte) (i : Nat) (h : off + bs.length ≤ 128) (hi : i < 128) :
    (l.put off bs).data.getD i 0 =
      if off ≤ i ∧ i < off + bs.length then bs.getD (i - off) 0 else l.data.getD i 0 := by
  simp only [put]
  by_cases h1 : i < off
  · rw [if_neg (by omega), List.append_assoc, List.getD_append _ _ _ _ (by rw [length_piece]; exact h1),
      getD_piece _ _ _ _ h1, Nat.zero_add]
  · by_cases h2 : i < off + bs.length
    · rw [if_pos ⟨by omega, h2⟩, List.append_assoc, List.getD_append_right _ _ _ _ (by rw [length_piece]; omega),
        length_piece, List.getD_append _ _ _ _ (by omega)]
    · rw [if_neg (by omega), List.getD_append_right _ _ _ _ (by rw [List.length_append, length_piece]; omega),
        List.length_append, length_piece, getD_piece _ _ _ _ (by omega)]
      congr 1; omega

theorem LineSt.at_iff (l : LineSt) (dom line : Nat) : l.at dom line = true ↔ l.dom = dom ∧ l.line = line := by
  simp [LineSt.at]

theorem State.line?_at {s : State} {dom line : Nat} {l : LineSt} (h : s.line? dom line = some l) :
    l.dom = dom ∧ l.line = line := (l.at_iff dom line).1 (by simpa using List.find?_some (p := fun l : LineSt => l.at dom line) h)

/-- The lines after a change of one of them that keeps its place. -/
theorem State.line?_updLine (s : State) (dom line : Nat) (f : LineSt → LineSt) (hf : ∀ l, l.at dom line → (f l).at dom line)
    (q x : Nat) :
    (s.updLine dom line f).line? q x = if q = dom ∧ x = line then (s.line? q x).map f else s.line? q x := by
  simp only [updLine, line?]
  induction s.lines with
  | nil => simp [listUpd1]
  | cons l r ih =>
    simp only [listUpd1, List.find?_cons]
    by_cases hl : l.at dom line = true
    · have hfl := (LineSt.at_iff _ _ _).1 (hf l hl)
      have hll := (l.at_iff dom line).1 hl
      simp only [hl, if_true, List.find?_cons]
      by_cases hq : q = dom ∧ x = line
      · simp [hq, hl, hf l hl]
      · have h1 : (f l).at q x = false := by
          rw [Bool.eq_false_iff]; intro h; have := ((f l).at_iff q x).1 h; exact hq ⟨by omega, by omega⟩
        have h2 : l.at q x = false := by
          rw [Bool.eq_false_iff]; intro h; have := (l.at_iff q x).1 h; exact hq ⟨by omega, by omega⟩
        simp [h1, h2, hq]
    · simp only [hl, Bool.false_eq_true, if_false, List.find?_cons]
      by_cases hq : l.at q x = true
      · have : ¬ (q = dom ∧ x = line) := by rintro ⟨rfl, rfl⟩; exact hl hq
        simp [hq, this]
      · simp only [hq]; exact ih

/-- A change of a line that keeps its bytes. -/
theorem State.phByte_updLine_same (s : State) (dom line : Nat) (f : LineSt → LineSt)
    (hf : ∀ l, (f l).dom = l.dom ∧ (f l).line = l.line ∧ (f l).data = l.data) (q x : Nat) :
    (s.updLine dom line f).phByte q x = s.phByte q x := by
  have hp : ∀ l : LineSt, l.at dom line → (f l).at dom line := fun l h => by
    have := (l.at_iff _ _).1 h; exact ((f l).at_iff _ _).2 ⟨by rw [(hf l).1]; exact this.1, by rw [(hf l).2.1]; exact this.2⟩
  unfold phByte
  rw [s.line?_updLine dom line f hp]
  by_cases hq : q = dom ∧ x / 128 = line
  · rw [if_pos hq]
    cases s.line? q (x / 128) with
    | none => rfl
    | some l => simp only [Option.map_some, (hf l).2.2]
  · rw [if_neg hq]; rfl

theorem Memory.getD_rdBytes (m : Memory) (a n i : Nat) (h : i < n) : (m.rdBytes a n).getD i 0 = m.rd (a + i) := by
  rw [Memory.rdBytes_eq, List.getD_eq_getElem?_getD]; simp [h]

/-- A copy that takes a line while there is room for it: every byte reads as before (R78). -/
theorem State.phByte_fill (s : State) (dom line : Nat) (h : s.room dom (128 * line) = true) (q x : Nat) :
    (s.fill dom line).phByte q x = s.phByte q x := by
  have hd : 128 * line / 128 = line := by omega
  unfold fill
  split
  · rfl
  · rename_i hn
    have hw : s.hasWay (homeSlice dom (128 * line)) line = true := by
      simpa [room, hd, hn] using h
    simp only [way, hw, if_true]
    have hnone : s.line? dom line = none := by simpa using hn
    simp only [phByte, line?, List.find?_append]
    cases hf : s.lines.find? (fun l => l.at q (x / 128)) with
    | some l => rfl
    | none =>
      simp only [Option.none_or, List.find?_cons, LineSt.at]
      by_cases hq : dom = q ∧ line = x / 128
      · obtain ⟨rfl, rfl⟩ := hq
        simp only [beq_self_eq_true, Bool.and_self]
        rw [Memory.getD_rdBytes _ _ _ _ (Nat.mod_lt _ (by omega))]
        congr 1; omega
      · have : (dom == q && line == x / 128) = false := by
          rw [Bool.eq_false_iff]; intro h; simp at h; exact hq h
        simp [this]

/-- With room, a copy has a line that it has taken. -/
theorem State.line?_fill (s : State) (dom line : Nat) (h : s.room dom (128 * line) = true) :
    ((s.fill dom line).line? dom line).isSome = true := by
  have hd : 128 * line / 128 = line := by omega
  unfold fill
  split
  · assumption
  · rename_i hn
    have hw : s.hasWay (homeSlice dom (128 * line)) line = true := by simpa [room, hd, hn] using h
    simp [way, hw, line?, List.find?_append, LineSt.at]

/-- A write within one line for which there is room (R77). -/
theorem State.phByte_wrLine (s : State) (dom pa : Nat) (bs : List Byte) (h : s.room dom pa = true)
    (hb : pa % 128 + bs.length ≤ 128) (q x : Nat) :
    (s.wrLine dom pa bs).phByte q x =
      if q = dom ∧ pa ≤ x ∧ x < pa + bs.length then bs.getD (x - pa) 0 else s.phByte q x := by
  have hr : s.room dom (128 * (pa / 128)) = true := by
    simpa [room, show 128 * (pa / 128) / 128 = pa / 128 by omega] using h
  have hp : ∀ l : LineSt, l.at dom (pa / 128) → (l.put (pa % 128) bs).at dom (pa / 128) := fun l h => h
  have hfill := s.phByte_fill dom (pa / 128) hr q x
  have hsome := s.line?_fill dom (pa / 128) hr
  unfold wrLine
  rw [← hfill]
  generalize s.fill dom (pa / 128) = u at hsome
  unfold phByte
  rw [u.line?_updLine _ _ _ hp]
  by_cases hq : q = dom ∧ x / 128 = pa / 128
  · obtain ⟨rfl, hx⟩ := hq
    obtain ⟨l, hl⟩ := Option.isSome_iff_exists.1 hsome
    simp only [hx, hl, and_self, if_true, Option.map_some]
    rw [l.getD_put _ _ _ hb (Nat.mod_lt _ (by omega))]
    have e : x = 128 * (pa / 128) + x % 128 := by omega
    have e2 : pa = 128 * (pa / 128) + pa % 128 := by omega
    by_cases hin : pa ≤ x ∧ x < pa + bs.length
    · rw [if_pos (by omega), if_pos ⟨trivial, hin⟩]; congr 1; omega
    · rw [if_neg (by omega), if_neg (fun h => hin h.2)]
  · rw [if_neg hq, if_neg (fun h => hq ⟨h.1, by have := h.2.1; have := h.2.2; omega⟩)]
    rfl

theorem pieces_one (pa n f : Nat) (h0 : 0 < n) (h : pa % 128 + n ≤ 128) : pieces 128 (f + 2) pa n = [(pa, n)] := by
  have hm : Nat.min n (128 - pa % 128) = n := Nat.min_eq_left (by omega)
  have h1 : pieces 128 (f + 1) (pa + n) (n - n) = [] := by rw [Nat.sub_self]; simp [pieces]
  show (if n = 0 then [] else _) = _
  rw [if_neg (by omega)]
  simp only [hm, h1]

/-- The same for a write of a domain that stays within a line. -/
theorem State.phByte_phWrite (s : State) (dom pa : Nat) (bs : List Byte) (h : s.room dom pa = true)
    (hb : pa % 128 + bs.length ≤ 128) (q x : Nat) :
    (s.phWrite dom pa bs).phByte q x =
      if q = dom ∧ pa ≤ x ∧ x < pa + bs.length then bs.getD (x - pa) 0 else s.phByte q x := by
  unfold phWrite
  rcases Nat.eq_zero_or_pos bs.length with h0 | h0
  · rw [List.length_eq_zero_iff] at h0; subst h0
    rw [if_neg (by simp only [List.length_nil]; omega)]
    simp [pieces, wrLines]
  · rw [pieces_one _ _ _ h0 hb]
    simp only [wrLines, List.take_length]
    exact s.phByte_wrLine dom pa bs h hb q x

theorem State.lineIn_one (s : State) (dom pa : Nat) : s.lineIn dom pa 1 = (s.line? dom (pa / 128)).isSome := by
  rw [Bool.eq_iff_iff]
  unfold lineIn line?
  rw [List.find?_isSome, List.any_eq_true]
  constructor <;> rintro ⟨l, hl, h⟩ <;> refine ⟨l, hl, ?_⟩ <;> simp [LineSt.at] at h ⊢ <;> omega

/-- A read of one byte. -/
@[simp] theorem State.phRead_one (s : State) (dom pa : Nat) : s.phRead dom pa 1 = [s.phByte dom pa] := by
  unfold phRead phByte
  rw [s.lineIn_one]
  cases hl : s.line? dom (pa / 128) with
  | none => simp [Memory.rdBytes_eq]
  | some l =>
    have h := Nat.mod_lt pa (show 0 < 128 by omega)
    have hp : pieces 128 (1 / 128 + 2) pa 1 = [(pa, 1)] := pieces_one pa 1 0 (by omega) (by omega)
    simp only [Option.isSome_some, if_true, hp, List.map_cons, List.map_nil, List.flatten_cons, List.flatten_nil,
      List.append_nil, linePiece, hl]
    have hlen := l.length_piece (pa % 128) 1
    have hg := l.getD_piece (pa % 128) 1 0 (by omega)
    obtain ⟨b, hb⟩ := List.length_eq_one_iff.1 hlen
    rw [hb] at hg ⊢
    simpa using hg

/-! ## The canonical form of memory through every operation of the L2 -/

theorem State.wf_evict (s : State) (dom line : Nat) (h : s.mem.wf) : (s.evict dom line).mem.wf := by
  unfold evict
  split
  · exact h
  · dsimp only
    split
    · exact h
    · exact Memory.wf_wrBytes _ _ _ h

theorem State.wf_way (s : State) (slice line : Nat) (h : s.mem.wf) : (s.way slice line).mem.wf := by
  unfold way
  split
  · exact h
  · dsimp only
    split
    · exact State.wf_evict _ _ _ h
    · exact h

theorem State.wf_fill (s : State) (dom line : Nat) (h : s.mem.wf) : (s.fill dom line).mem.wf := by
  unfold fill
  split
  · exact h
  · exact s.wf_way _ _ h

theorem State.wf_wrLines (dom : Nat) (l : List (Nat × Nat)) (bs : List Byte) (s : State) (h : s.mem.wf) :
    (wrLines dom l bs s).mem.wf := by
  induction l generalizing bs s with
  | nil => exact h
  | cons x r ih => exact ih _ _ (s.wf_fill _ _ h)

/-- Physical memory keeps its canonical form through every write of a domain. -/
theorem State.wf_phWrite (s : State) (dom pa : Nat) (bs : List Byte) (h : s.mem.wf) : (s.phWrite dom pa bs).mem.wf :=
  State.wf_wrLines _ _ _ _ h

/-- So does writing back and dropping a copy. -/
theorem State.wf_dropCopy (s : State) (dom pa n : Nat) (h : s.mem.wf) : (s.dropCopy dom pa n).mem.wf := by
  unfold dropCopy
  generalize s.lines.filter _ = ls
  induction ls generalizing s with
  | nil => exact h
  | cons l r ih => exact ih _ (s.wf_evict _ _ h)

theorem State.wf_dropAll (s : State) (pa n : Nat) (h : s.mem.wf) : (s.dropAll pa n).mem.wf :=
  State.wf_dropCopy _ _ _ _ (State.wf_dropCopy _ _ _ _ (State.wf_dropCopy _ _ _ _ (State.wf_dropCopy _ _ _ _ h)))

/-- Serving an access from a line changes memory only by making room for the line. -/
theorem State.mem_touchLine (s : State) (core dom pa : Nat) (wr : Bool) :
    (s.touchLine core dom pa wr).mem = (s.fill dom (pa / 128)).mem := by
  unfold touchLine
  dsimp only
  split
  · rfl
  · split_ifs <;> rfl

theorem State.wf_touchLine (s : State) (core dom pa : Nat) (wr : Bool) (h : s.mem.wf) :
    (s.touchLine core dom pa wr).mem.wf := by
  rw [s.mem_touchLine]; exact s.wf_fill _ _ h

theorem State.wf_reset : State.reset.mem.wf := rfl

end Sys2Proof.Machine
end

