-- ==== Sys2Proof/Laws/PerInstr.lean ====
section
/-! SUPPORT. A law of every instruction: its word, and the H word of a long form, fit in 32 bits (R95, R101). An event
has no word, and its encoding is 0. -/

namespace Sys2Proof.Laws

/-- The words of an instruction fit in their slots, whatever its operands. -/
def WordFits.Statement (i : Instr) : Prop := encode i < 2 ^ 32 ∧ encodeHi i < 2 ^ 32

/-! ### The parts of a word -/

theorem src_code_lt (a : Src) : a.code < 128 := by
  cases a with
  | reg r => have := r.isLt; simp [Src.code]; omega
  | const k => have := k.isLt; simp [Src.code]; omega

theorem bits_lt (w lo n : Nat) : bitsOf w lo n < 2 ^ n := by
  unfold bitsOf
  exact Nat.mod_lt _ (Nat.two_pow_pos n)

theorem bool_lt (b : Bool) : b.toNat < 2 := by cases b <;> decide

theorem scope_lt (s : Scope) : s.code < 4 := by cases s <;> decide

theorem rmode_lt (r : RMode) : r.code < 8 := by cases r <;> decide

theorem cond_lt (c : Cond) : c.code < 8 := by cases c <;> decide

theorem fcond_lt (c : FCond) : c.code < 8 := by cases c <;> decide

theorem trans_lt (c : Trans) : c.code < 16 := by cases c <;> decide

theorem enc_r_lt {op d a b fn : Nat} (h : op < 64) (hd : d < 32) (ha : a < 128) (hb : b < 128) (hf : fn < 128) :
    Enc.r op d a b fn < 2 ^ 32 := by unfold Enc.r; omega

theorem enc_i_lt {op d a imm : Nat} (h : op < 64) (hd : d < 32) (ha : a < 128) (hi : imm < 2 ^ 14) :
    Enc.i op d a imm < 2 ^ 32 := by unfold Enc.i; omega

theorem enc_m_lt {op d base off sz : Nat} {sp : Bool} (h : op < 64) (hd : d < 32) (hb : base < 32) (ho : off < 2 ^ 13)
    (hs : sz < 4) : Enc.m op d base off sz sp < 2 ^ 32 := by have := bool_lt sp; unfold Enc.m; omega

theorem enc_b_lt {op p off : Nat} {n : Bool} (h : op < 64) (hp : p < 8) (ho : off < 2 ^ 19) : Enc.b op p n off < 2 ^ 32 := by
  have := bool_lt n; unfold Enc.b; omega

theorem enc_v_lt {op d a b c rm fn : Nat} (h : op < 64) (hd : d < 16) (ha : a < 16) (hb : b < 16) (hc : c < 16) (hr : rm < 8)
    (hf : fn < 128) : Enc.v op d a b c rm fn < 2 ^ 32 := by unfold Enc.v; omega

theorem enc_vs_lt {op d a q rm fn : Nat} (h : op < 64) (hd : d < 16) (ha : a < 16) (hq : q < 128) (hr : rm < 16)
    (hf : fn < 128) : Enc.vs op d a q rm fn < 2 ^ 32 := by unfold Enc.vs; omega

theorem enc_e_lt {op ch e : Nat} (h : op < 64) (hc : ch < 8) (he : e < 2 ^ 12) : Enc.e op ch e < 2 ^ 32 := by unfold Enc.e; omega

theorem enc_xt_lt {op ch a b sc fn : Nat} (h : op < 64) (hc : ch < 8) (ha : a < 128) (hb : b < 128) (hs : sc < 4)
    (hf : fn < 128) : Enc.xt op ch a b sc fn < 2 ^ 32 := by unfold Enc.xt; omega

theorem enc_xm_lt {op d a b m q fn : Nat} (h : op < 64) (hd : d < 16) (ha : a < 16) (hb : b < 16) (hm : m < 4) (hq : q < 128)
    (hf : fn < 32) : Enc.xm op d a b m q fn < 2 ^ 32 := by unfold Enc.xm; omega

theorem enc_h_lt {op d a b q fn : Nat} (h : op < 64) (hd : d < 32) (ha : a < 16) (hb : b < 16) (hq : q < 128)
    (hf : fn < 64) : Enc.h op d a b q fn < 2 ^ 32 := by unfold Enc.h; omega

theorem enc_hi_lt {op d a imm : Nat} (h : op < 64) (hd : d < 32) (ha : a < 16) (hi : imm < 2 ^ 12) :
    Enc.hi op d a imm < 2 ^ 32 := by unfold Enc.hi; omega

/-! ### Every instruction -/

theorem WordFits.nop : WordFits.Statement .nop := by
  exact ⟨by decide, by decide⟩

theorem WordFits.meNop : WordFits.Statement .meNop := by
  exact ⟨by decide, by decide⟩

theorem WordFits.add (d : BitVec 5) (a : Src) (b : Src) : WordFits.Statement (.add d a b) := by
  have h0 := d.isLt
  have h1 := src_code_lt a
  have h2 := src_code_lt b
  exact ⟨enc_r_lt (by omega) (by omega) (by omega) (by omega) (by omega), Nat.two_pow_pos 32⟩

theorem WordFits.sub (d : BitVec 5) (a : Src) (b : Src) : WordFits.Statement (.sub d a b) := by
  have h0 := d.isLt
  have h1 := src_code_lt a
  have h2 := src_code_lt b
  exact ⟨enc_r_lt (by omega) (by omega) (by omega) (by omega) (by omega), Nat.two_pow_pos 32⟩

theorem WordFits.mul (d : BitVec 5) (a : Src) (b : Src) : WordFits.Statement (.mul d a b) := by
  have h0 := d.isLt
  have h1 := src_code_lt a
  have h2 := src_code_lt b
  exact ⟨enc_r_lt (by omega) (by omega) (by omega) (by omega) (by omega), Nat.two_pow_pos 32⟩

theorem WordFits.mulh (d : BitVec 5) (a : Src) (b : Src) : WordFits.Statement (.mulh d a b) := by
  have h0 := d.isLt
  have h1 := src_code_lt a
  have h2 := src_code_lt b
  exact ⟨enc_r_lt (by omega) (by omega) (by omega) (by omega) (by omega), Nat.two_pow_pos 32⟩

theorem WordFits.mulhU (d : BitVec 5) (a : Src) (b : Src) : WordFits.Statement (.mulhU d a b) := by
  have h0 := d.isLt
  have h1 := src_code_lt a
  have h2 := src_code_lt b
  exact ⟨enc_r_lt (by omega) (by omega) (by omega) (by omega) (by omega), Nat.two_pow_pos 32⟩

theorem WordFits.div (d : BitVec 5) (a : Src) (b : Src) : WordFits.Statement (.div d a b) := by
  have h0 := d.isLt
  have h1 := src_code_lt a
  have h2 := src_code_lt b
  exact ⟨enc_r_lt (by omega) (by omega) (by omega) (by omega) (by omega), Nat.two_pow_pos 32⟩

theorem WordFits.divU (d : BitVec 5) (a : Src) (b : Src) : WordFits.Statement (.divU d a b) := by
  have h0 := d.isLt
  have h1 := src_code_lt a
  have h2 := src_code_lt b
  exact ⟨enc_r_lt (by omega) (by omega) (by omega) (by omega) (by omega), Nat.two_pow_pos 32⟩

theorem WordFits.rem (d : BitVec 5) (a : Src) (b : Src) : WordFits.Statement (.rem d a b) := by
  have h0 := d.isLt
  have h1 := src_code_lt a
  have h2 := src_code_lt b
  exact ⟨enc_r_lt (by omega) (by omega) (by omega) (by omega) (by omega), Nat.two_pow_pos 32⟩

theorem WordFits.remU (d : BitVec 5) (a : Src) (b : Src) : WordFits.Statement (.remU d a b) := by
  have h0 := d.isLt
  have h1 := src_code_lt a
  have h2 := src_code_lt b
  exact ⟨enc_r_lt (by omega) (by omega) (by omega) (by omega) (by omega), Nat.two_pow_pos 32⟩

theorem WordFits.and (d : BitVec 5) (a : Src) (b : Src) : WordFits.Statement (.and d a b) := by
  have h0 := d.isLt
  have h1 := src_code_lt a
  have h2 := src_code_lt b
  exact ⟨enc_r_lt (by omega) (by omega) (by omega) (by omega) (by omega), Nat.two_pow_pos 32⟩

theorem WordFits.or (d : BitVec 5) (a : Src) (b : Src) : WordFits.Statement (.or d a b) := by
  have h0 := d.isLt
  have h1 := src_code_lt a
  have h2 := src_code_lt b
  exact ⟨enc_r_lt (by omega) (by omega) (by omega) (by omega) (by omega), Nat.two_pow_pos 32⟩

theorem WordFits.xor (d : BitVec 5) (a : Src) (b : Src) : WordFits.Statement (.xor d a b) := by
  have h0 := d.isLt
  have h1 := src_code_lt a
  have h2 := src_code_lt b
  exact ⟨enc_r_lt (by omega) (by omega) (by omega) (by omega) (by omega), Nat.two_pow_pos 32⟩

theorem WordFits.andn (d : BitVec 5) (a : Src) (b : Src) : WordFits.Statement (.andn d a b) := by
  have h0 := d.isLt
  have h1 := src_code_lt a
  have h2 := src_code_lt b
  exact ⟨enc_r_lt (by omega) (by omega) (by omega) (by omega) (by omega), Nat.two_pow_pos 32⟩

theorem WordFits.shl (d : BitVec 5) (a : Src) (b : Src) : WordFits.Statement (.shl d a b) := by
  have h0 := d.isLt
  have h1 := src_code_lt a
  have h2 := src_code_lt b
  exact ⟨enc_r_lt (by omega) (by omega) (by omega) (by omega) (by omega), Nat.two_pow_pos 32⟩

theorem WordFits.shr (d : BitVec 5) (a : Src) (b : Src) : WordFits.Statement (.shr d a b) := by
  have h0 := d.isLt
  have h1 := src_code_lt a
  have h2 := src_code_lt b
  exact ⟨enc_r_lt (by omega) (by omega) (by omega) (by omega) (by omega), Nat.two_pow_pos 32⟩

theorem WordFits.sra (d : BitVec 5) (a : Src) (b : Src) : WordFits.Statement (.sra d a b) := by
  have h0 := d.isLt
  have h1 := src_code_lt a
  have h2 := src_code_lt b
  exact ⟨enc_r_lt (by omega) (by omega) (by omega) (by omega) (by omega), Nat.two_pow_pos 32⟩

theorem WordFits.rot (d : BitVec 5) (a : Src) (b : Src) : WordFits.Statement (.rot d a b) := by
  have h0 := d.isLt
  have h1 := src_code_lt a
  have h2 := src_code_lt b
  exact ⟨enc_r_lt (by omega) (by omega) (by omega) (by omega) (by omega), Nat.two_pow_pos 32⟩

theorem WordFits.min (d : BitVec 5) (a : Src) (b : Src) : WordFits.Statement (.min d a b) := by
  have h0 := d.isLt
  have h1 := src_code_lt a
  have h2 := src_code_lt b
  exact ⟨enc_r_lt (by omega) (by omega) (by omega) (by omega) (by omega), Nat.two_pow_pos 32⟩

theorem WordFits.minU (d : BitVec 5) (a : Src) (b : Src) : WordFits.Statement (.minU d a b) := by
  have h0 := d.isLt
  have h1 := src_code_lt a
  have h2 := src_code_lt b
  exact ⟨enc_r_lt (by omega) (by omega) (by omega) (by omega) (by omega), Nat.two_pow_pos 32⟩

theorem WordFits.max (d : BitVec 5) (a : Src) (b : Src) : WordFits.Statement (.max d a b) := by
  have h0 := d.isLt
  have h1 := src_code_lt a
  have h2 := src_code_lt b
  exact ⟨enc_r_lt (by omega) (by omega) (by omega) (by omega) (by omega), Nat.two_pow_pos 32⟩

theorem WordFits.maxU (d : BitVec 5) (a : Src) (b : Src) : WordFits.Statement (.maxU d a b) := by
  have h0 := d.isLt
  have h1 := src_code_lt a
  have h2 := src_code_lt b
  exact ⟨enc_r_lt (by omega) (by omega) (by omega) (by omega) (by omega), Nat.two_pow_pos 32⟩

theorem WordFits.clz (d : BitVec 5) (a : Src) : WordFits.Statement (.clz d a) := by
  have h0 := d.isLt
  have h1 := src_code_lt a
  exact ⟨enc_r_lt (by omega) (by omega) (by omega) (by omega) (by omega), Nat.two_pow_pos 32⟩

theorem WordFits.popc (d : BitVec 5) (a : Src) : WordFits.Statement (.popc d a) := by
  have h0 := d.isLt
  have h1 := src_code_lt a
  exact ⟨enc_r_lt (by omega) (by omega) (by omega) (by omega) (by omega), Nat.two_pow_pos 32⟩

theorem WordFits.sel (d : BitVec 5) (a : Src) (b : Src) (p : BitVec 3) : WordFits.Statement (.sel d a b p) := by
  have h0 := d.isLt
  have h1 := src_code_lt a
  have h2 := src_code_lt b
  have h3 := p.isLt
  exact ⟨enc_r_lt (by omega) (by omega) (by omega) (by omega) (by omega), Nat.two_pow_pos 32⟩

theorem WordFits.fadd (d : BitVec 5) (a : Src) (b : Src) (rm : RMode) : WordFits.Statement (.fadd d a b rm) := by
  have h0 := d.isLt
  have h1 := src_code_lt a
  have h2 := src_code_lt b
  have h3 := rmode_lt rm
  exact ⟨enc_r_lt (by omega) (by omega) (by omega) (by omega) (by omega), Nat.two_pow_pos 32⟩

theorem WordFits.fsub (d : BitVec 5) (a : Src) (b : Src) (rm : RMode) : WordFits.Statement (.fsub d a b rm) := by
  have h0 := d.isLt
  have h1 := src_code_lt a
  have h2 := src_code_lt b
  have h3 := rmode_lt rm
  exact ⟨enc_r_lt (by omega) (by omega) (by omega) (by omega) (by omega), Nat.two_pow_pos 32⟩

theorem WordFits.fmul (d : BitVec 5) (a : Src) (b : Src) (rm : RMode) : WordFits.Statement (.fmul d a b rm) := by
  have h0 := d.isLt
  have h1 := src_code_lt a
  have h2 := src_code_lt b
  have h3 := rmode_lt rm
  exact ⟨enc_r_lt (by omega) (by omega) (by omega) (by omega) (by omega), Nat.two_pow_pos 32⟩

theorem WordFits.ffma (d : BitVec 5) (a : Src) (b : Src) (rm : RMode) : WordFits.Statement (.ffma d a b rm) := by
  have h0 := d.isLt
  have h1 := src_code_lt a
  have h2 := src_code_lt b
  have h3 := rmode_lt rm
  exact ⟨enc_r_lt (by omega) (by omega) (by omega) (by omega) (by omega), Nat.two_pow_pos 32⟩

theorem WordFits.fmin (d : BitVec 5) (a : Src) (b : Src) : WordFits.Statement (.fmin d a b) := by
  have h0 := d.isLt
  have h1 := src_code_lt a
  have h2 := src_code_lt b
  exact ⟨enc_r_lt (by omega) (by omega) (by omega) (by omega) (by omega), Nat.two_pow_pos 32⟩

theorem WordFits.fmax (d : BitVec 5) (a : Src) (b : Src) : WordFits.Statement (.fmax d a b) := by
  have h0 := d.isLt
  have h1 := src_code_lt a
  have h2 := src_code_lt b
  exact ⟨enc_r_lt (by omega) (by omega) (by omega) (by omega) (by omega), Nat.two_pow_pos 32⟩

theorem WordFits.fcvtI64F32 (d : BitVec 5) (a : Src) (rm : RMode) : WordFits.Statement (.fcvtI64F32 d a rm) := by
  have h0 := d.isLt
  have h1 := src_code_lt a
  have h2 := rmode_lt rm
  exact ⟨enc_r_lt (by omega) (by omega) (by omega) (by omega) (by omega), Nat.two_pow_pos 32⟩

theorem WordFits.fcvtF32I64 (d : BitVec 5) (a : Src) (rm : RMode) : WordFits.Statement (.fcvtF32I64 d a rm) := by
  have h0 := d.isLt
  have h1 := src_code_lt a
  have h2 := rmode_lt rm
  exact ⟨enc_r_lt (by omega) (by omega) (by omega) (by omega) (by omega), Nat.two_pow_pos 32⟩

theorem WordFits.fcvtBf16F32 (d : BitVec 5) (a : Src) (rm : RMode) : WordFits.Statement (.fcvtBf16F32 d a rm) := by
  have h0 := d.isLt
  have h1 := src_code_lt a
  have h2 := rmode_lt rm
  exact ⟨enc_r_lt (by omega) (by omega) (by omega) (by omega) (by omega), Nat.two_pow_pos 32⟩

theorem WordFits.fcvtFp16F32 (d : BitVec 5) (a : Src) (rm : RMode) : WordFits.Statement (.fcvtFp16F32 d a rm) := by
  have h0 := d.isLt
  have h1 := src_code_lt a
  have h2 := rmode_lt rm
  exact ⟨enc_r_lt (by omega) (by omega) (by omega) (by omega) (by omega), Nat.two_pow_pos 32⟩

theorem WordFits.fcvtE4m3F32 (d : BitVec 5) (a : Src) (rm : RMode) : WordFits.Statement (.fcvtE4m3F32 d a rm) := by
  have h0 := d.isLt
  have h1 := src_code_lt a
  have h2 := rmode_lt rm
  exact ⟨enc_r_lt (by omega) (by omega) (by omega) (by omega) (by omega), Nat.two_pow_pos 32⟩

theorem WordFits.fcvtE5m2F32 (d : BitVec 5) (a : Src) (rm : RMode) : WordFits.Statement (.fcvtE5m2F32 d a rm) := by
  have h0 := d.isLt
  have h1 := src_code_lt a
  have h2 := rmode_lt rm
  exact ⟨enc_r_lt (by omega) (by omega) (by omega) (by omega) (by omega), Nat.two_pow_pos 32⟩

theorem WordFits.fcvtF32Bf16 (d : BitVec 5) (a : Src) : WordFits.Statement (.fcvtF32Bf16 d a) := by
  have h0 := d.isLt
  have h1 := src_code_lt a
  exact ⟨enc_r_lt (by omega) (by omega) (by omega) (by omega) (by omega), Nat.two_pow_pos 32⟩

theorem WordFits.fcvtF32Fp16 (d : BitVec 5) (a : Src) : WordFits.Statement (.fcvtF32Fp16 d a) := by
  have h0 := d.isLt
  have h1 := src_code_lt a
  exact ⟨enc_r_lt (by omega) (by omega) (by omega) (by omega) (by omega), Nat.two_pow_pos 32⟩

theorem WordFits.fcvtF32E4m3 (d : BitVec 5) (a : Src) : WordFits.Statement (.fcvtF32E4m3 d a) := by
  have h0 := d.isLt
  have h1 := src_code_lt a
  exact ⟨enc_r_lt (by omega) (by omega) (by omega) (by omega) (by omega), Nat.two_pow_pos 32⟩

theorem WordFits.fcvtF32E5m2 (d : BitVec 5) (a : Src) : WordFits.Statement (.fcvtF32E5m2 d a) := by
  have h0 := d.isLt
  have h1 := src_code_lt a
  exact ⟨enc_r_lt (by omega) (by omega) (by omega) (by omega) (by omega), Nat.two_pow_pos 32⟩

theorem WordFits.cmp (p : BitVec 3) (a : Src) (b : Src) (c : Cond) : WordFits.Statement (.cmp p a b c) := by
  have h0 := p.isLt
  have h1 := src_code_lt a
  have h2 := src_code_lt b
  have h3 := cond_lt c
  exact ⟨enc_r_lt (by omega) (by omega) (by omega) (by omega) (by omega), Nat.two_pow_pos 32⟩

theorem WordFits.fcmp (p : BitVec 3) (a : Src) (b : Src) (c : FCond) : WordFits.Statement (.fcmp p a b c) := by
  have h0 := p.isLt
  have h1 := src_code_lt a
  have h2 := src_code_lt b
  have h3 := fcond_lt c
  exact ⟨enc_r_lt (by omega) (by omega) (by omega) (by omega) (by omega), Nat.two_pow_pos 32⟩

theorem WordFits.amoAdd (d : BitVec 5) (a : Src) (b : Src) (w : Bool) (sc : Scope) : WordFits.Statement (.amoAdd d a b w sc) := by
  have h0 := d.isLt
  have h1 := src_code_lt a
  have h2 := src_code_lt b
  have h3 := bool_lt w
  have h4 := scope_lt sc
  exact ⟨enc_r_lt (by omega) (by omega) (by omega) (by omega) (by omega), Nat.two_pow_pos 32⟩

theorem WordFits.amoMin (d : BitVec 5) (a : Src) (b : Src) (u : Bool) (w : Bool) (sc : Scope) : WordFits.Statement (.amoMin d a b u w sc) := by
  have h0 := d.isLt
  have h1 := src_code_lt a
  have h2 := src_code_lt b
  have h3 := bool_lt u
  have h4 := bool_lt w
  have h5 := scope_lt sc
  exact ⟨enc_r_lt (by omega) (by omega) (by omega) (by omega) (by omega), Nat.two_pow_pos 32⟩

theorem WordFits.amoMax (d : BitVec 5) (a : Src) (b : Src) (u : Bool) (w : Bool) (sc : Scope) : WordFits.Statement (.amoMax d a b u w sc) := by
  have h0 := d.isLt
  have h1 := src_code_lt a
  have h2 := src_code_lt b
  have h3 := bool_lt u
  have h4 := bool_lt w
  have h5 := scope_lt sc
  exact ⟨enc_r_lt (by omega) (by omega) (by omega) (by omega) (by omega), Nat.two_pow_pos 32⟩

theorem WordFits.amoAnd (d : BitVec 5) (a : Src) (b : Src) (w : Bool) (sc : Scope) : WordFits.Statement (.amoAnd d a b w sc) := by
  have h0 := d.isLt
  have h1 := src_code_lt a
  have h2 := src_code_lt b
  have h3 := bool_lt w
  have h4 := scope_lt sc
  exact ⟨enc_r_lt (by omega) (by omega) (by omega) (by omega) (by omega), Nat.two_pow_pos 32⟩

theorem WordFits.amoOr (d : BitVec 5) (a : Src) (b : Src) (w : Bool) (sc : Scope) : WordFits.Statement (.amoOr d a b w sc) := by
  have h0 := d.isLt
  have h1 := src_code_lt a
  have h2 := src_code_lt b
  have h3 := bool_lt w
  have h4 := scope_lt sc
  exact ⟨enc_r_lt (by omega) (by omega) (by omega) (by omega) (by omega), Nat.two_pow_pos 32⟩

theorem WordFits.amoXor (d : BitVec 5) (a : Src) (b : Src) (w : Bool) (sc : Scope) : WordFits.Statement (.amoXor d a b w sc) := by
  have h0 := d.isLt
  have h1 := src_code_lt a
  have h2 := src_code_lt b
  have h3 := bool_lt w
  have h4 := scope_lt sc
  exact ⟨enc_r_lt (by omega) (by omega) (by omega) (by omega) (by omega), Nat.two_pow_pos 32⟩

theorem WordFits.amoSwap (d : BitVec 5) (a : Src) (b : Src) (w : Bool) (sc : Scope) : WordFits.Statement (.amoSwap d a b w sc) := by
  have h0 := d.isLt
  have h1 := src_code_lt a
  have h2 := src_code_lt b
  have h3 := bool_lt w
  have h4 := scope_lt sc
  exact ⟨enc_r_lt (by omega) (by omega) (by omega) (by omega) (by omega), Nat.two_pow_pos 32⟩

theorem WordFits.cas (d : BitVec 5) (a : Src) (b : Src) (w : Bool) (sc : Scope) : WordFits.Statement (.cas d a b w sc) := by
  have h0 := d.isLt
  have h1 := src_code_lt a
  have h2 := src_code_lt b
  have h3 := bool_lt w
  have h4 := scope_lt sc
  exact ⟨enc_r_lt (by omega) (by omega) (by omega) (by omega) (by omega), Nat.two_pow_pos 32⟩

theorem WordFits.acq (sc : Scope) : WordFits.Statement (.acq sc) := by
  have h0 := scope_lt sc
  exact ⟨enc_r_lt (by omega) (by omega) (by omega) (by omega) (by omega), Nat.two_pow_pos 32⟩

theorem WordFits.rel (sc : Scope) : WordFits.Statement (.rel sc) := by
  have h0 := scope_lt sc
  exact ⟨enc_r_lt (by omega) (by omega) (by omega) (by omega) (by omega), Nat.two_pow_pos 32⟩

theorem WordFits.fence (d : BitVec 5) (sc : Scope) : WordFits.Statement (.fence d sc) := by
  have h0 := d.isLt
  have h1 := scope_lt sc
  exact ⟨enc_r_lt (by omega) (by omega) (by omega) (by omega) (by omega), Nat.two_pow_pos 32⟩

theorem WordFits.waita (d : BitVec 5) (a : Src) (b : Src) (sc : Scope) : WordFits.Statement (.waita d a b sc) := by
  have h0 := d.isLt
  have h1 := src_code_lt a
  have h2 := src_code_lt b
  have h3 := scope_lt sc
  exact ⟨enc_r_lt (by omega) (by omega) (by omega) (by omega) (by omega), Nat.two_pow_pos 32⟩

theorem WordFits.waitq (d : BitVec 5) (a : Src) (b : Src) : WordFits.Statement (.waitq d a b) := by
  have h0 := d.isLt
  have h1 := src_code_lt a
  have h2 := src_code_lt b
  exact ⟨enc_r_lt (by omega) (by omega) (by omega) (by omega) (by omega), Nat.two_pow_pos 32⟩

theorem WordFits.sbarv (d : BitVec 5) (a : Src) (b : Src) : WordFits.Statement (.sbarv d a b) := by
  have h0 := d.isLt
  have h1 := src_code_lt a
  have h2 := src_code_lt b
  exact ⟨enc_r_lt (by omega) (by omega) (by omega) (by omega) (by omega), Nat.two_pow_pos 32⟩

theorem WordFits.sbwait (d : BitVec 5) (a : Src) (b : Src) : WordFits.Statement (.sbwait d a b) := by
  have h0 := d.isLt
  have h1 := src_code_lt a
  have h2 := src_code_lt b
  exact ⟨enc_r_lt (by omega) (by omega) (by omega) (by omega) (by omega), Nat.two_pow_pos 32⟩

theorem WordFits.ffill (a : Src) (b : Src) : WordFits.Statement (.ffill a b) := by
  have h0 := src_code_lt a
  have h1 := src_code_lt b
  exact ⟨enc_r_lt (by omega) (by omega) (by omega) (by omega) (by omega), Nat.two_pow_pos 32⟩

theorem WordFits.fget (d : BitVec 5) (a : Src) (b : Src) : WordFits.Statement (.fget d a b) := by
  have h0 := d.isLt
  have h1 := src_code_lt a
  have h2 := src_code_lt b
  exact ⟨enc_r_lt (by omega) (by omega) (by omega) (by omega) (by omega), Nat.two_pow_pos 32⟩

theorem WordFits.fqpush (a : Src) (b : Src) : WordFits.Statement (.fqpush a b) := by
  have h0 := src_code_lt a
  have h1 := src_code_lt b
  exact ⟨enc_r_lt (by omega) (by omega) (by omega) (by omega) (by omega), Nat.two_pow_pos 32⟩

theorem WordFits.spawn (a : Src) : WordFits.Statement (.spawn a) := by
  have h0 := src_code_lt a
  exact ⟨enc_r_lt (by omega) (by omega) (by omega) (by omega) (by omega), Nat.two_pow_pos 32⟩

theorem WordFits.join (a : Src) : WordFits.Statement (.join a) := by
  have h0 := src_code_lt a
  exact ⟨enc_r_lt (by omega) (by omega) (by omega) (by omega) (by omega), Nat.two_pow_pos 32⟩

theorem WordFits.done : WordFits.Statement .done := by
  exact ⟨enc_r_lt (by omega) (by omega) (by omega) (by omega) (by omega), Nat.two_pow_pos 32⟩

theorem WordFits.yield : WordFits.Statement .yield := by
  exact ⟨enc_r_lt (by omega) (by omega) (by omega) (by omega) (by omega), Nat.two_pow_pos 32⟩

theorem WordFits.wdecl (d : BitVec 5) (a : Src) (b : Src) : WordFits.Statement (.wdecl d a b) := by
  have h0 := d.isLt
  have h1 := src_code_lt a
  have h2 := src_code_lt b
  exact ⟨enc_r_lt (by omega) (by omega) (by omega) (by omega) (by omega), Nat.two_pow_pos 32⟩

theorem WordFits.wclose (a : Src) : WordFits.Statement (.wclose a) := by
  have h0 := src_code_lt a
  exact ⟨enc_r_lt (by omega) (by omega) (by omega) (by omega) (by omega), Nat.two_pow_pos 32⟩

theorem WordFits.wflush (a : Src) : WordFits.Statement (.wflush a) := by
  have h0 := src_code_lt a
  exact ⟨enc_r_lt (by omega) (by omega) (by omega) (by omega) (by omega), Nat.two_pow_pos 32⟩

theorem WordFits.wquery (d : BitVec 5) (a : Src) (b : Src) : WordFits.Statement (.wquery d a b) := by
  have h0 := d.isLt
  have h1 := src_code_lt a
  have h2 := src_code_lt b
  exact ⟨enc_r_lt (by omega) (by omega) (by omega) (by omega) (by omega), Nat.two_pow_pos 32⟩

theorem WordFits.chtail (a : Src) (b : Src) : WordFits.Statement (.chtail a b) := by
  have h0 := src_code_lt a
  have h1 := src_code_lt b
  exact ⟨enc_r_lt (by omega) (by omega) (by omega) (by omega) (by omega), Nat.two_pow_pos 32⟩

theorem WordFits.jmp (a : Src) : WordFits.Statement (.jmp a) := by
  have h0 := src_code_lt a
  exact ⟨enc_r_lt (by omega) (by omega) (by omega) (by omega) (by omega), Nat.two_pow_pos 32⟩

theorem WordFits.ret : WordFits.Statement .ret := by
  exact ⟨enc_r_lt (by omega) (by omega) (by omega) (by omega) (by omega), Nat.two_pow_pos 32⟩

theorem WordFits.brx (a : Src) (b : Src) : WordFits.Statement (.brx a b) := by
  have h0 := src_code_lt a
  have h1 := src_code_lt b
  exact ⟨enc_r_lt (by omega) (by omega) (by omega) (by omega) (by omega), Nat.two_pow_pos 32⟩

theorem WordFits.trap (a : Src) : WordFits.Statement (.trap a) := by
  have h0 := src_code_lt a
  exact ⟨enc_r_lt (by omega) (by omega) (by omega) (by omega) (by omega), Nat.two_pow_pos 32⟩

theorem WordFits.eret : WordFits.Statement .eret := by
  exact ⟨enc_r_lt (by omega) (by omega) (by omega) (by omega) (by omega), Nat.two_pow_pos 32⟩

theorem WordFits.tlbinv (a : Src) (b : Src) : WordFits.Statement (.tlbinv a b) := by
  have h0 := src_code_lt a
  have h1 := src_code_lt b
  exact ⟨enc_r_lt (by omega) (by omega) (by omega) (by omega) (by omega), Nat.two_pow_pos 32⟩

theorem WordFits.dhop (d : BitVec 5) (a : Src) (b : Src) : WordFits.Statement (.dhop d a b) := by
  have h0 := d.isLt
  have h1 := src_code_lt a
  have h2 := src_code_lt b
  exact ⟨enc_r_lt (by omega) (by omega) (by omega) (by omega) (by omega), Nat.two_pow_pos 32⟩

theorem WordFits.vdie (d : BitVec 5) (a : Src) (b : Src) : WordFits.Statement (.vdie d a b) := by
  have h0 := d.isLt
  have h1 := src_code_lt a
  have h2 := src_code_lt b
  exact ⟨enc_r_lt (by omega) (by omega) (by omega) (by omega) (by omega), Nat.two_pow_pos 32⟩

theorem WordFits.trc (a : Src) (b : Src) : WordFits.Statement (.trc a b) := by
  have h0 := src_code_lt a
  have h1 := src_code_lt b
  exact ⟨enc_r_lt (by omega) (by omega) (by omega) (by omega) (by omega), Nat.two_pow_pos 32⟩

theorem WordFits.srd (d : BitVec 5) (n : BitVec 12) : WordFits.Statement (.srd d n) := by
  have h0 := d.isLt
  have h1 := n.isLt
  exact ⟨enc_i_lt (by omega) (by omega) (by omega) (by omega), Nat.two_pow_pos 32⟩

theorem WordFits.swr (a : Src) (n : BitVec 12) : WordFits.Statement (.swr a n) := by
  have h0 := src_code_lt a
  have h1 := n.isLt
  exact ⟨enc_i_lt (by omega) (by omega) (by omega) (by omega), Nat.two_pow_pos 32⟩

theorem WordFits.waitc (mask : BitVec 4) (lim : BitVec 8) : WordFits.Statement (.waitc mask lim) := by
  have h0 := mask.isLt
  have h1 := lim.isLt
  exact ⟨enc_i_lt (by omega) (by omega) (by omega) (by omega), Nat.two_pow_pos 32⟩

theorem WordFits.shlImm (d : BitVec 5) (a : Src) (cnt : BitVec 6) : WordFits.Statement (.shlImm d a cnt) := by
  have h0 := d.isLt
  have h1 := src_code_lt a
  have h2 := cnt.isLt
  exact ⟨enc_i_lt (by omega) (by omega) (by omega) (by omega), Nat.two_pow_pos 32⟩

theorem WordFits.shrImm (d : BitVec 5) (a : Src) (cnt : BitVec 6) : WordFits.Statement (.shrImm d a cnt) := by
  have h0 := d.isLt
  have h1 := src_code_lt a
  have h2 := cnt.isLt
  exact ⟨enc_i_lt (by omega) (by omega) (by omega) (by omega), Nat.two_pow_pos 32⟩

theorem WordFits.sraImm (d : BitVec 5) (a : Src) (cnt : BitVec 6) : WordFits.Statement (.sraImm d a cnt) := by
  have h0 := d.isLt
  have h1 := src_code_lt a
  have h2 := cnt.isLt
  exact ⟨enc_i_lt (by omega) (by omega) (by omega) (by omega), Nat.two_pow_pos 32⟩

theorem WordFits.rotImm (d : BitVec 5) (a : Src) (cnt : BitVec 6) : WordFits.Statement (.rotImm d a cnt) := by
  have h0 := d.isLt
  have h1 := src_code_lt a
  have h2 := cnt.isLt
  exact ⟨enc_i_lt (by omega) (by omega) (by omega) (by omega), Nat.two_pow_pos 32⟩

theorem WordFits.movi (d : BitVec 5) (imm : BitVec 14) : WordFits.Statement (.movi d imm) := by
  have h0 := d.isLt
  have h1 := imm.isLt
  exact ⟨enc_i_lt (by omega) (by omega) (by omega) (by omega), Nat.two_pow_pos 32⟩

theorem WordFits.moviLong (d : BitVec 5) (imm : BitVec 46) : WordFits.Statement (.moviLong d imm) := by
  have h0 := d.isLt
  have h1 := bits_lt imm.toNat 0 14
  exact ⟨enc_i_lt (by omega) (by omega) (by omega) (by omega), bits_lt _ 14 32⟩

theorem WordFits.addImm (d : BitVec 5) (a : Src) (imm : BitVec 14) : WordFits.Statement (.addImm d a imm) := by
  have h0 := d.isLt
  have h1 := src_code_lt a
  have h2 := imm.isLt
  exact ⟨enc_i_lt (by omega) (by omega) (by omega) (by omega), Nat.two_pow_pos 32⟩

theorem WordFits.addLong (d : BitVec 5) (a : Src) (imm : BitVec 46) : WordFits.Statement (.addLong d a imm) := by
  have h0 := d.isLt
  have h1 := src_code_lt a
  have h2 := bits_lt imm.toNat 0 14
  exact ⟨enc_i_lt (by omega) (by omega) (by omega) (by omega), bits_lt _ 14 32⟩

theorem WordFits.andImm (d : BitVec 5) (a : Src) (imm : BitVec 14) : WordFits.Statement (.andImm d a imm) := by
  have h0 := d.isLt
  have h1 := src_code_lt a
  have h2 := imm.isLt
  exact ⟨enc_i_lt (by omega) (by omega) (by omega) (by omega), Nat.two_pow_pos 32⟩

theorem WordFits.andLong (d : BitVec 5) (a : Src) (imm : BitVec 46) : WordFits.Statement (.andLong d a imm) := by
  have h0 := d.isLt
  have h1 := src_code_lt a
  have h2 := bits_lt imm.toNat 0 14
  exact ⟨enc_i_lt (by omega) (by omega) (by omega) (by omega), bits_lt _ 14 32⟩

theorem WordFits.orImm (d : BitVec 5) (a : Src) (imm : BitVec 14) : WordFits.Statement (.orImm d a imm) := by
  have h0 := d.isLt
  have h1 := src_code_lt a
  have h2 := imm.isLt
  exact ⟨enc_i_lt (by omega) (by omega) (by omega) (by omega), Nat.two_pow_pos 32⟩

theorem WordFits.orLong (d : BitVec 5) (a : Src) (imm : BitVec 46) : WordFits.Statement (.orLong d a imm) := by
  have h0 := d.isLt
  have h1 := src_code_lt a
  have h2 := bits_lt imm.toNat 0 14
  exact ⟨enc_i_lt (by omega) (by omega) (by omega) (by omega), bits_lt _ 14 32⟩

theorem WordFits.xorImm (d : BitVec 5) (a : Src) (imm : BitVec 14) : WordFits.Statement (.xorImm d a imm) := by
  have h0 := d.isLt
  have h1 := src_code_lt a
  have h2 := imm.isLt
  exact ⟨enc_i_lt (by omega) (by omega) (by omega) (by omega), Nat.two_pow_pos 32⟩

theorem WordFits.xorLong (d : BitVec 5) (a : Src) (imm : BitVec 46) : WordFits.Statement (.xorLong d a imm) := by
  have h0 := d.isLt
  have h1 := src_code_lt a
  have h2 := bits_lt imm.toNat 0 14
  exact ⟨enc_i_lt (by omega) (by omega) (by omega) (by omega), bits_lt _ 14 32⟩

theorem WordFits.lea (d : BitVec 5) (a : Src) (imm : BitVec 14) : WordFits.Statement (.lea d a imm) := by
  have h0 := d.isLt
  have h1 := src_code_lt a
  have h2 := imm.isLt
  exact ⟨enc_i_lt (by omega) (by omega) (by omega) (by omega), Nat.two_pow_pos 32⟩

theorem WordFits.leaLong (d : BitVec 5) (a : Src) (imm : BitVec 46) : WordFits.Statement (.leaLong d a imm) := by
  have h0 := d.isLt
  have h1 := src_code_lt a
  have h2 := bits_lt imm.toNat 0 14
  exact ⟨enc_i_lt (by omega) (by omega) (by omega) (by omega), bits_lt _ 14 32⟩

theorem WordFits.bfx (d : BitVec 5) (a : Src) (wid : BitVec 6) (pos : BitVec 6) : WordFits.Statement (.bfx d a wid pos) := by
  have h0 := d.isLt
  have h1 := src_code_lt a
  have h2 := wid.isLt
  have h3 := pos.isLt
  exact ⟨enc_i_lt (by omega) (by omega) (by omega) (by omega), Nat.two_pow_pos 32⟩

theorem WordFits.bfi (d : BitVec 5) (a : Src) (wid : BitVec 6) (pos : BitVec 6) : WordFits.Statement (.bfi d a wid pos) := by
  have h0 := d.isLt
  have h1 := src_code_lt a
  have h2 := wid.isLt
  have h3 := pos.isLt
  exact ⟨enc_i_lt (by omega) (by omega) (by omega) (by omega), Nat.two_pow_pos 32⟩

theorem WordFits.loop (d : BitVec 5) (imm : BitVec 14) : WordFits.Statement (.loop d imm) := by
  have h0 := d.isLt
  have h1 := imm.isLt
  exact ⟨enc_i_lt (by omega) (by omega) (by omega) (by omega), Nat.two_pow_pos 32⟩

theorem WordFits.cmpImm (c : Cond) (p : BitVec 3) (a : Src) (imm : BitVec 14) : WordFits.Statement (.cmpImm c p a imm) := by
  have h0 := cond_lt c
  have h1 := p.isLt
  have h2 := src_code_lt a
  have h3 := imm.isLt
  exact ⟨enc_i_lt (by omega) (by omega) (by omega) (by omega), Nat.two_pow_pos 32⟩

theorem WordFits.cmpLong (c : Cond) (p : BitVec 3) (a : Src) (imm : BitVec 46) : WordFits.Statement (.cmpLong c p a imm) := by
  have h0 := cond_lt c
  have h1 := p.isLt
  have h2 := src_code_lt a
  have h3 := bits_lt imm.toNat 0 14
  exact ⟨enc_i_lt (by omega) (by omega) (by omega) (by omega), bits_lt _ 14 32⟩

theorem WordFits.ld (d : BitVec 5) (base : BitVec 5) (off : BitVec 13) (sz : BitVec 2) (sp : Bool) : WordFits.Statement (.ld d base off sz sp) := by
  have h0 := d.isLt
  have h1 := base.isLt
  have h2 := off.isLt
  have h3 := sz.isLt
  have h4 := bool_lt sp
  exact ⟨enc_m_lt (by omega) (by omega) (by omega) (by omega) (by omega), Nat.two_pow_pos 32⟩

theorem WordFits.ldU (d : BitVec 5) (base : BitVec 5) (off : BitVec 13) (sz : BitVec 2) (sp : Bool) : WordFits.Statement (.ldU d base off sz sp) := by
  have h0 := d.isLt
  have h1 := base.isLt
  have h2 := off.isLt
  have h3 := sz.isLt
  have h4 := bool_lt sp
  exact ⟨enc_m_lt (by omega) (by omega) (by omega) (by omega) (by omega), Nat.two_pow_pos 32⟩

theorem WordFits.st (d : BitVec 5) (base : BitVec 5) (off : BitVec 13) (sz : BitVec 2) (sp : Bool) : WordFits.Statement (.st d base off sz sp) := by
  have h0 := d.isLt
  have h1 := base.isLt
  have h2 := off.isLt
  have h3 := sz.isLt
  have h4 := bool_lt sp
  exact ⟨enc_m_lt (by omega) (by omega) (by omega) (by omega) (by omega), Nat.two_pow_pos 32⟩

theorem WordFits.pref (cnt : BitVec 5) (base : BitVec 5) (off : BitVec 13) (sp : Bool) : WordFits.Statement (.pref cnt base off sp) := by
  have h0 := cnt.isLt
  have h1 := base.isLt
  have h2 := off.isLt
  have h3 := bool_lt sp
  exact ⟨enc_m_lt (by omega) (by omega) (by omega) (by omega) (by omega), Nat.two_pow_pos 32⟩

theorem WordFits.br (p : BitVec 3) (n : Bool) (off : BitVec 19) : WordFits.Statement (.br p n off) := by
  have h0 := p.isLt
  have h1 := bool_lt n
  have h2 := off.isLt
  exact ⟨enc_b_lt (by omega) (by omega) (by omega), Nat.two_pow_pos 32⟩

theorem WordFits.call (p : BitVec 3) (n : Bool) (off : BitVec 19) : WordFits.Statement (.call p n off) := by
  have h0 := p.isLt
  have h1 := bool_lt n
  have h2 := off.isLt
  exact ⟨enc_b_lt (by omega) (by omega) (by omega), Nat.two_pow_pos 32⟩

theorem WordFits.vadd (d : BitVec 4) (a : BitVec 4) (b : BitVec 4) (rm : RMode) : WordFits.Statement (.vadd d a b rm) := by
  have h0 := d.isLt
  have h1 := a.isLt
  have h2 := b.isLt
  have h3 := rmode_lt rm
  exact ⟨enc_v_lt (by omega) (by omega) (by omega) (by omega) (by omega) (by omega) (by omega), Nat.two_pow_pos 32⟩

theorem WordFits.vsub (d : BitVec 4) (a : BitVec 4) (b : BitVec 4) (rm : RMode) : WordFits.Statement (.vsub d a b rm) := by
  have h0 := d.isLt
  have h1 := a.isLt
  have h2 := b.isLt
  have h3 := rmode_lt rm
  exact ⟨enc_v_lt (by omega) (by omega) (by omega) (by omega) (by omega) (by omega) (by omega), Nat.two_pow_pos 32⟩

theorem WordFits.vmul (d : BitVec 4) (a : BitVec 4) (b : BitVec 4) (rm : RMode) : WordFits.Statement (.vmul d a b rm) := by
  have h0 := d.isLt
  have h1 := a.isLt
  have h2 := b.isLt
  have h3 := rmode_lt rm
  exact ⟨enc_v_lt (by omega) (by omega) (by omega) (by omega) (by omega) (by omega) (by omega), Nat.two_pow_pos 32⟩

theorem WordFits.vfma (d : BitVec 4) (a : BitVec 4) (b : BitVec 4) (c : BitVec 4) (rm : RMode) : WordFits.Statement (.vfma d a b c rm) := by
  have h0 := d.isLt
  have h1 := a.isLt
  have h2 := b.isLt
  have h3 := c.isLt
  have h4 := rmode_lt rm
  exact ⟨enc_v_lt (by omega) (by omega) (by omega) (by omega) (by omega) (by omega) (by omega), Nat.two_pow_pos 32⟩

theorem WordFits.vmin (d : BitVec 4) (a : BitVec 4) (b : BitVec 4) (rm : RMode) : WordFits.Statement (.vmin d a b rm) := by
  have h0 := d.isLt
  have h1 := a.isLt
  have h2 := b.isLt
  have h3 := rmode_lt rm
  exact ⟨enc_v_lt (by omega) (by omega) (by omega) (by omega) (by omega) (by omega) (by omega), Nat.two_pow_pos 32⟩

theorem WordFits.vmax (d : BitVec 4) (a : BitVec 4) (b : BitVec 4) (rm : RMode) : WordFits.Statement (.vmax d a b rm) := by
  have h0 := d.isLt
  have h1 := a.isLt
  have h2 := b.isLt
  have h3 := rmode_lt rm
  exact ⟨enc_v_lt (by omega) (by omega) (by omega) (by omega) (by omega) (by omega) (by omega), Nat.two_pow_pos 32⟩

theorem WordFits.vand (d : BitVec 4) (a : BitVec 4) (b : BitVec 4) (rm : BitVec 3) : WordFits.Statement (.vand d a b rm) := by
  have h0 := d.isLt
  have h1 := a.isLt
  have h2 := b.isLt
  have h3 := rm.isLt
  exact ⟨enc_v_lt (by omega) (by omega) (by omega) (by omega) (by omega) (by omega) (by omega), Nat.two_pow_pos 32⟩

theorem WordFits.vor (d : BitVec 4) (a : BitVec 4) (b : BitVec 4) (rm : BitVec 3) : WordFits.Statement (.vor d a b rm) := by
  have h0 := d.isLt
  have h1 := a.isLt
  have h2 := b.isLt
  have h3 := rm.isLt
  exact ⟨enc_v_lt (by omega) (by omega) (by omega) (by omega) (by omega) (by omega) (by omega), Nat.two_pow_pos 32⟩

theorem WordFits.vxor (d : BitVec 4) (a : BitVec 4) (b : BitVec 4) (rm : BitVec 3) : WordFits.Statement (.vxor d a b rm) := by
  have h0 := d.isLt
  have h1 := a.isLt
  have h2 := b.isLt
  have h3 := rm.isLt
  exact ⟨enc_v_lt (by omega) (by omega) (by omega) (by omega) (by omega) (by omega) (by omega), Nat.two_pow_pos 32⟩

theorem WordFits.vshl (d : BitVec 4) (a : BitVec 4) (b : BitVec 4) (rm : BitVec 3) : WordFits.Statement (.vshl d a b rm) := by
  have h0 := d.isLt
  have h1 := a.isLt
  have h2 := b.isLt
  have h3 := rm.isLt
  exact ⟨enc_v_lt (by omega) (by omega) (by omega) (by omega) (by omega) (by omega) (by omega), Nat.two_pow_pos 32⟩

theorem WordFits.vshr (d : BitVec 4) (a : BitVec 4) (b : BitVec 4) (rm : BitVec 3) : WordFits.Statement (.vshr d a b rm) := by
  have h0 := d.isLt
  have h1 := a.isLt
  have h2 := b.isLt
  have h3 := rm.isLt
  exact ⟨enc_v_lt (by omega) (by omega) (by omega) (by omega) (by omega) (by omega) (by omega), Nat.two_pow_pos 32⟩

theorem WordFits.vsel (d : BitVec 4) (a : BitVec 4) (b : BitVec 4) (c : BitVec 4) (rm : RMode) : WordFits.Statement (.vsel d a b c rm) := by
  have h0 := d.isLt
  have h1 := a.isLt
  have h2 := b.isLt
  have h3 := c.isLt
  have h4 := rmode_lt rm
  exact ⟨enc_v_lt (by omega) (by omega) (by omega) (by omega) (by omega) (by omega) (by omega), Nat.two_pow_pos 32⟩

theorem WordFits.vabs (d : BitVec 4) (a : BitVec 4) (rm : RMode) : WordFits.Statement (.vabs d a rm) := by
  have h0 := d.isLt
  have h1 := a.isLt
  have h2 := rmode_lt rm
  exact ⟨enc_v_lt (by omega) (by omega) (by omega) (by omega) (by omega) (by omega) (by omega), Nat.two_pow_pos 32⟩

theorem WordFits.vneg (d : BitVec 4) (a : BitVec 4) (rm : RMode) : WordFits.Statement (.vneg d a rm) := by
  have h0 := d.isLt
  have h1 := a.isLt
  have h2 := rmode_lt rm
  exact ⟨enc_v_lt (by omega) (by omega) (by omega) (by omega) (by omega) (by omega) (by omega), Nat.two_pow_pos 32⟩

theorem WordFits.vcmp (d : BitVec 4) (a : BitVec 4) (b : BitVec 4) (rm : BitVec 3) (k : Cond) : WordFits.Statement (.vcmp d a b rm k) := by
  have h0 := d.isLt
  have h1 := a.isLt
  have h2 := b.isLt
  have h3 := rm.isLt
  have h4 := cond_lt k
  exact ⟨enc_v_lt (by omega) (by omega) (by omega) (by omega) (by omega) (by omega) (by omega), Nat.two_pow_pos 32⟩

theorem WordFits.vaddVs (d : BitVec 4) (a : BitVec 4) (q : Src) (rm : RMode) : WordFits.Statement (.vaddVs d a q rm) := by
  have h0 := d.isLt
  have h1 := a.isLt
  have h2 := src_code_lt q
  have h3 := rmode_lt rm
  exact ⟨enc_vs_lt (by omega) (by omega) (by omega) (by omega) (by omega) (by omega), Nat.two_pow_pos 32⟩

theorem WordFits.vsubVs (d : BitVec 4) (a : BitVec 4) (q : Src) (rm : RMode) : WordFits.Statement (.vsubVs d a q rm) := by
  have h0 := d.isLt
  have h1 := a.isLt
  have h2 := src_code_lt q
  have h3 := rmode_lt rm
  exact ⟨enc_vs_lt (by omega) (by omega) (by omega) (by omega) (by omega) (by omega), Nat.two_pow_pos 32⟩

theorem WordFits.vmulVs (d : BitVec 4) (a : BitVec 4) (q : Src) (rm : RMode) : WordFits.Statement (.vmulVs d a q rm) := by
  have h0 := d.isLt
  have h1 := a.isLt
  have h2 := src_code_lt q
  have h3 := rmode_lt rm
  exact ⟨enc_vs_lt (by omega) (by omega) (by omega) (by omega) (by omega) (by omega), Nat.two_pow_pos 32⟩

theorem WordFits.vminVs (d : BitVec 4) (a : BitVec 4) (q : Src) (rm : RMode) : WordFits.Statement (.vminVs d a q rm) := by
  have h0 := d.isLt
  have h1 := a.isLt
  have h2 := src_code_lt q
  have h3 := rmode_lt rm
  exact ⟨enc_vs_lt (by omega) (by omega) (by omega) (by omega) (by omega) (by omega), Nat.two_pow_pos 32⟩

theorem WordFits.vmaxVs (d : BitVec 4) (a : BitVec 4) (q : Src) (rm : RMode) : WordFits.Statement (.vmaxVs d a q rm) := by
  have h0 := d.isLt
  have h1 := a.isLt
  have h2 := src_code_lt q
  have h3 := rmode_lt rm
  exact ⟨enc_vs_lt (by omega) (by omega) (by omega) (by omega) (by omega) (by omega), Nat.two_pow_pos 32⟩

theorem WordFits.vandVs (d : BitVec 4) (a : BitVec 4) (q : Src) (rm : BitVec 3) : WordFits.Statement (.vandVs d a q rm) := by
  have h0 := d.isLt
  have h1 := a.isLt
  have h2 := src_code_lt q
  have h3 := rm.isLt
  exact ⟨enc_vs_lt (by omega) (by omega) (by omega) (by omega) (by omega) (by omega), Nat.two_pow_pos 32⟩

theorem WordFits.vorVs (d : BitVec 4) (a : BitVec 4) (q : Src) (rm : BitVec 3) : WordFits.Statement (.vorVs d a q rm) := by
  have h0 := d.isLt
  have h1 := a.isLt
  have h2 := src_code_lt q
  have h3 := rm.isLt
  exact ⟨enc_vs_lt (by omega) (by omega) (by omega) (by omega) (by omega) (by omega), Nat.two_pow_pos 32⟩

theorem WordFits.vxorVs (d : BitVec 4) (a : BitVec 4) (q : Src) (rm : BitVec 3) : WordFits.Statement (.vxorVs d a q rm) := by
  have h0 := d.isLt
  have h1 := a.isLt
  have h2 := src_code_lt q
  have h3 := rm.isLt
  exact ⟨enc_vs_lt (by omega) (by omega) (by omega) (by omega) (by omega) (by omega), Nat.two_pow_pos 32⟩

theorem WordFits.vshlVs (d : BitVec 4) (a : BitVec 4) (q : Src) (rm : BitVec 3) : WordFits.Statement (.vshlVs d a q rm) := by
  have h0 := d.isLt
  have h1 := a.isLt
  have h2 := src_code_lt q
  have h3 := rm.isLt
  exact ⟨enc_vs_lt (by omega) (by omega) (by omega) (by omega) (by omega) (by omega), Nat.two_pow_pos 32⟩

theorem WordFits.vshrVs (d : BitVec 4) (a : BitVec 4) (q : Src) (rm : BitVec 3) : WordFits.Statement (.vshrVs d a q rm) := by
  have h0 := d.isLt
  have h1 := a.isLt
  have h2 := src_code_lt q
  have h3 := rm.isLt
  exact ⟨enc_vs_lt (by omega) (by omega) (by omega) (by omega) (by omega) (by omega), Nat.two_pow_pos 32⟩

theorem WordFits.vcmpVs (d : BitVec 4) (a : BitVec 4) (q : Src) (rm : BitVec 3) (k : Cond) : WordFits.Statement (.vcmpVs d a q rm k) := by
  have h0 := d.isLt
  have h1 := a.isLt
  have h2 := src_code_lt q
  have h3 := rm.isLt
  have h4 := cond_lt k
  exact ⟨enc_vs_lt (by omega) (by omega) (by omega) (by omega) (by omega) (by omega), Nat.two_pow_pos 32⟩

theorem WordFits.vcvt (d : BitVec 4) (a : BitVec 4) (rm : RMode) : WordFits.Statement (.vcvt d a rm) := by
  have h0 := d.isLt
  have h1 := a.isLt
  have h2 := rmode_lt rm
  exact ⟨enc_v_lt (by omega) (by omega) (by omega) (by omega) (by omega) (by omega) (by omega), Nat.two_pow_pos 32⟩

theorem WordFits.vquant (d : BitVec 4) (a : BitVec 4) (b : BitVec 4) (sr : Bool) : WordFits.Statement (.vquant d a b sr) := by
  have h0 := d.isLt
  have h1 := a.isLt
  have h2 := b.isLt
  have h3 := bool_lt sr
  exact ⟨enc_v_lt (by omega) (by omega) (by omega) (by omega) (by omega) (by omega) (by omega), Nat.two_pow_pos 32⟩

theorem WordFits.vdeq (d : BitVec 4) (a : BitVec 4) (b : BitVec 4) (rm : RMode) : WordFits.Statement (.vdeq d a b rm) := by
  have h0 := d.isLt
  have h1 := a.isLt
  have h2 := b.isLt
  have h3 := rmode_lt rm
  exact ⟨enc_v_lt (by omega) (by omega) (by omega) (by omega) (by omega) (by omega) (by omega), Nat.two_pow_pos 32⟩

theorem WordFits.vexp2 (d : BitVec 4) (a : BitVec 4) (rm : RMode) : WordFits.Statement (.vexp2 d a rm) := by
  have h0 := d.isLt
  have h1 := a.isLt
  have h2 := rmode_lt rm
  exact ⟨enc_v_lt (by omega) (by omega) (by omega) (by omega) (by omega) (by omega) (by omega), Nat.two_pow_pos 32⟩

theorem WordFits.vlog2 (d : BitVec 4) (a : BitVec 4) (rm : RMode) : WordFits.Statement (.vlog2 d a rm) := by
  have h0 := d.isLt
  have h1 := a.isLt
  have h2 := rmode_lt rm
  exact ⟨enc_v_lt (by omega) (by omega) (by omega) (by omega) (by omega) (by omega) (by omega), Nat.two_pow_pos 32⟩

theorem WordFits.vrcp (d : BitVec 4) (a : BitVec 4) (rm : RMode) : WordFits.Statement (.vrcp d a rm) := by
  have h0 := d.isLt
  have h1 := a.isLt
  have h2 := rmode_lt rm
  exact ⟨enc_v_lt (by omega) (by omega) (by omega) (by omega) (by omega) (by omega) (by omega), Nat.two_pow_pos 32⟩

theorem WordFits.vrsqrt (d : BitVec 4) (a : BitVec 4) (rm : RMode) : WordFits.Statement (.vrsqrt d a rm) := by
  have h0 := d.isLt
  have h1 := a.isLt
  have h2 := rmode_lt rm
  exact ⟨enc_v_lt (by omega) (by omega) (by omega) (by omega) (by omega) (by omega) (by omega), Nat.two_pow_pos 32⟩

theorem WordFits.vtanh (d : BitVec 4) (a : BitVec 4) (rm : RMode) : WordFits.Statement (.vtanh d a rm) := by
  have h0 := d.isLt
  have h1 := a.isLt
  have h2 := rmode_lt rm
  exact ⟨enc_v_lt (by omega) (by omega) (by omega) (by omega) (by omega) (by omega) (by omega), Nat.two_pow_pos 32⟩

theorem WordFits.vrsum (d : BitVec 4) (a : BitVec 4) (rm : RMode) : WordFits.Statement (.vrsum d a rm) := by
  have h0 := d.isLt
  have h1 := a.isLt
  have h2 := rmode_lt rm
  exact ⟨enc_v_lt (by omega) (by omega) (by omega) (by omega) (by omega) (by omega) (by omega), Nat.two_pow_pos 32⟩

theorem WordFits.vrmax (d : BitVec 4) (a : BitVec 4) (rm : RMode) : WordFits.Statement (.vrmax d a rm) := by
  have h0 := d.isLt
  have h1 := a.isLt
  have h2 := rmode_lt rm
  exact ⟨enc_v_lt (by omega) (by omega) (by omega) (by omega) (by omega) (by omega) (by omega), Nat.two_pow_pos 32⟩

theorem WordFits.vamax (d : BitVec 4) (a : BitVec 4) (rm : RMode) : WordFits.Statement (.vamax d a rm) := by
  have h0 := d.isLt
  have h1 := a.isLt
  have h2 := rmode_lt rm
  exact ⟨enc_v_lt (by omega) (by omega) (by omega) (by omega) (by omega) (by omega) (by omega), Nat.two_pow_pos 32⟩

theorem WordFits.vscan (d : BitVec 4) (a : BitVec 4) (rm : RMode) : WordFits.Statement (.vscan d a rm) := by
  have h0 := d.isLt
  have h1 := a.isLt
  have h2 := rmode_lt rm
  exact ⟨enc_v_lt (by omega) (by omega) (by omega) (by omega) (by omega) (by omega) (by omega), Nat.two_pow_pos 32⟩

theorem WordFits.vgather (d : BitVec 4) (a : BitVec 4) (rm : BitVec 3) : WordFits.Statement (.vgather d a rm) := by
  have h0 := d.isLt
  have h1 := a.isLt
  have h2 := rm.isLt
  exact ⟨enc_v_lt (by omega) (by omega) (by omega) (by omega) (by omega) (by omega) (by omega), Nat.two_pow_pos 32⟩

theorem WordFits.vscatter (a : BitVec 4) (b : BitVec 4) (rm : BitVec 3) : WordFits.Statement (.vscatter a b rm) := by
  have h0 := a.isLt
  have h1 := b.isLt
  have h2 := rm.isLt
  exact ⟨enc_v_lt (by omega) (by omega) (by omega) (by omega) (by omega) (by omega) (by omega), Nat.two_pow_pos 32⟩

theorem WordFits.vcopy (d : BitVec 4) (a : BitVec 4) (rm : BitVec 3) : WordFits.Statement (.vcopy d a rm) := by
  have h0 := d.isLt
  have h1 := a.isLt
  have h2 := rm.isLt
  exact ⟨enc_v_lt (by omega) (by omega) (by omega) (by omega) (by omega) (by omega) (by omega), Nat.two_pow_pos 32⟩

theorem WordFits.shset (d : BitVec 4) (q : Src) (rm : BitVec 3) : WordFits.Statement (.shset d q rm) := by
  have h0 := d.isLt
  have h1 := src_code_lt q
  have h2 := rm.isLt
  exact ⟨enc_vs_lt (by omega) (by omega) (by omega) (by omega) (by omega) (by omega), Nat.two_pow_pos 32⟩

theorem WordFits.vfill (d : BitVec 4) (q : Src) (rm : RMode) : WordFits.Statement (.vfill d q rm) := by
  have h0 := d.isLt
  have h1 := src_code_lt q
  have h2 := rmode_lt rm
  exact ⟨enc_vs_lt (by omega) (by omega) (by omega) (by omega) (by omega) (by omega), Nat.two_pow_pos 32⟩

theorem WordFits.viota (d : BitVec 4) (q : Src) (rm : BitVec 3) : WordFits.Statement (.viota d q rm) := by
  have h0 := d.isLt
  have h1 := src_code_lt q
  have h2 := rm.isLt
  exact ⟨enc_vs_lt (by omega) (by omega) (by omega) (by omega) (by omega) (by omega), Nat.two_pow_pos 32⟩

theorem WordFits.vchain (n : BitVec 3) : WordFits.Statement (.vchain n) := by
  have h0 := n.isLt
  exact ⟨enc_v_lt (by omega) (by omega) (by omega) (by omega) (by omega) (by omega) (by omega), Nat.two_pow_pos 32⟩

theorem WordFits.vbulk (d : BitVec 4) (a : BitVec 4) (rm : RMode) (f : Trans) : WordFits.Statement (.vbulk d a rm f) := by
  have h0 := d.isLt
  have h1 := a.isLt
  have h2 := rmode_lt rm
  have h3 := trans_lt f
  exact ⟨enc_v_lt (by omega) (by omega) (by omega) (by omega) (by omega) (by omega) (by omega), Nat.two_pow_pos 32⟩

theorem WordFits.vrun (e : BitVec 12) : WordFits.Statement (.vrun e) := by
  have h0 := e.isLt
  exact ⟨enc_e_lt (by omega) (by omega) (by omega), Nat.two_pow_pos 32⟩

theorem WordFits.vend : WordFits.Statement .vend := by
  exact ⟨enc_e_lt (by omega) (by omega) (by omega), Nat.two_pow_pos 32⟩

theorem WordFits.xcopy (ch : BitVec 3) (a : Src) : WordFits.Statement (.xcopy ch a) := by
  have h0 := ch.isLt
  have h1 := src_code_lt a
  exact ⟨enc_xt_lt (by omega) (by omega) (by omega) (by omega) (by omega) (by omega), Nat.two_pow_pos 32⟩

theorem WordFits.xtile (ch : BitVec 3) (a : Src) (b : Src) : WordFits.Statement (.xtile ch a b) := by
  have h0 := ch.isLt
  have h1 := src_code_lt a
  have h2 := src_code_lt b
  exact ⟨enc_xt_lt (by omega) (by omega) (by omega) (by omega) (by omega) (by omega), Nat.two_pow_pos 32⟩

theorem WordFits.xmeta (ch : BitVec 3) (a : Src) (b : Src) : WordFits.Statement (.xmeta ch a b) := by
  have h0 := ch.isLt
  have h1 := src_code_lt a
  have h2 := src_code_lt b
  exact ⟨enc_xt_lt (by omega) (by omega) (by omega) (by omega) (by omega) (by omega), Nat.two_pow_pos 32⟩

theorem WordFits.xgather (ch : BitVec 3) (a : Src) (b : Src) : WordFits.Statement (.xgather ch a b) := by
  have h0 := ch.isLt
  have h1 := src_code_lt a
  have h2 := src_code_lt b
  exact ⟨enc_xt_lt (by omega) (by omega) (by omega) (by omega) (by omega) (by omega), Nat.two_pow_pos 32⟩

theorem WordFits.xfill (ch : BitVec 3) (a : Src) (b : Src) : WordFits.Statement (.xfill ch a b) := by
  have h0 := ch.isLt
  have h1 := src_code_lt a
  have h2 := src_code_lt b
  exact ⟨enc_xt_lt (by omega) (by omega) (by omega) (by omega) (by omega) (by omega), Nat.two_pow_pos 32⟩

theorem WordFits.xred (ch : BitVec 3) (a : Src) (b : Src) : WordFits.Statement (.xred ch a b) := by
  have h0 := ch.isLt
  have h1 := src_code_lt a
  have h2 := src_code_lt b
  exact ⟨enc_xt_lt (by omega) (by omega) (by omega) (by omega) (by omega) (by omega), Nat.two_pow_pos 32⟩

theorem WordFits.xsig (ch : BitVec 3) (a : Src) (b : Src) (sc : Scope) : WordFits.Statement (.xsig ch a b sc) := by
  have h0 := ch.isLt
  have h1 := src_code_lt a
  have h2 := src_code_lt b
  have h3 := scope_lt sc
  exact ⟨enc_xt_lt (by omega) (by omega) (by omega) (by omega) (by omega) (by omega), Nat.two_pow_pos 32⟩

theorem WordFits.xbar (ch : BitVec 3) (a : Src) (b : Src) (sc : Scope) : WordFits.Statement (.xbar ch a b sc) := by
  have h0 := ch.isLt
  have h1 := src_code_lt a
  have h2 := src_code_lt b
  have h3 := scope_lt sc
  exact ⟨enc_xt_lt (by omega) (by omega) (by omega) (by omega) (by omega) (by omega), Nat.two_pow_pos 32⟩

theorem WordFits.xwrap (ch : BitVec 3) (a : Src) (b : Src) : WordFits.Statement (.xwrap ch a b) := by
  have h0 := ch.isLt
  have h1 := src_code_lt a
  have h2 := src_code_lt b
  exact ⟨enc_xt_lt (by omega) (by omega) (by omega) (by omega) (by omega) (by omega), Nat.two_pow_pos 32⟩

theorem WordFits.xrcnt (ch : BitVec 3) (a : Src) : WordFits.Statement (.xrcnt ch a) := by
  have h0 := ch.isLt
  have h1 := src_code_lt a
  exact ⟨enc_xt_lt (by omega) (by omega) (by omega) (by omega) (by omega) (by omega), Nat.two_pow_pos 32⟩

theorem WordFits.xjob (ch : BitVec 3) (a : Src) : WordFits.Statement (.xjob ch a) := by
  have h0 := ch.isLt
  have h1 := src_code_lt a
  exact ⟨enc_xt_lt (by omega) (by omega) (by omega) (by omega) (by omega) (by omega), Nat.two_pow_pos 32⟩

theorem WordFits.xfoot (ch : BitVec 3) (a : Src) (b : Src) : WordFits.Statement (.xfoot ch a b) := by
  have h0 := ch.isLt
  have h1 := src_code_lt a
  have h2 := src_code_lt b
  exact ⟨enc_xt_lt (by omega) (by omega) (by omega) (by omega) (by omega) (by omega), Nat.two_pow_pos 32⟩

theorem WordFits.xchain (ch : BitVec 3) (a : Src) (b : Src) (sc : Scope) : WordFits.Statement (.xchain ch a b sc) := by
  have h0 := ch.isLt
  have h1 := src_code_lt a
  have h2 := src_code_lt b
  have h3 := scope_lt sc
  exact ⟨enc_xt_lt (by omega) (by omega) (by omega) (by omega) (by omega) (by omega), Nat.two_pow_pos 32⟩

theorem WordFits.xrun (ch : BitVec 3) (e : BitVec 12) : WordFits.Statement (.xrun ch e) := by
  have h0 := ch.isLt
  have h1 := e.isLt
  exact ⟨enc_e_lt (by omega) (by omega) (by omega), Nat.two_pow_pos 32⟩

theorem WordFits.xend : WordFits.Statement .xend := by
  exact ⟨enc_e_lt (by omega) (by omega) (by omega), Nat.two_pow_pos 32⟩

theorem WordFits.mma (d : BitVec 4) (a : BitVec 4) (b : BitVec 4) (m : BitVec 2) (q : BitVec 7) : WordFits.Statement (.mma d a b m q) := by
  have h0 := d.isLt
  have h1 := a.isLt
  have h2 := b.isLt
  have h3 := m.isLt
  have h4 := q.isLt
  exact ⟨enc_xm_lt (by omega) (by omega) (by omega) (by omega) (by omega) (by omega) (by omega), Nat.two_pow_pos 32⟩

theorem WordFits.mmas (d : BitVec 4) (a : BitVec 4) (b : BitVec 4) (m : BitVec 2) (q : BitVec 7) : WordFits.Statement (.mmas d a b m q) := by
  have h0 := d.isLt
  have h1 := a.isLt
  have h2 := b.isLt
  have h3 := m.isLt
  have h4 := q.isLt
  exact ⟨enc_xm_lt (by omega) (by omega) (by omega) (by omega) (by omega) (by omega) (by omega), Nat.two_pow_pos 32⟩

theorem WordFits.mzero (d : BitVec 4) (q : BitVec 7) : WordFits.Statement (.mzero d q) := by
  have h0 := d.isLt
  have h1 := q.isLt
  exact ⟨enc_xm_lt (by omega) (by omega) (by omega) (by omega) (by omega) (by omega) (by omega), Nat.two_pow_pos 32⟩

theorem WordFits.mnarrow (d : BitVec 4) (a : BitVec 4) (q : BitVec 7) : WordFits.Statement (.mnarrow d a q) := by
  have h0 := d.isLt
  have h1 := a.isLt
  have h2 := q.isLt
  exact ⟨enc_xm_lt (by omega) (by omega) (by omega) (by omega) (by omega) (by omega) (by omega), Nat.two_pow_pos 32⟩

theorem WordFits.mtrans (d : BitVec 4) (a : BitVec 4) (q : BitVec 7) : WordFits.Statement (.mtrans d a q) := by
  have h0 := d.isLt
  have h1 := a.isLt
  have h2 := q.isLt
  exact ⟨enc_xm_lt (by omega) (by omega) (by omega) (by omega) (by omega) (by omega) (by omega), Nat.two_pow_pos 32⟩

theorem WordFits.mown (n : BitVec 4) (q : Src) : WordFits.Statement (.mown n q) := by
  have h0 := n.isLt
  have h1 := src_code_lt q
  exact ⟨enc_xm_lt (by omega) (by omega) (by omega) (by omega) (by omega) (by omega) (by omega), Nat.two_pow_pos 32⟩

theorem WordFits.mrel (n : BitVec 4) (q : Src) : WordFits.Statement (.mrel n q) := by
  have h0 := n.isLt
  have h1 := src_code_lt q
  exact ⟨enc_xm_lt (by omega) (by omega) (by omega) (by omega) (by omega) (by omega) (by omega), Nat.two_pow_pos 32⟩

theorem WordFits.msync (q : BitVec 7) : WordFits.Statement (.msync q) := by
  have h0 := q.isLt
  exact ⟨enc_xm_lt (by omega) (by omega) (by omega) (by omega) (by omega) (by omega) (by omega), Nat.two_pow_pos 32⟩

theorem WordFits.mrun (e : BitVec 12) : WordFits.Statement (.mrun e) := by
  have h0 := e.isLt
  exact ⟨enc_e_lt (by omega) (by omega) (by omega), Nat.two_pow_pos 32⟩

theorem WordFits.mend : WordFits.Statement .mend := by
  exact ⟨enc_e_lt (by omega) (by omega) (by omega), Nat.two_pow_pos 32⟩

theorem WordFits.hld (d : BitVec 4) (base : BitVec 5) (off : BitVec 13) (sp : Bool) : WordFits.Statement (.hld d base off sp) := by
  have h0 := d.isLt
  have h1 := base.isLt
  have h2 := off.isLt
  have h3 := bool_lt sp
  exact ⟨enc_m_lt (by omega) (by omega) (by omega) (by omega) (by omega), Nat.two_pow_pos 32⟩

theorem WordFits.hst (d : BitVec 4) (base : BitVec 5) (off : BitVec 13) (sp : Bool) : WordFits.Statement (.hst d base off sp) := by
  have h0 := d.isLt
  have h1 := base.isLt
  have h2 := off.isLt
  have h3 := bool_lt sp
  exact ⟨enc_m_lt (by omega) (by omega) (by omega) (by omega) (by omega), Nat.two_pow_pos 32⟩

theorem WordFits.hxor (d : BitVec 4) (a : BitVec 4) (b : BitVec 4) : WordFits.Statement (.hxor d a b) := by
  have h0 := d.isLt
  have h1 := a.isLt
  have h2 := b.isLt
  exact ⟨enc_h_lt (by omega) (by omega) (by omega) (by omega) (by omega) (by omega), Nat.two_pow_pos 32⟩

theorem WordFits.hrot (d : BitVec 4) (a : BitVec 4) (q : Src) : WordFits.Statement (.hrot d a q) := by
  have h0 := d.isLt
  have h1 := a.isLt
  have h2 := src_code_lt q
  exact ⟨enc_h_lt (by omega) (by omega) (by omega) (by omega) (by omega) (by omega), Nat.two_pow_pos 32⟩

theorem WordFits.hrotImm (d : BitVec 4) (a : BitVec 4) (imm : BitVec 12) : WordFits.Statement (.hrotImm d a imm) := by
  have h0 := d.isLt
  have h1 := a.isLt
  have h2 := imm.isLt
  exact ⟨enc_hi_lt (by omega) (by omega) (by omega) (by omega), Nat.two_pow_pos 32⟩

theorem WordFits.hacc (d : BitVec 2) (a : BitVec 4) (q : Src) : WordFits.Statement (.hacc d a q) := by
  have h0 := d.isLt
  have h1 := a.isLt
  have h2 := src_code_lt q
  exact ⟨enc_h_lt (by omega) (by omega) (by omega) (by omega) (by omega) (by omega), Nat.two_pow_pos 32⟩

theorem WordFits.hthr (d : BitVec 4) (a : BitVec 2) : WordFits.Statement (.hthr d a) := by
  have h0 := d.isLt
  have h1 := a.isLt
  exact ⟨enc_h_lt (by omega) (by omega) (by omega) (by omega) (by omega) (by omega), Nat.two_pow_pos 32⟩

theorem WordFits.hclr (d : BitVec 4) : WordFits.Statement (.hclr d) := by
  have h0 := d.isLt
  exact ⟨enc_h_lt (by omega) (by omega) (by omega) (by omega) (by omega) (by omega), Nat.two_pow_pos 32⟩

theorem WordFits.hpop (d : BitVec 5) (a : BitVec 4) (b : BitVec 4) : WordFits.Statement (.hpop d a b) := by
  have h0 := d.isLt
  have h1 := a.isLt
  have h2 := b.isLt
  exact ⟨enc_h_lt (by omega) (by omega) (by omega) (by omega) (by omega) (by omega), Nat.two_pow_pos 32⟩

theorem WordFits.hrnd (d : BitVec 4) (q : Src) : WordFits.Statement (.hrnd d q) := by
  have h0 := d.isLt
  have h1 := src_code_lt q
  exact ⟨enc_h_lt (by omega) (by omega) (by omega) (by omega) (by omega) (by omega), Nat.two_pow_pos 32⟩

theorem WordFits.htie (a : BitVec 4) : WordFits.Statement (.htie a) := by
  have h0 := a.isLt
  exact ⟨enc_h_lt (by omega) (by omega) (by omega) (by omega) (by omega) (by omega), Nat.two_pow_pos 32⟩

theorem WordFits.htieSeed (q : Src) : WordFits.Statement (.htieSeed q) := by
  have h0 := src_code_lt q
  exact ⟨enc_h_lt (by omega) (by omega) (by omega) (by omega) (by omega) (by omega), Nat.two_pow_pos 32⟩

theorem WordFits.htieZero : WordFits.Statement .htieZero := by
  exact ⟨enc_h_lt (by omega) (by omega) (by omega) (by omega) (by omega) (by omega), Nat.two_pow_pos 32⟩

theorem WordFits.hclrW4 (d : BitVec 2) : WordFits.Statement (.hclrW4 d) := by
  have h0 := d.isLt
  exact ⟨enc_h_lt (by omega) (by omega) (by omega) (by omega) (by omega) (by omega), Nat.two_pow_pos 32⟩

theorem WordFits.hclrW8 (d : BitVec 2) : WordFits.Statement (.hclrW8 d) := by
  have h0 := d.isLt
  exact ⟨enc_h_lt (by omega) (by omega) (by omega) (by omega) (by omega) (by omega), Nat.two_pow_pos 32⟩

theorem WordFits.hamw (a : BitVec 4) (q : Src) : WordFits.Statement (.hamw a q) := by
  have h0 := a.isLt
  have h1 := src_code_lt q
  exact ⟨enc_h_lt (by omega) (by omega) (by omega) (by omega) (by omega) (by omega), Nat.two_pow_pos 32⟩

theorem WordFits.hamq (d : BitVec 5) (a : BitVec 4) (q : Src) : WordFits.Statement (.hamq d a q) := by
  have h0 := d.isLt
  have h1 := a.isLt
  have h2 := src_code_lt q
  exact ⟨enc_h_lt (by omega) (by omega) (by omega) (by omega) (by omega) (by omega), Nat.two_pow_pos 32⟩

theorem WordFits.hamk (a : BitVec 4) (q : Src) : WordFits.Statement (.hamk a q) := by
  have h0 := a.isLt
  have h1 := src_code_lt q
  exact ⟨enc_h_lt (by omega) (by omega) (by omega) (by omega) (by omega) (by omega), Nat.two_pow_pos 32⟩

theorem WordFits.hamd (q : Src) : WordFits.Statement (.hamd q) := by
  have h0 := src_code_lt q
  exact ⟨enc_h_lt (by omega) (by omega) (by omega) (by omega) (by omega) (by omega), Nat.two_pow_pos 32⟩

theorem WordFits.wmarm (a : Src) : WordFits.Statement (.wmarm a) := by
  have h0 := src_code_lt a
  exact ⟨enc_i_lt (by omega) (by omega) (by omega) (by omega), Nat.two_pow_pos 32⟩

theorem WordFits.fstat (a : Src) : WordFits.Statement (.fstat a) := by
  have h0 := src_code_lt a
  exact ⟨enc_i_lt (by omega) (by omega) (by omega) (by omega), Nat.two_pow_pos 32⟩

theorem WordFits.rngs (u : Conv) (a : Src) : WordFits.Statement (.rngs u a) := by
  have h0 := src_code_lt a
  cases u <;> exact ⟨enc_i_lt (by omega) (by omega) h0 (by omega), Nat.two_pow_pos 32⟩

theorem WordFits.tiesw (k : BitVec 6) (a : Src) : WordFits.Statement (.tiesw k a) := by
  have h0 := k.isLt
  have h1 := src_code_lt a
  exact ⟨enc_i_lt (by omega) (by omega) (by omega) (by omega), Nat.two_pow_pos 32⟩

theorem WordFits.chOrg (ch : BitVec 3) (a : Src) : WordFits.Statement (.chOrg ch a) := by
  have h0 := ch.isLt
  have h1 := src_code_lt a
  exact ⟨enc_i_lt (by omega) (by omega) (by omega) (by omega), Nat.two_pow_pos 32⟩

theorem WordFits.bundleIssue (n : Nat) : WordFits.Statement (.bundleIssue n) := ⟨Nat.two_pow_pos 32, Nat.two_pow_pos 32⟩

theorem WordFits.loadCompletion (n : Nat) (k : Nat) : WordFits.Statement (.loadCompletion n k) := ⟨Nat.two_pow_pos 32, Nat.two_pow_pos 32⟩

theorem WordFits.writePerformed (n : Nat) (k : Nat) : WordFits.Statement (.writePerformed n k) := ⟨Nat.two_pow_pos 32, Nat.two_pow_pos 32⟩

theorem WordFits.macroEntryCompletion (n : Nat) (u : Unit8) : WordFits.Statement (.macroEntryCompletion n u) := ⟨Nat.two_pow_pos 32, Nat.two_pow_pos 32⟩

theorem WordFits.crRelease (k : Nat) : WordFits.Statement (.crRelease k) := ⟨Nat.two_pow_pos 32, Nat.two_pow_pos 32⟩

theorem WordFits.crPop (n : Nat) : WordFits.Statement (.crPop n) := ⟨Nat.two_pow_pos 32, Nat.two_pow_pos 32⟩

theorem WordFits.joinApply (k : Nat) : WordFits.Statement (.joinApply k) := ⟨Nat.two_pow_pos 32, Nat.two_pow_pos 32⟩

theorem WordFits.deadlinePassed (n : Nat) : WordFits.Statement (.deadlinePassed n) := ⟨Nat.two_pow_pos 32, Nat.two_pow_pos 32⟩

theorem WordFits.crAging (k : Nat) : WordFits.Statement (.crAging k) := ⟨Nat.two_pow_pos 32, Nat.two_pow_pos 32⟩

theorem WordFits.preemption (n : Nat) : WordFits.Statement (.preemption n) := ⟨Nat.two_pow_pos 32, Nat.two_pow_pos 32⟩

theorem WordFits.waitLimit (n : Nat) : WordFits.Statement (.waitLimit n) := ⟨Nat.two_pow_pos 32, Nat.two_pow_pos 32⟩

theorem WordFits.waitReread (n : Nat) : WordFits.Statement (.waitReread n) := ⟨Nat.two_pow_pos 32, Nat.two_pow_pos 32⟩

theorem WordFits.freeze (n : Nat) : WordFits.Statement (.freeze n) := ⟨Nat.two_pow_pos 32, Nat.two_pow_pos 32⟩

theorem WordFits.trapDelivery (n : Nat) : WordFits.Statement (.trapDelivery n) := ⟨Nat.two_pow_pos 32, Nat.two_pow_pos 32⟩

theorem WordFits.pageFaultSave (n : Nat) : WordFits.Statement (.pageFaultSave n) := ⟨Nat.two_pow_pos 32, Nat.two_pow_pos 32⟩

theorem WordFits.resolve (tag : Nat) : WordFits.Statement (.resolve tag) := ⟨Nat.two_pow_pos 32, Nat.two_pow_pos 32⟩

theorem WordFits.requestTimeout (n : Nat) (k : Nat) : WordFits.Statement (.requestTimeout n k) := ⟨Nat.two_pow_pos 32, Nat.two_pow_pos 32⟩

theorem WordFits.lateDrop (n : Nat) (tag : Nat) (gen : Nat) : WordFits.Statement (.lateDrop n tag gen) := ⟨Nat.two_pow_pos 32, Nat.two_pow_pos 32⟩

theorem WordFits.err (n : Nat) (k : Nat) (e : FailCause) : WordFits.Statement (.err n k e) := ⟨Nat.two_pow_pos 32, Nat.two_pow_pos 32⟩

theorem WordFits.delayedFailureReport (n : Nat) (k : Nat) : WordFits.Statement (.delayedFailureReport n k) := ⟨Nat.two_pow_pos 32, Nat.two_pow_pos 32⟩

theorem WordFits.dataPoison (n : Nat) (k : Nat) : WordFits.Statement (.dataPoison n k) := ⟨Nat.two_pow_pos 32, Nat.two_pow_pos 32⟩

theorem WordFits.rs (k : Nat) : WordFits.Statement (.rs k) := ⟨Nat.two_pow_pos 32, Nat.two_pow_pos 32⟩

theorem WordFits.rx (k : Nat) : WordFits.Statement (.rx k) := ⟨Nat.two_pow_pos 32, Nat.two_pow_pos 32⟩

theorem WordFits.up (k : Nat) : WordFits.Statement (.up k) := ⟨Nat.two_pow_pos 32, Nat.two_pow_pos 32⟩

theorem WordFits.gr (k : Nat) : WordFits.Statement (.gr k) := ⟨Nat.two_pow_pos 32, Nat.two_pow_pos 32⟩

theorem WordFits.gw (k : Nat) : WordFits.Statement (.gw k) := ⟨Nat.two_pow_pos 32, Nat.two_pow_pos 32⟩

theorem WordFits.em (k : Nat) : WordFits.Statement (.em k) := ⟨Nat.two_pow_pos 32, Nat.two_pow_pos 32⟩

theorem WordFits.drop (k : Nat) : WordFits.Statement (.drop k) := ⟨Nat.two_pow_pos 32, Nat.two_pow_pos 32⟩

theorem WordFits.flush (k : Nat) : WordFits.Statement (.flush k) := ⟨Nat.two_pow_pos 32, Nat.two_pow_pos 32⟩

theorem WordFits.fwd (k : Nat) : WordFits.Statement (.fwd k) := ⟨Nat.two_pow_pos 32, Nat.two_pow_pos 32⟩

theorem WordFits.fwdInv (k : Nat) : WordFits.Statement (.fwdInv k) := ⟨Nat.two_pow_pos 32, Nat.two_pow_pos 32⟩

theorem WordFits.inv (k : Nat) : WordFits.Statement (.inv k) := ⟨Nat.two_pow_pos 32, Nat.two_pow_pos 32⟩

theorem WordFits.recall (k : Nat) : WordFits.Statement (.recall k) := ⟨Nat.two_pow_pos 32, Nat.two_pow_pos 32⟩

theorem WordFits.data (k : Nat) : WordFits.Statement (.data k) := ⟨Nat.two_pow_pos 32, Nat.two_pow_pos 32⟩

theorem WordFits.ack (k : Nat) : WordFits.Statement (.ack k) := ⟨Nat.two_pow_pos 32, Nat.two_pow_pos 32⟩

theorem WordFits.gone (k : Nat) : WordFits.Statement (.gone k) := ⟨Nat.two_pow_pos 32, Nat.two_pow_pos 32⟩

theorem WordFits.bi (tile : Nat) : WordFits.Statement (.bi tile) := ⟨Nat.two_pow_pos 32, Nat.two_pow_pos 32⟩

theorem WordFits.biD (tile : Nat) : WordFits.Statement (.biD tile) := ⟨Nat.two_pow_pos 32, Nat.two_pow_pos 32⟩

theorem WordFits.remoteRead (dev : Nat) (tile : Nat) : WordFits.Statement (.remoteRead dev tile) := ⟨Nat.two_pow_pos 32, Nat.two_pow_pos 32⟩

theorem WordFits.remoteExclusive (dev : Nat) (tile : Nat) : WordFits.Statement (.remoteExclusive dev tile) := ⟨Nat.two_pow_pos 32, Nat.two_pow_pos 32⟩

theorem WordFits.replicaDrop (dev : Nat) (tile : Nat) (data : List (Nat × Byte)) : WordFits.Statement (.replicaDrop dev tile data) := ⟨Nat.two_pow_pos 32, Nat.two_pow_pos 32⟩

theorem WordFits.biTimeout (dev : Nat) (tile : Nat) : WordFits.Statement (.biTimeout dev tile) := ⟨Nat.two_pow_pos 32, Nat.two_pow_pos 32⟩

theorem WordFits.lineMigration (line : Nat) : WordFits.Statement (.lineMigration line) := ⟨Nat.two_pow_pos 32, Nat.two_pow_pos 32⟩

theorem WordFits.sbarHomeStep (pa : Nat) : WordFits.Statement (.sbarHomeStep pa) := ⟨Nat.two_pow_pos 32, Nat.two_pow_pos 32⟩

theorem WordFits.jobCard (n : Nat) (ch : BitVec 3) : WordFits.Statement (.jobCard n ch) := ⟨Nat.two_pow_pos 32, Nat.two_pow_pos 32⟩

theorem WordFits.init : WordFits.Statement .init := ⟨Nat.two_pow_pos 32, Nat.two_pow_pos 32⟩

theorem WordFits.create : WordFits.Statement .create := ⟨Nat.two_pow_pos 32, Nat.two_pow_pos 32⟩

theorem WordFits.destroy : WordFits.Statement .destroy := ⟨Nat.two_pow_pos 32, Nat.two_pow_pos 32⟩

theorem WordFits.qopen : WordFits.Statement .qopen := ⟨Nat.two_pow_pos 32, Nat.two_pow_pos 32⟩

theorem WordFits.qclose : WordFits.Statement .qclose := ⟨Nat.two_pow_pos 32, Nat.two_pow_pos 32⟩

theorem WordFits.shoot : WordFits.Statement .shoot := ⟨Nat.two_pow_pos 32, Nat.two_pow_pos 32⟩

theorem WordFits.memwr : WordFits.Statement .memwr := ⟨Nat.two_pow_pos 32, Nat.two_pow_pos 32⟩

theorem WordFits.memrd : WordFits.Statement .memrd := ⟨Nat.two_pow_pos 32, Nat.two_pow_pos 32⟩

theorem WordFits.attest : WordFits.Statement .attest := ⟨Nat.two_pow_pos 32, Nat.two_pow_pos 32⟩

theorem WordFits.recChunk : WordFits.Statement .recChunk := ⟨Nat.two_pow_pos 32, Nat.two_pow_pos 32⟩

theorem WordFits.recBoot : WordFits.Statement .recBoot := ⟨Nat.two_pow_pos 32, Nat.two_pow_pos 32⟩

theorem WordFits.enetq : WordFits.Statement .enetq := ⟨Nat.two_pow_pos 32, Nat.two_pow_pos 32⟩

theorem WordFits.mailboxReply : WordFits.Statement .mailboxReply := ⟨Nat.two_pow_pos 32, Nat.two_pow_pos 32⟩

theorem WordFits.qtail (q : Nat) (v : Word) : WordFits.Statement (.qtail q v) := ⟨Nat.two_pow_pos 32, Nat.two_pow_pos 32⟩

theorem WordFits.fdomf (k : Nat) (v : Word) : WordFits.Statement (.fdomf k v) := ⟨Nat.two_pow_pos 32, Nat.two_pow_pos 32⟩

theorem WordFits.mbxStat (v : Word) : WordFits.Statement (.mbxStat v) := ⟨Nat.two_pow_pos 32, Nat.two_pow_pos 32⟩

theorem WordFits.clear : WordFits.Statement .clear := ⟨Nat.two_pow_pos 32, Nat.two_pow_pos 32⟩

theorem WordFits.fabId (v : Word) : WordFits.Statement (.fabId v) := ⟨Nat.two_pow_pos 32, Nat.two_pow_pos 32⟩

theorem WordFits.tokenMove : WordFits.Statement .tokenMove := ⟨Nat.two_pow_pos 32, Nat.two_pow_pos 32⟩

theorem WordFits.tokenOffer : WordFits.Statement .tokenOffer := ⟨Nat.two_pow_pos 32, Nat.two_pow_pos 32⟩

theorem WordFits.tokenAccept : WordFits.Statement .tokenAccept := ⟨Nat.two_pow_pos 32, Nat.two_pow_pos 32⟩

theorem WordFits.tokenCommit : WordFits.Statement .tokenCommit := ⟨Nat.two_pow_pos 32, Nat.two_pow_pos 32⟩

theorem WordFits.reconf (p : Nat) : WordFits.Statement (.reconf p) := ⟨Nat.two_pow_pos 32, Nat.two_pow_pos 32⟩

theorem WordFits.relock (p : Nat) : WordFits.Statement (.relock p) := ⟨Nat.two_pow_pos 32, Nat.two_pow_pos 32⟩

theorem WordFits.en (p : Nat) (on : Bool) : WordFits.Statement (.en p on) := ⟨Nat.two_pow_pos 32, Nat.two_pow_pos 32⟩

theorem WordFits.pclr (die : Nat) : WordFits.Statement (.pclr die) := ⟨Nat.two_pow_pos 32, Nat.two_pow_pos 32⟩

theorem WordFits.clr (die : Nat) : WordFits.Statement (.clr die) := ⟨Nat.two_pow_pos 32, Nat.two_pow_pos 32⟩

theorem WordFits.registerWrite (off : Nat) (v : Word) : WordFits.Statement (.registerWrite off v) := ⟨Nat.two_pow_pos 32, Nat.two_pow_pos 32⟩

theorem WordFits.launchQueuePoint (q : Nat) : WordFits.Statement (.launchQueuePoint q) := ⟨Nat.two_pow_pos 32, Nat.two_pow_pos 32⟩

theorem WordFits.undercoatStart (q : Nat) : WordFits.Statement (.undercoatStart q) := ⟨Nat.two_pow_pos 32, Nat.two_pow_pos 32⟩

theorem WordFits.undercoatDiscard (n : Nat) : WordFits.Statement (.undercoatDiscard n) := ⟨Nat.two_pow_pos 32, Nat.two_pow_pos 32⟩

theorem WordFits.chalkLineWrite (n : Nat) : WordFits.Statement (.chalkLineWrite n) := ⟨Nat.two_pow_pos 32, Nat.two_pow_pos 32⟩

theorem WordFits.null (p : Nat) (f : Flit) : WordFits.Statement (.null p f) := ⟨Nat.two_pow_pos 32, Nat.two_pow_pos 32⟩

theorem WordFits.slots (p : Nat) (f : Flit) : WordFits.Statement (.slots p f) := ⟨Nat.two_pow_pos 32, Nat.two_pow_pos 32⟩

theorem WordFits.line (p : Nat) (f : Flit) : WordFits.Statement (.line p f) := ⟨Nat.two_pow_pos 32, Nat.two_pow_pos 32⟩

theorem WordFits.nak (p : Nat) (f : Flit) : WordFits.Statement (.nak p f) := ⟨Nat.two_pow_pos 32, Nat.two_pow_pos 32⟩

theorem WordFits.drain (p : Nat) (f : Flit) : WordFits.Statement (.drain p f) := ⟨Nat.two_pow_pos 32, Nat.two_pow_pos 32⟩

theorem WordFits.ident (p : Nat) (f : Flit) : WordFits.Statement (.ident p f) := ⟨Nat.two_pow_pos 32, Nat.two_pow_pos 32⟩

theorem WordFits.stripe (p : Nat) (f : Flit) : WordFits.Statement (.stripe p f) := ⟨Nat.two_pow_pos 32, Nat.two_pow_pos 32⟩

theorem WordFits.rd (k : Nat) : WordFits.Statement (.rd k) := ⟨Nat.two_pow_pos 32, Nat.two_pow_pos 32⟩

theorem WordFits.wr (k : Nat) : WordFits.Statement (.wr k) := ⟨Nat.two_pow_pos 32, Nat.two_pow_pos 32⟩

theorem WordFits.lwr (k : Nat) : WordFits.Statement (.lwr k) := ⟨Nat.two_pow_pos 32, Nat.two_pow_pos 32⟩

theorem WordFits.cpmsg (k : Nat) : WordFits.Statement (.cpmsg k) := ⟨Nat.two_pow_pos 32, Nat.two_pow_pos 32⟩

theorem WordFits.ackTimer (p : Nat) : WordFits.Statement (.ackTimer p) := ⟨Nat.two_pow_pos 32, Nat.two_pow_pos 32⟩

theorem WordFits.linkRetrain (p : Nat) : WordFits.Statement (.linkRetrain p) := ⟨Nat.two_pow_pos 32, Nat.two_pow_pos 32⟩

theorem WordFits.replayBufferDiscard (p : Nat) : WordFits.Statement (.replayBufferDiscard p) := ⟨Nat.two_pow_pos 32, Nat.two_pow_pos 32⟩

theorem WordFits.signalDetect (p : Nat) (lane : Nat) : WordFits.Statement (.signalDetect p lane) := ⟨Nat.two_pow_pos 32, Nat.two_pow_pos 32⟩

theorem WordFits.laneLock (p : Nat) (lane : Nat) : WordFits.Statement (.laneLock p lane) := ⟨Nat.two_pow_pos 32, Nat.two_pow_pos 32⟩

theorem WordFits.trainTimeout (p : Nat) : WordFits.Statement (.trainTimeout p) := ⟨Nat.two_pow_pos 32, Nat.two_pow_pos 32⟩

theorem WordFits.darkTimeout (p : Nat) : WordFits.Statement (.darkTimeout p) := ⟨Nat.two_pow_pos 32, Nat.two_pow_pos 32⟩

theorem WordFits.berWindow (p : Nat) (lane : Nat) (errs : Nat) : WordFits.Statement (.berWindow p lane errs) := ⟨Nat.two_pow_pos 32, Nat.two_pow_pos 32⟩

theorem WordFits.lossOfLight (p : Nat) (lane : Nat) : WordFits.Statement (.lossOfLight p lane) := ⟨Nat.two_pow_pos 32, Nat.two_pow_pos 32⟩

theorem WordFits.laserFault (k : Nat) : WordFits.Statement (.laserFault k) := ⟨Nat.two_pow_pos 32, Nat.two_pow_pos 32⟩

theorem WordFits.equaliserConverged (p : Nat) (lane : Nat) : WordFits.Statement (.equaliserConverged p lane) := ⟨Nat.two_pow_pos 32, Nat.two_pow_pos 32⟩

theorem WordFits.equaliserTimeout (p : Nat) (lane : Nat) : WordFits.Statement (.equaliserTimeout p lane) := ⟨Nat.two_pow_pos 32, Nat.two_pow_pos 32⟩

theorem WordFits.lightPresent (p : Nat) (lane : Nat) : WordFits.Statement (.lightPresent p lane) := ⟨Nat.two_pow_pos 32, Nat.two_pow_pos 32⟩

theorem WordFits.dack (src : Nat) (vc : Nat) (seq : Nat) : WordFits.Statement (.dack src vc seq) := ⟨Nat.two_pow_pos 32, Nat.two_pow_pos 32⟩

theorem WordFits.routeHoldTimeout (dst : Nat) (vc : Nat) : WordFits.Statement (.routeHoldTimeout dst vc) := ⟨Nat.two_pow_pos 32, Nat.two_pow_pos 32⟩

theorem WordFits.globalPortAnnounce (pos : Nat) (up : Word) : WordFits.Statement (.globalPortAnnounce pos up) := ⟨Nat.two_pow_pos 32, Nat.two_pow_pos 32⟩

theorem WordFits.holdEnd (n : Nat) (k : Nat) : WordFits.Statement (.holdEnd n k) := ⟨Nat.two_pow_pos 32, Nat.two_pow_pos 32⟩

theorem WordFits.cpReachabilityCheck : WordFits.Statement .cpReachabilityCheck := ⟨Nat.two_pow_pos 32, Nat.two_pow_pos 32⟩

theorem WordFits.packageSplit : WordFits.Statement .packageSplit := ⟨Nat.two_pow_pos 32, Nat.two_pow_pos 32⟩

theorem WordFits.ethTxPoll (x : Nat) (q : Nat) : WordFits.Statement (.ethTxPoll x q) := ⟨Nat.two_pow_pos 32, Nat.two_pow_pos 32⟩

theorem WordFits.ethRxFrame (x : Nat) (fcsOk : Bool) (frame : List Byte) : WordFits.Statement (.ethRxFrame x fcsOk frame) := ⟨Nat.two_pow_pos 32, Nat.two_pow_pos 32⟩

theorem WordFits.ethHeldFrameDelivery (x : Nat) : WordFits.Statement (.ethHeldFrameDelivery x) := ⟨Nat.two_pow_pos 32, Nat.two_pow_pos 32⟩

theorem WordFits.ethPause (x : Nat) (prio : Nat) (on : Bool) : WordFits.Statement (.ethPause x prio on) := ⟨Nat.two_pow_pos 32, Nat.two_pow_pos 32⟩

theorem WordFits.ethLinkChange (x : Nat) (up : Bool) : WordFits.Statement (.ethLinkChange x up) := ⟨Nat.two_pow_pos 32, Nat.two_pow_pos 32⟩

theorem WordFits.powerOnReset : WordFits.Statement .powerOnReset := ⟨Nat.two_pow_pos 32, Nat.two_pow_pos 32⟩

theorem WordFits.functionLevelReset : WordFits.Statement .functionLevelReset := ⟨Nat.two_pow_pos 32, Nat.two_pow_pos 32⟩

theorem WordFits.throttleEvaluation : WordFits.Statement .throttleEvaluation := ⟨Nat.two_pow_pos 32, Nat.two_pow_pos 32⟩

theorem WordFits.droop (die : Nat) : WordFits.Statement (.droop die) := ⟨Nat.two_pow_pos 32, Nat.two_pow_pos 32⟩

theorem WordFits.tcrit (die : Nat) : WordFits.Statement (.tcrit die) := ⟨Nat.two_pow_pos 32, Nat.two_pow_pos 32⟩

theorem WordFits.dieLinkModuleFailure (l : Nat) : WordFits.Statement (.dieLinkModuleFailure l) := ⟨Nat.two_pow_pos 32, Nat.two_pow_pos 32⟩

theorem WordFits.searchCompletion (n : Nat) : WordFits.Statement (.searchCompletion n) := ⟨Nat.two_pow_pos 32, Nat.two_pow_pos 32⟩

theorem WordFits.wqueryReply (n : Nat) (k : Nat) : WordFits.Statement (.wqueryReply n k) := ⟨Nat.two_pow_pos 32, Nat.two_pow_pos 32⟩

theorem WordFits.ethTxCompletion (x : Nat) (q : Nat) : WordFits.Statement (.ethTxCompletion x q) := ⟨Nat.two_pow_pos 32, Nat.two_pow_pos 32⟩

theorem WordFits.dackReturn (src : Nat) (vc : Nat) (seq : Nat) : WordFits.Statement (.dackReturn src vc seq) := ⟨Nat.two_pow_pos 32, Nat.two_pow_pos 32⟩

theorem WordFits.monitorSample (die : Nat) (temp : Nat) (volt : Nat) (rosc : Nat) (pwr : Nat) : WordFits.Statement (.monitorSample die temp volt rosc pwr) := ⟨Nat.two_pow_pos 32, Nat.two_pow_pos 32⟩

theorem WordFits.powerLoss : WordFits.Statement .powerLoss := ⟨Nat.two_pow_pos 32, Nat.two_pow_pos 32⟩

end Sys2Proof.Laws
end

