-- ==== Sys2Proof/Laws/Run.lean ====
section
/-! SUPPORT. The words that the core and its engines run are the instructions of `exec`: a statement about `exec` is one
about what a step runs. -/

namespace Sys2Proof.Machine

set_option maxHeartbeats 2000000 in
/-- A word runs as `exec` gives it (R19, R103). -/
theorem runWord_eq_exec (i : Instr) (s : State) (h : (homeSect i).isSome = true) : runWord i s = exec i s := by
  cases i <;> first | (cases h; done) | rfl

end Sys2Proof.Machine
end

