-- ==== Sys2Proof/Machine/AsmText.lean ====
section
/-! DEFINITION. The text that chz-as reads (R105, R107): names, literals, registers, operands and expressions. -/

namespace Sys2Proof.Asm

open Sys2Proof.Machine

/-- A name or a mnemonic, as it is written; names are case-sensitive (R105). -/
abbrev Name := List Char

/-- The tokens of a line. -/
inductive Tok
  | id (x : Name)
  | int (n : Nat)
  /-- The decimal `m * 10 ^ e`. -/
  | flt (m : Nat) (e : Int)
  | comma | colon | lbr | rbr | lpar | rpar | plus | minus | star | slash | shl | shr | amp | bar | bars | tilde | eq
  deriving DecidableEq, Repr

/-- Letters, digits, underscores and dots (R105). -/
def nameChar (c : Char) : Bool := c.isAlphanum || c = '_' || c = '.'

/-- The value of a digit, in any base up to 16. -/
def digitVal (c : Char) : Nat :=
  if c.isDigit then c.toNat - '0'.toNat
  else if 'a' ≤ c ∧ c ≤ 'f' then c.toNat - 'a'.toNat + 10
  else if 'A' ≤ c ∧ c ≤ 'F' then c.toNat - 'A'.toNat + 10
  else 16

/-- Digits in a base, with single underscores between digits (R107); `p` says that a digit came before. -/
def digits (base : Nat) : Bool → Nat → List Char → Option Nat
  | p, acc, [] => if p then some acc else none
  | p, acc, c :: r =>
    if c = '_' then if p then digits base false acc r else none
    else if digitVal c < base then digits base true (acc * base + digitVal c) r
    else none

/-- The exponent of a float literal: digits with an optional sign. -/
def exponent : List Char → Option Int
  | '-' :: r => (digits 10 false 0 r).map fun n => -(n : Int)
  | '+' :: r => (digits 10 false 0 r).map fun n => (n : Int)
  | r => (digits 10 false 0 r).map fun n => (n : Int)

/-- A literal, from the characters of a word that begins with a digit (R107). A float has a point or an exponent. That a
point needs a digit on each of its sides, so that `5.` is an error and `.5` is read as a name, is the model's choice
(DESIGN CHOICE, notes/assumptions/64.md). -/
def literal (cs : List Char) : Option Tok :=
  match cs with
  | '0' :: 'x' :: r => (digits 16 false 0 r).map .int
  | '0' :: 'b' :: r => (digits 2 false 0 r).map .int
  | _ =>
    let isE := fun c => c = 'e' || c = 'E'
    let mant := cs.takeWhile fun c => !isE c
    let ex := cs.drop mant.length
    if mant.length = cs.length && !cs.contains '.' then (digits 10 false 0 cs).map .int
    else if cs.contains '_' then none
    else
      let ip := mant.takeWhile fun c => c ≠ '.'
      let fp := (mant.drop ip.length).drop 1
      let pointOk := ip.length = mant.length || !fp.isEmpty
      match pointOk, digits 10 false 0 (ip ++ fp), if ex.isEmpty then some 0 else exponent (ex.drop 1) with
      | true, some m, some e => some (.flt m (e - fp.length))
      | _, _, _ => none

/-- The token of a word, whose characters are given last first; the empty word is none. -/
def wordTok (w : List Char) : Option (List Tok) :=
  match w.reverse with
  | [] => some []
  | c :: r => if c.isDigit then (literal (c :: r)).map fun t => [t] else some [.id (c :: r)]

/-- The word so far is a decimal that a signed exponent may follow. -/
def awaitsSign : List Char → Bool
  | c :: r => (c = 'e' || c = 'E') && !r.isEmpty && r.all fun d => d.isDigit || d = '.'
  | [] => false

/-- A mark of one character. -/
def markTok (c : Char) : Option (List Tok) :=
  if c = ' ' ∨ c = '\t' ∨ c = '\r' then some []
  else if c = ',' then some [.comma]
  else if c = ':' then some [.colon]
  else if c = '[' then some [.lbr]
  else if c = ']' then some [.rbr]
  else if c = '(' then some [.lpar]
  else if c = ')' then some [.rpar]
  else if c = '+' then some [.plus]
  else if c = '-' then some [.minus]
  else if c = '*' then some [.star]
  else if c = '/' then some [.slash]
  else if c = '&' then some [.amp]
  else if c = '|' then some [.bar]
  else if c = '~' then some [.tilde]
  else if c = '=' then some [.eq]
  else none

/-- The tokens of a line up to its comment (R105); `w` is the word being read, last character first. -/
def tokens : List Char → List Char → Option (List Tok)
  | w, [] => wordTok w
  | w, '|' :: '|' :: r => (wordTok w).bind fun t => (tokens [] r).map fun u => t ++ .bars :: u
  | w, '<' :: '<' :: r => (wordTok w).bind fun t => (tokens [] r).map fun u => t ++ .shl :: u
  | w, '>' :: '>' :: r => (wordTok w).bind fun t => (tokens [] r).map fun u => t ++ .shr :: u
  | w, c :: r =>
    if c = ';' then wordTok w
    else if nameChar c || ((c = '-' || c = '+') && awaitsSign w) then tokens (c :: w) r
    else (wordTok w).bind fun t => (markTok c).bind fun m => (tokens [] r).map fun u => t ++ m ++ u

/-- The parts of a token list between separators. -/
def splitAt (t : Tok) : List Tok → List Tok → List (List Tok)
  | acc, [] => [acc.reverse]
  | acc, u :: r => if u = t then acc.reverse :: splitAt t [] r else splitAt t (u :: acc) r

/-- The parts of a name between dots. -/
def splitDots : List Char → List Char → List String
  | acc, [] => [String.ofList acc.reverse]
  | acc, c :: r => if c = '.' then String.ofList acc.reverse :: splitDots [] r else splitDots (c :: acc) r

/-! ## Registers and reserved spellings -/

/-- The register classes that operands name (Table 4-4). -/
inductive RegClass
  | s | p | sh | hv | ba | t | ac | ch | wm
  deriving DecidableEq, Repr

/-- What follows a stem in a name. -/
def afterStem : List Char → List Char → Option (List Char)
  | [], r => some r
  | c :: s, d :: r => if c = d then afterStem s r else none
  | _ :: _, [] => none

/-- A decimal index below a limit, without leading zeros. -/
def index (lim : Nat) (cs : List Char) : Option Nat :=
  match cs with
  | '0' :: _ :: _ => none
  | _ =>
    if cs.all Char.isDigit then
      match digits 10 false 0 cs with
      | some n => if n < lim then some n else none
      | none => none
    else none

/-- A name made of a stem and an index. -/
def stemmed (stem : String) (lim : Nat) (x : Name) : Option Nat := (afterStem stem.toList x).bind (index lim)

/-- The numbered names of Table 4-4, and the channel names `ch0`-`ch7` that R189 gives; Table 4-4 does not list these,
and that they are register names, which a source may not define, is the model's choice (DESIGN CHOICE,
notes/assumptions/64.md). The number is how many registers the class has. -/
def regClasses : List (String × RegClass × Nat) :=
  [("s", .s, 32), ("p", .p, 8), ("sh", .sh, 16), ("hv", .hv, 16), ("ba", .ba, 4), ("t", .t, 16), ("ac", .ac, 16),
    ("ch", .ch, 8), ("wm", .wm, 8)]

/-- The register that a name is. -/
def register (x : Name) : Option (RegClass × Nat) :=
  regClasses.findSome? fun c => (stemmed c.1 c.2.2 x).map fun n => (c.2.1, n)

/-- The reserved constant spellings of Table 4-3, from entry 48. -/
def spellings : List String :=
  ["c.third", "c.sixth", "c.seventh", "c.inv127", "c.inv255", "c.inv448", "c.inv57344", "c.ln2", "c.log2e", "c.rsqrt2",
    "c.sqrt2", "c.pi", "c.invpi"]

/-- The entry of Table 4-3 that a spelling names. -/
def spelling (x : Name) : Option Nat :=
  match x with
  | 'c' :: '.' :: _ => (spellings.findIdx? fun s => s = String.ofList x).map (48 + ·)
  | _ => none

/-- The system registers with a name of their own (Tables 10-7, 18-2, 11-6). -/
def sysNames : List (String × Nat) :=
  [("CORE_ID", 0x000), ("RGN_ID", 0x001), ("FSTAT", 0x002), ("FRAME_CLK", 0x003), ("SCHED_CLK", 0x004),
    ("RNGS_CC", 0x005), ("RNGS_VE", 0x006), ("RNGS_ME", 0x007), ("BACFG", 0x008), ("ME_ASEL", 0x010),
    ("ME_SLOTS", 0x011), ("WMARM", 0x048), ("TRAP_SLOT", 0x220), ("CHALK_STAT", 0x300), ("CHALK_BASE", 0x301),
    ("CHALK_WPTR", 0x302), ("CHALK_LOST", 0x303)]

/-- The system registers that are counted: stem, how many, and the number of the first. -/
def sysStems : List (String × Nat × Nat) :=
  [("ME_LOOP", 6, 0x018), ("TDESC", 16, 0x020), ("wm", 8, 0x040), ("TIESW", 64, 0x180), ("FFRAME", 32, 0x200)]

/-- The registers of a channel, as offsets in its block (Table 10-7). -/
def chanNames : List (String × Nat) :=
  [("SRC", 0x10), ("DST", 0x11), ("RSTR", 0x12), ("ORG", 0x13), ("STAT", 0x14), ("TAIL", 0x15)]

/-- The number of a system register (R228). -/
def sysReg (x : Name) : Option Nat :=
  match sysNames.find? fun p => p.1 = String.ofList x with
  | some p => some p.2
  | none =>
    match sysStems.findSome? fun p => (stemmed p.1 p.2.1 x).map (p.2.2 + ·) with
    | some n => some n
    | none =>
      match x with
      | 'C' :: 'H' :: c :: '_' :: r =>
        (index 8 [c]).bind fun ch =>
          let off := match chanNames.find? fun p => p.1 = String.ofList r with
            | some p => some p.2
            | none =>
              match stemmed "LOOP" 6 r with
              | some k => some k
              | none => (stemmed "STR" 6 r).map (8 + ·)
          off.map (0x080 + 0x20 * ch + ·)
      | _ => none

/-- The scope keywords of Table 3-2, the format keywords of Tables 2-1, 2-5 and 7-2, and the one register name without a
number (Table 4-4). -/
def keywords : List String :=
  ["TIES", "CORE", "DIE", "PKG", "POD", "FP32", "F32", "BF16", "FP16", "FP8", "FP6", "FP4", "E4M3", "E5M2", "E2M3", "E3M2", "E2M1", "MXFP8", "MXFP6",
    "MXFP4", "MXINT8", "MXINT6", "MXINT4", "I8", "I16", "I32", "I64", "U8", "U16", "U32", "U64"]

/-! ## Expressions -/

/-- The operators of R107. -/
inductive Op
  | add | sub | mul | div | shl | shr | and | or
  deriving DecidableEq, Repr

/-- An expression, formed from literals and names (R107). -/
inductive Ex
  | num (i : Int)
  | sym (x : Name)
  | not (a : Ex)
  | bin (o : Op) (a b : Ex)
  deriving DecidableEq, Repr

/-- The operators of each level of binding, the loosest first: `|`, then `&`, then the shifts, then sums, then products
(DESIGN CHOICE, notes/assumptions/64.md). -/
def opAt (level : Nat) (t : Tok) : Option Op :=
  match level, t with
  | 0, .bar => some .or
  | 1, .amp => some .and
  | 2, .shl => some .shl
  | 2, .shr => some .shr
  | 3, .plus => some .add
  | 3, .minus => some .sub
  | 4, .star => some .mul
  | 4, .slash => some .div
  | _, _ => none

/-- Read an expression of a level, or go on from the operand `a` read so far; operators of one level group from the left.
The first argument bounds the work. -/
def readEx : Nat → Option Ex → Nat → List Tok → Option (Ex × List Tok)
  | 0, _, _, _ => none
  | f + 1, none, level, ts =>
    if level < 5 then (readEx f none (level + 1) ts).bind fun x => readEx f (some x.1) level x.2
    else
      match ts with
      | .int n :: r => some (.num n, r)
      | .minus :: .int n :: r => some (.num (-(n : Int)), r)
      | .id x :: r => some (.sym x, r)
      | .tilde :: r => (readEx f none 5 r).map fun x => (.not x.1, x.2)
      | .lpar :: r =>
        match readEx f none 0 r with
        | some (e, .rpar :: r') => some (e, r')
        | _ => none
      | _ => none
  | f + 1, some a, level, ts =>
    match ts with
    | [] => some (a, [])
    | t :: r =>
      match opAt level t with
      | some o => (readEx f none (level + 1) r).bind fun x => readEx f (some (.bin o a x.1)) level x.2
      | none => some (a, ts)

/-- The expression that a token list is. -/
def expr (ts : List Tok) : Option Ex :=
  match readEx (16 * ts.length + 16) none 0 ts with
  | some (e, []) => some e
  | _ => none

/-- The sections of a source (Tables 1-2, 4-5). -/
inductive Section
  | bundle | vsec | xsec | msec | data
  deriving DecidableEq, Repr

/-- What a name stands for: a label (R109), or a symbol of `.window` (Table 4-6). -/
inductive Sym
  | label (s : Section) (v : Nat)
  | value (v : Int)
  deriving DecidableEq, Repr

/-- The names of a source. -/
abbrev Env := List (Name × Sym)

def Env.get (env : Env) (x : Name) : Option Sym := (env.find? fun p => p.1 = x).map fun p => p.2

/-- A value in 64-bit two's complement (R107). -/
def wrap (i : Int) : Int := (BitVec.ofInt 64 i).toInt

/-- One operation. A division by zero and a shift by a count outside 0-63 are errors (notes/assumptions/64.md). -/
def Op.eval (o : Op) (a b : Int) : Option Int :=
  match o with
  | .add => some (wrap (a + b))
  | .sub => some (wrap (a - b))
  | .mul => some (wrap (a * b))
  | .div => if b = 0 then none else some (wrap (a.tdiv b))
  | .shl => if 0 ≤ b ∧ b < 64 then some (wrap (a * 2 ^ b.toNat)) else none
  | .shr => if 0 ≤ b ∧ b < 64 then some (a / 2 ^ b.toNat) else none
  | .and => some (BitVec.ofInt 64 a &&& BitVec.ofInt 64 b).toInt
  | .or => some (BitVec.ofInt 64 a ||| BitVec.ofInt 64 b).toInt

/-- The value of an expression. A literal of more than 64 bits is an error. A label stands for its value (R109). -/
def Ex.eval (env : Env) : Ex → Option Int
  | .num i => if -(2 ^ 63) ≤ i ∧ i < 2 ^ 64 then some (wrap i) else none
  | .sym x =>
    match env.get x with
    | some (.label _ v) => some v
    | some (.value v) => some v
    | none => none
  | .not a => (a.eval env).map fun v => -v - 1
  | .bin o a b => (a.eval env).bind fun x => (b.eval env).bind fun y => o.eval x y

/-- Whether a label occurs: a label in a float position is an error (R109). -/
def Ex.hasLabel (env : Env) : Ex → Bool
  | .num _ => false
  | .sym x =>
    match env.get x with
    | some (.label _ _) => true
    | _ => false
  | .not a => a.hasLabel env
  | .bin _ a b => a.hasLabel env || b.hasLabel env

/-! ## Operands -/

/-- The operand forms of R107. -/
inductive Operand
  | reg (k : RegClass) (n : Nat)
  | lit (e : Ex)
  | flt (neg : Bool) (m : Nat) (e : Int)
  /-- A constant spelling: an entry of Table 4-3. -/
  | spell (k : Nat)
  /-- A memory operand: base register, and offset if one is written. -/
  | mem (base : Nat) (off : Option Ex)
  deriving DecidableEq, Repr

/-- A memory operand, from the tokens after its bracket; the offset begins with its sign. -/
def memOperand (b : Name) (r : List Tok) : Option Operand :=
  match register b, r with
  | some (.s, n), [.rbr] => some (.mem n none)
  | some (.s, n), t :: _ =>
    if (t = .plus ∨ t = .minus) ∧ r.getLast? = some .rbr then
      (expr (.int 0 :: r.dropLast)).map fun e => .mem n (some e)
    else none
  | _, _ => none

/-- The operand that a token list is. -/
def operand (ts : List Tok) : Option Operand :=
  match ts with
  | [.id x] =>
    match register x with
    | some (k, n) => some (.reg k n)
    | none =>
      match spelling x with
      | some k => some (.spell k)
      | none => some (.lit (.sym x))
  | [.flt m e] => some (.flt false m e)
  | [.minus, .flt m e] => some (.flt true m e)
  | .lbr :: .id b :: r => memOperand b r
  | _ => (expr ts).map .lit

/-- The operands of a word, separated by commas; `ts` follows the mnemonic. -/
def operands (ts : List Tok) : Option (List Operand) := if ts.isEmpty then some [] else (splitAt .comma [] ts).mapM operand

/-- The decimal `m * 10 ^ e` rounded once in RNE (R107, R108, Table 4-6): an exact quotient with 200 bits below its
leading place, and a last bit that says whether anything is left. -/
def roundDec (f : FFmt) (neg : Bool) (m : Nat) (e : Int) : Nat :=
  if 0 ≤ e then (f.round .rne 0 (.fin neg (m * 10 ^ e.toNat) 0)).1
  else
    let d : Nat := 10 ^ (-e).toNat
    let k : Nat := 200 + d.log2
    let q := m * 2 ^ k / d
    let left : Nat := if m * 2 ^ k % d = 0 then 0 else 1
    (f.round .rne 0 (.fin neg (2 * q + left) (-(k : Int) - 1))).1

end Sys2Proof.Asm
end

