-- ==== Sys2Proof/Machine/AsmWord.lean ====
section
/-! DEFINITION. How chz-as turns one word of a line into an instruction (R107, R108, R127, R160 and the forms that the
chapters of each unit give). -/

namespace Sys2Proof.Asm

open Sys2Proof.Machine

/-- Where a word stands, and what it may use. -/
structure Place where
  env : Env
  sec : Section
  /-- The index of the bundle that holds the word. -/
  pc : Nat
  /-- The bundle has an H word. -/
  hasH : Bool
  deriving DecidableEq, Repr

/-! ## Operands by class -/

/-- A register of a class. -/
def regOp (k : RegClass) (w : Nat) (o : Operand) : Option (BitVec w) :=
  match o with
  | .reg k' n => if k = k' then some (BitVec.ofNat w n) else none
  | _ => none

def sreg (o : Operand) : Option (BitVec 5) := regOp .s 5 o
def preg (o : Operand) : Option (BitVec 3) := regOp .p 3 o
def shreg (o : Operand) : Option (BitVec 4) := regOp .sh 4 o
def hvreg (o : Operand) : Option (BitVec 4) := regOp .hv 4 o
def bareg (o : Operand) : Option (BitVec 2) := regOp .ba 2 o
def treg (o : Operand) : Option (BitVec 4) := regOp .t 4 o
def acreg (o : Operand) : Option (BitVec 4) := regOp .ac 4 o

/-- The value of a literal or an expression in an integer position; a float literal there is an error (R107). -/
def Place.int (p : Place) (o : Operand) : Option Int :=
  match o with
  | .lit e => e.eval p.env
  | _ => none

/-- A value in a range, as a field. -/
def Place.field (p : Place) (lo hi : Int) (w : Nat) (o : Operand) : Option (BitVec w) :=
  match p.int o with
  | some v => if lo ≤ v ∧ v ≤ hi then some (BitVec.ofInt w v) else none
  | none => none

/-- The integer-class entry of Table 4-3 of a value (R108). -/
def intEntry (v : Int) : Option Src :=
  if -8 ≤ v ∧ v ≤ 23 then some (.const (BitVec.ofNat 6 (v + 8).toNat))
  else ((List.range 8).find? fun k => v = 2 ^ (k + 5)).map fun k => .const (BitVec.ofNat 6 (32 + k))

/-- The lowest-numbered entry of Table 4-3 with an FP32 pattern (R108, R160). -/
def fpEntry (pat : Nat) : Option Src :=
  ((List.range 64).find? fun k => (Src.const (BitVec.ofNat 6 k)).fval (fun _ => 0) = pat).map fun k =>
    .const (BitVec.ofNat 6 k)

/-- A source of an integer instruction: a register, or a literal among entries 0-39. -/
def Place.isrc (p : Place) (o : Operand) : Option Src :=
  match o with
  | .reg .s n => some (.reg (BitVec.ofNat 5 n))
  | .lit _ => (p.int o).bind intEntry
  | _ => none

/-- A source of a floating-point instruction: a literal matches an entry by its FP32 pattern (R108); a label is an
error (R109). -/
def Place.fsrc (p : Place) (o : Operand) : Option Src :=
  match o with
  | .reg .s n => some (.reg (BitVec.ofNat 5 n))
  | .spell k => some (.const (BitVec.ofNat 6 k))
  | .flt neg m e => fpEntry (roundDec fp32 neg m e)
  | .lit x => if x.hasLabel p.env then none else (x.eval p.env).bind fun v => fpEntry (rne32 (intVal v)).1
  | _ => none

/-- The operand q of the VS format (R160). -/
def Place.qsrc (p : Place) (o : Operand) : Option Src :=
  match o with
  | .reg .s n => some (.reg (BitVec.ofNat 5 n))
  | .spell k => some (.const (BitVec.ofNat 6 k))
  | .flt neg m e => fpEntry (roundDec fp32 neg m e)
  | .lit _ => (p.int o).bind intEntry
  | _ => none

/-- An operand whose field must hold 0x00: s0, or a literal 0 (R108). -/
def Place.zero (p : Place) (o : Operand) : Option Unit :=
  match o with
  | .reg .s 0 => some ()
  | _ => if p.int o = some 0 then some () else none

/-- A memory operand of format M or HM: base and off13. -/
def Place.memOp (p : Place) (o : Operand) : Option (BitVec 5 × BitVec 13) :=
  match o with
  | .mem b none => some (BitVec.ofNat 5 b, 0)
  | .mem b (some e) => (p.field (-4096) 4095 13 (.lit e)).map fun f => (BitVec.ofNat 5 b, f)
  | _ => none

/-- A memory operand of format R, which has no offset (R137). -/
def addrOp (o : Operand) : Option Src :=
  match o with
  | .mem b none => some (.reg (BitVec.ofNat 5 b))
  | _ => none

/-- The label that an operand is, in a section (R109). -/
def Place.label (p : Place) (s : Section) (o : Operand) : Option Nat :=
  match o with
  | .lit (.sym x) =>
    match p.env.get x with
    | some (.label s' v) => if s = s' then some v else none
    | _ => none
  | _ => none

/-- A branch offset: target minus PC (R109). -/
def Place.target (p : Place) (w : Nat) (o : Operand) : Option (BitVec w) :=
  match p.label .bundle o with
  | some v => let d : Int := v - p.pc
    if -(2 ^ (w - 1)) ≤ d ∧ d < 2 ^ (w - 1) then some (BitVec.ofInt w d) else none
  | none => none

/-- The entry of a run word (R109). -/
def Place.entry (p : Place) (s : Section) (o : Operand) : Option (BitVec 12) := (p.label s o).map (BitVec.ofNat 12)

/-- A literal by the immediate form, else by the long form where the bundle has no H word (R108, rules 2-4). -/
def Place.imm (p : Place) (o : Operand) (short : BitVec 14 → Instr) (long : BitVec 46 → Instr) : Option Instr :=
  match p.int o with
  | some v =>
    if -8192 ≤ v ∧ v ≤ 8191 then some (short (BitVec.ofInt 14 v))
    else if -(2 ^ 45) ≤ v ∧ v < 2 ^ 45 ∧ !p.hasH then some (long (BitVec.ofInt 46 v))
    else none
  | none => none

/-! ## Suffixes -/

/-- The scope suffix (R74). -/
def scopeSuf (s : String) : Option Scope :=
  match s with
  | "CORE" => some .core
  | "DIE" => some .die
  | "PKG" => some .pkg
  | "POD" => some .pod
  | _ => none

/-- The rounding suffix, which comes last; none means RNE (Table 5-3). -/
def modeSuf (l : List String) : Option RMode :=
  match l with
  | [] => some .rne
  | ["RNE"] => some .rne
  | ["RZ"] => some .rz
  | ["RU"] => some .ru
  | ["RD"] => some .rd
  | ["SR"] => some .sr
  | _ => none

/-- The CMP column of Table 5-4. -/
def condSuf (s : String) : Option Cond :=
  match s with
  | "EQ" => some .eq
  | "NE" => some .ne
  | "LT" => some .lt
  | "GE" => some .ge
  | "LTU" => some .ltu
  | "GEU" => some .geu
  | "TST" => some .tst
  | "NTST" => some .ntst
  | _ => none

/-- The FCMP column of Table 5-4. -/
def fcondSuf (s : String) : Option FCond :=
  match s with
  | "EQ" => some .eq
  | "NE" => some .ne
  | "LT" => some .lt
  | "GE" => some .ge
  | "LE" => some .le
  | "GT" => some .gt
  | "UN" => some .un
  | "ORD" => some .ord
  | _ => none

/-- VCMP takes the names of both columns; the names of one row give one code (R116). -/
def vcondSuf (s : String) : Option Cond :=
  match s with
  | "LE" => some .ltu
  | "GT" => some .geu
  | "UN" => some .tst
  | "ORD" => some .ntst
  | _ => condSuf s

/-- The space suffix: `.G` or `.S` (R135). -/
def spaceSuf (s : String) : Option Bool :=
  match s with
  | "G" => some false
  | "S" => some true
  | _ => none

/-- The size suffix (R135). -/
def sizeSuf (s : String) : Option (BitVec 2) :=
  match s with
  | "B" => some 0
  | "H" => some 1
  | "W" => some 2
  | "D" => some 3
  | _ => none

/-- The function suffix of VBULK (R164). -/
def transSuf (s : String) : Option Trans :=
  match s with
  | "EXP2" => some .exp2
  | "LOG2" => some .log2
  | "RCP" => some .rcp
  | "RSQRT" => some .rsqrt
  | "TANH" => some .tanh
  | _ => none

/-- The classes of WAITC: one or more of `.LD`, `.ST`, `.CP`, `.TL`, in that order (R139). The mask has bit 0 for ld. -/
def classSuf (bit : Nat) : List String → List String → Option Nat
  | [], l => if l.isEmpty then some 0 else none
  | k :: ks, l =>
    match l with
    | [] => some 0
    | s :: r => if s = k then (classSuf (bit + 1) ks r).map (2 ^ bit + ·) else classSuf (bit + 1) ks l

/-! ## S slot -/

/-- The register forms of opcode 0x01 (Table 6-2). -/
def int3 (m : List String) : Option (BitVec 5 → Src → Src → Instr) :=
  match m with
  | ["ADD"] => some .add
  | ["SUB"] => some .sub
  | ["MUL"] => some .mul
  | ["MULH"] => some .mulh
  | ["MULH", "U"] => some .mulhU
  | ["DIV"] => some .div
  | ["DIV", "U"] => some .divU
  | ["REM"] => some .rem
  | ["REM", "U"] => some .remU
  | ["AND"] => some .and
  | ["OR"] => some .or
  | ["XOR"] => some .xor
  | ["ANDN"] => some .andn
  | ["SHL"] => some .shl
  | ["SHR"] => some .shr
  | ["SRA"] => some .sra
  | ["ROT"] => some .rot
  | ["MIN"] => some .min
  | ["MIN", "U"] => some .minU
  | ["MAX"] => some .max
  | ["MAX", "U"] => some .maxU
  | _ => none

/-- The shift-count forms of opcode 0x0B (R127). -/
def count3 (m : List String) : Option (BitVec 5 → Src → BitVec 6 → Instr) :=
  match m with
  | ["SHL"] => some .shlImm
  | ["SHR"] => some .shrImm
  | ["SRA"] => some .sraImm
  | ["ROT"] => some .rotImm
  | _ => none

/-- The immediate and long forms that stand beside a register form (R126). -/
def imm3 (m : List String) :
    Option ((BitVec 5 → Src → BitVec 14 → Instr) × (BitVec 5 → Src → BitVec 46 → Instr)) :=
  match m with
  | ["ADD"] => some (.addImm, .addLong)
  | ["AND"] => some (.andImm, .andLong)
  | ["OR"] => some (.orImm, .orLong)
  | ["XOR"] => some (.xorImm, .xorLong)
  | _ => none

/-- ADD by a literal: the register form with an entry of Table 4-3, else the immediate or the long form (R108, rules 1-4). -/
def Place.addLit (p : Place) (d : BitVec 5) (a : Src) (b : Operand) : Option Instr :=
  match p.isrc b with
  | some b => some (.add d a b)
  | none => p.imm b (.addImm d a) (.addLong d a)

/-- The last operand of an integer instruction that has a register form (R108, R127). A subtraction by a literal without
a source field is written `ADD sd, a, -n` (R126). -/
def Place.int3 (p : Place) (m : List String) (k : BitVec 5 → Src → Src → Instr) (d : BitVec 5) (a : Src) (b : Operand) :
    Option Instr :=
  match count3 m, p.field 0 63 6 b with
  | some kc, some c => some (kc d a c)
  | _, _ =>
    match p.isrc b, imm3 m with
    | some b, _ => some (k d a b)
    | none, some (ks, kl) => p.imm b (ks d a) (kl d a)
    | none, none =>
      match m, b with
      | ["SUB"], .lit e => p.addLit d a (.lit (.bin .sub (.num 0) e))
      | _, _ => none

/-- The integer instructions of R124-R129. -/
def asmInt (p : Place) (m : List String) (ops : List Operand) : Option Instr :=
  match int3 m, m, ops with
  | some k, _, [d, a, b] => do p.int3 m k (← sreg d) (← p.isrc a) b
  | none, ["CLZ"], [d, a] => do return .clz (← sreg d) (← p.isrc a)
  | none, ["POPC"], [d, a] => do return .popc (← sreg d) (← p.isrc a)
  | none, ["SEL"], [d, q, a, b] => do return .sel (← sreg d) (← p.isrc a) (← p.isrc b) (← preg q)
  | none, ["MOVI"], [d, b] => do
    let d ← sreg d
    p.imm b (.movi d) (.moviLong d)
  | none, ["LEA"], [d, a, b] => do
    let d ← sreg d
    let a ← p.isrc a
    p.imm b (.lea d a) (.leaLong d a)
  | none, ["CMP", c], [d, a, b] => do
    let c ← condSuf c
    let d ← preg d
    let a ← p.isrc a
    match p.isrc b with
    | some b => some (.cmp d a b c)
    | none => p.imm b (.cmpImm c d a) (.cmpLong c d a)
  | none, ["BFX"], [d, a, pos, w] => do
    let w ← p.field 1 64 7 w
    let pos ← p.field 0 63 6 pos
    if pos.toNat + w.toNat ≤ 64 then return .bfx (← sreg d) (← p.isrc a) (BitVec.ofNat 6 (w.toNat - 1)) pos else none
  | none, ["BFI"], [d, a, pos, w] => do
    let w ← p.field 1 64 7 w
    let pos ← p.field 0 63 6 pos
    if pos.toNat + w.toNat ≤ 64 then return .bfi (← sreg d) (← p.isrc a) (BitVec.ofNat 6 (w.toNat - 1)) pos else none
  | _, _, _ => none

/-- The two-operand conversions of Table 6-3: mnemonic without its rounding suffix. -/
def asmFcvt (p : Place) (dst fro : String) (rm : RMode) (d : BitVec 5) (a : Operand) : Option Instr :=
  match dst, fro with
  | "I64", "F32" => (p.fsrc a).map fun a => .fcvtI64F32 d a rm
  | "F32", "I64" => (p.isrc a).map fun a => .fcvtF32I64 d a rm
  | "BF16", "F32" => (p.fsrc a).map fun a => .fcvtBf16F32 d a rm
  | "FP16", "F32" => (p.fsrc a).map fun a => .fcvtFp16F32 d a rm
  | "E4M3", "F32" => (p.fsrc a).map fun a => .fcvtE4m3F32 d a rm
  | "E5M2", "F32" => (p.fsrc a).map fun a => .fcvtE5m2F32 d a rm
  | _, _ => none

/-- The exact widenings, which take no rounding suffix. -/
def asmWiden (p : Place) (fro : String) (d : BitVec 5) (a : Operand) : Option Instr :=
  match fro with
  | "BF16" => (p.isrc a).map (.fcvtF32Bf16 d)
  | "FP16" => (p.isrc a).map (.fcvtF32Fp16 d)
  | "E4M3" => (p.isrc a).map (.fcvtF32E4m3 d)
  | "E5M2" => (p.isrc a).map (.fcvtF32E5m2 d)
  | _ => none

/-- The floating-point instructions of R130-R132. -/
def asmFp (p : Place) (m : List String) (ops : List Operand) : Option Instr :=
  match m, ops with
  | "FADD" :: r, [d, a, b] => do return .fadd (← sreg d) (← p.fsrc a) (← p.fsrc b) (← modeSuf r)
  | "FSUB" :: r, [d, a, b] => do return .fsub (← sreg d) (← p.fsrc a) (← p.fsrc b) (← modeSuf r)
  | "FMUL" :: r, [d, a, b] => do return .fmul (← sreg d) (← p.fsrc a) (← p.fsrc b) (← modeSuf r)
  | "FFMA" :: r, [d, a, b] => do return .ffma (← sreg d) (← p.fsrc a) (← p.fsrc b) (← modeSuf r)
  | ["FMIN"], [d, a, b] => do return .fmin (← sreg d) (← p.fsrc a) (← p.fsrc b)
  | ["FMAX"], [d, a, b] => do return .fmax (← sreg d) (← p.fsrc a) (← p.fsrc b)
  | ["FCMP", c], [d, a, b] => do return .fcmp (← preg d) (← p.fsrc a) (← p.fsrc b) (← fcondSuf c)
  | "FCVT" :: dst :: fro :: r, [d, a] => do
    let d ← sreg d
    if dst = "F32" ∧ fro ≠ "I64" then
      if r.isEmpty then asmWiden p fro d a else none
    else asmFcvt p dst fro (← modeSuf r) d a
  | _, _ => none

/-- The atomics (R137): `AMO.op` with `.U`, `.W` and the scope in that order; `.U` is defined for MIN and MAX only. -/
def asmAmo (m : List String) (d : BitVec 5) (a b : Src) : Option Instr :=
  let wide : List String → Option (Bool × Scope) := fun l =>
    match l with
    | ["W", s] => (scopeSuf s).map fun s => (true, s)
    | [s] => (scopeSuf s).map fun s => (false, s)
    | _ => none
  match m with
  | "CAS" :: r => (wide r).map fun x => .cas d a b x.1 x.2
  | "AMO" :: "ADD" :: r => (wide r).map fun x => .amoAdd d a b x.1 x.2
  | "AMO" :: "MIN" :: "U" :: r => (wide r).map fun x => .amoMin d a b true x.1 x.2
  | "AMO" :: "MIN" :: r => (wide r).map fun x => .amoMin d a b false x.1 x.2
  | "AMO" :: "MAX" :: "U" :: r => (wide r).map fun x => .amoMax d a b true x.1 x.2
  | "AMO" :: "MAX" :: r => (wide r).map fun x => .amoMax d a b false x.1 x.2
  | "AMO" :: "AND" :: r => (wide r).map fun x => .amoAnd d a b x.1 x.2
  | "AMO" :: "OR" :: r => (wide r).map fun x => .amoOr d a b x.1 x.2
  | "AMO" :: "XOR" :: r => (wide r).map fun x => .amoXor d a b x.1 x.2
  | "AMO" :: "SWAP" :: r => (wide r).map fun x => .amoSwap d a b x.1 x.2
  | _ => none

/-- Loads, stores, prefetch, atomics, ordering, waits, barriers and futures (R135-R152). -/
def asmMem (p : Place) (m : List String) (ops : List Operand) : Option Instr :=
  match m, ops with
  | ["LD", sp, sz], [d, x] => do
    let y ← p.memOp x
    return .ld (← sreg d) y.1 y.2 (← sizeSuf sz) (← spaceSuf sp)
  | ["LD", "U", sp, sz], [d, x] => do
    let y ← p.memOp x
    return .ldU (← sreg d) y.1 y.2 (← sizeSuf sz) (← spaceSuf sp)
  | ["ST", sp, sz], [d, x] => do
    let y ← p.memOp x
    return .st (← sreg d) y.1 y.2 (← sizeSuf sz) (← spaceSuf sp)
  | ["PREF", sp], [x, n] => do
    let y ← p.memOp x
    return .pref (← p.field 0 31 5 n) y.1 y.2 (← spaceSuf sp)
  | "AMO" :: _, [d, a, b] => do asmAmo m (← sreg d) (← addrOp a) (← p.isrc b)
  | "CAS" :: _, [d, a, b] => do asmAmo m (← sreg d) (← addrOp a) (← p.isrc b)
  | ["ACQ", s], [] => (scopeSuf s).map .acq
  | ["REL", s], [] => (scopeSuf s).map .rel
  | ["FENCE", s], [d] => do return .fence (← sreg d) (← scopeSuf s)
  | "WAITC" :: c :: r, [n] => do
    let k ← classSuf 0 ["LD", "ST", "CP", "TL"] (c :: r)
    return .waitc (BitVec.ofNat 4 k) (← p.field 0 255 8 n)
  | ["WAITA", s], [d, a, b] => do return .waita (← sreg d) (← addrOp a) (← p.isrc b) (← scopeSuf s)
  | ["WAITQ"], [d, a, b] => do return .waitq (← sreg d) (← addrOp a) (← p.isrc b)
  | ["SBARV"], [d, a, b] => do return .sbarv (← sreg d) (← addrOp a) (← p.isrc b)
  | ["SBWAIT"], [d, a, b] => do return .sbwait (← sreg d) (← addrOp a) (← p.isrc b)
  | ["FFILL"], [a, b] => do return .ffill (← addrOp a) (← p.isrc b)
  | ["FGET"], [d, a, b] => do return .fget (← sreg d) (← addrOp a) (← p.isrc b)
  | ["FQPUSH"], [a, b] => do return .fqpush (← p.isrc a) (← p.isrc b)
  | _, _ => none

/-- The number of the register that an operand of SRD or SWR names (R228). -/
def sysOp (o : Operand) : Option Nat :=
  match o with
  | .lit (.sym x) => sysReg x
  | .reg .wm n => some (0x040 + n)
  | _ => none

/-- Branches, continuations, windows and system instructions (R133, R134, R220-R233). -/
def asmCtl (p : Place) (m : List String) (ops : List Operand) : Option Instr :=
  match m, ops with
  | ["BR"], [l] => (p.target 19 l).map (.br 0 false)
  | ["BR"], [q, l] => do return .br (← preg q) false (← p.target 19 l)
  | ["BR", "N"], [q, l] => do return .br (← preg q) true (← p.target 19 l)
  | ["CALL"], [l] => (p.target 19 l).map (.call 0 false)
  | ["CALL"], [q, l] => do return .call (← preg q) false (← p.target 19 l)
  | ["CALL", "N"], [q, l] => do return .call (← preg q) true (← p.target 19 l)
  | ["LOOP"], [d, l] => do return .loop (← sreg d) (← p.target 14 l)
  | ["JMP"], [a] => (p.isrc a).map .jmp
  | ["RET"], [] => some .ret
  | ["BRX"], [a, b] => do return .brx (← p.isrc a) (← p.isrc b)
  | ["TRAP"], [a] => (p.isrc a).map .trap
  | ["ERET"], [] => some .eret
  | ["TLBINV"], [a, b] => do return .tlbinv (← p.isrc a) (← p.isrc b)
  | ["DHOP"], [d, a, b] => do return .dhop (← sreg d) (← p.isrc a) (← p.isrc b)
  | ["VDIE"], [d, a, b] => do return .vdie (← sreg d) (← p.isrc a) (← p.isrc b)
  | ["TRC"], [a, b] => do return .trc (← p.isrc a) (← p.isrc b)
  | ["SPAWN"], [a] => (p.isrc a).map .spawn
  | ["JOIN"], [a] => (p.isrc a).map .join
  | ["DONE"], [] => some .done
  | ["YIELD"], [] => some .yield
  | ["WDECL"], [d, a, b] => do return .wdecl (← sreg d) (← p.isrc a) (← p.isrc b)
  | ["WCLOSE"], [a] => (p.isrc a).map .wclose
  | ["WFLUSH"], [a] => (p.isrc a).map .wflush
  | ["WQUERY"], [d, a, b] => do return .wquery (← sreg d) (← p.isrc a) (← p.isrc b)
  | ["CHTAIL"], [a, b] => do return .chtail (← p.isrc a) (← p.isrc b)
  | ["SRD"], [d, r] => do return .srd (← sreg d) (BitVec.ofNat 12 (← sysOp r))
  | ["SWR"], [r, a] => do return swrOf (← sysOp r) (← p.isrc a)
  | _, _ => none

/-! ## V slot and vsec -/

/-- A rounding step of three shapes, or of two shapes and a scalar: opcode 0x02 where the last operand is no shape
register (R159). -/
def Place.vec3 (p : Place) (d a : BitVec 4) (b : Operand) (k : BitVec 4 → BitVec 4 → BitVec 4 → RMode → Instr)
    (kq : BitVec 4 → BitVec 4 → Src → RMode → Instr) (rm : RMode) : Option Instr :=
  match shreg b with
  | some b => some (k d a b rm)
  | none => (p.qsrc b).map fun q => kq d a q rm

/-- The same of a step that does not round; rm is written 0. -/
def Place.vec3i (p : Place) (d a : BitVec 4) (b : Operand) (k : BitVec 4 → BitVec 4 → BitVec 4 → BitVec 3 → Instr)
    (kq : BitVec 4 → BitVec 4 → Src → BitVec 3 → Instr) : Option Instr :=
  match shreg b with
  | some b => some (k d a b 0)
  | none => (p.qsrc b).map fun q => kq d a q 0

/-- The vector steps (R159-R169). -/
def asmVec (p : Place) (m : List String) (ops : List Operand) : Option Instr :=
  match m, ops with
  | "VADD" :: r, [d, a, b] => do p.vec3 (← shreg d) (← shreg a) b .vadd .vaddVs (← modeSuf r)
  | "VSUB" :: r, [d, a, b] => do p.vec3 (← shreg d) (← shreg a) b .vsub .vsubVs (← modeSuf r)
  | "VMUL" :: r, [d, a, b] => do p.vec3 (← shreg d) (← shreg a) b .vmul .vmulVs (← modeSuf r)
  | "VMIN" :: r, [d, a, b] => do p.vec3 (← shreg d) (← shreg a) b .vmin .vminVs (← modeSuf r)
  | "VMAX" :: r, [d, a, b] => do p.vec3 (← shreg d) (← shreg a) b .vmax .vmaxVs (← modeSuf r)
  | ["VAND"], [d, a, b] => do p.vec3i (← shreg d) (← shreg a) b .vand .vandVs
  | ["VOR"], [d, a, b] => do p.vec3i (← shreg d) (← shreg a) b .vor .vorVs
  | ["VXOR"], [d, a, b] => do p.vec3i (← shreg d) (← shreg a) b .vxor .vxorVs
  | ["VSHL"], [d, a, b] => do p.vec3i (← shreg d) (← shreg a) b .vshl .vshlVs
  | ["VSHR"], [d, a, b] => do p.vec3i (← shreg d) (← shreg a) b .vshr .vshrVs
  | ["VCMP", c], [d, a, b] => do
    let c ← vcondSuf c
    p.vec3i (← shreg d) (← shreg a) b (fun d a b rm => .vcmp d a b rm c) (fun d a q rm => .vcmpVs d a q rm c)
  | "VFMA" :: r, [d, a, b, c] => do return .vfma (← shreg d) (← shreg a) (← shreg b) (← shreg c) (← modeSuf r)
  | "VSEL" :: r, [d, a, b, c] => do return .vsel (← shreg d) (← shreg a) (← shreg b) (← shreg c) (← modeSuf r)
  | "VABS" :: r, [d, a] => do return .vabs (← shreg d) (← shreg a) (← modeSuf r)
  | "VNEG" :: r, [d, a] => do return .vneg (← shreg d) (← shreg a) (← modeSuf r)
  | "VCVT" :: r, [d, a] => do return .vcvt (← shreg d) (← shreg a) (← modeSuf r)
  | "VQUANT" :: r, [d, a, b] => do
    let rm ← modeSuf r
    if rm = .rne ∨ rm = .sr then return .vquant (← shreg d) (← shreg a) (← shreg b) (rm == .sr) else none
  | "VDEQ" :: r, [d, a, b] => do return .vdeq (← shreg d) (← shreg a) (← shreg b) (← modeSuf r)
  | "VEXP2" :: r, [d, a] => do return .vexp2 (← shreg d) (← shreg a) (← modeSuf r)
  | "VLOG2" :: r, [d, a] => do return .vlog2 (← shreg d) (← shreg a) (← modeSuf r)
  | "VRCP" :: r, [d, a] => do return .vrcp (← shreg d) (← shreg a) (← modeSuf r)
  | "VRSQRT" :: r, [d, a] => do return .vrsqrt (← shreg d) (← shreg a) (← modeSuf r)
  | "VTANH" :: r, [d, a] => do return .vtanh (← shreg d) (← shreg a) (← modeSuf r)
  | "VBULK" :: f :: r, [d, a] => do return .vbulk (← shreg d) (← shreg a) (← modeSuf r) (← transSuf f)
  | "VRSUM" :: r, [d, a] => do return .vrsum (← shreg d) (← shreg a) (← modeSuf r)
  | "VRMAX" :: r, [d, a] => do return .vrmax (← shreg d) (← shreg a) (← modeSuf r)
  | "VAMAX" :: r, [d, a] => do return .vamax (← shreg d) (← shreg a) (← modeSuf r)
  | "VSCAN" :: r, [d, a] => do return .vscan (← shreg d) (← shreg a) (← modeSuf r)
  | ["VGATHER"], [d, a] => do return .vgather (← shreg d) (← shreg a) 0
  | ["VSCATTER"], [a, b] => do return .vscatter (← shreg a) (← shreg b) 0
  | ["VCOPY"], [d, a] => do return .vcopy (← shreg d) (← shreg a) 0
  | "VFILL" :: r, [d, q] => do return .vfill (← shreg d) (← p.qsrc q) (← modeSuf r)
  | ["VIOTA"], [d, q] => do return .viota (← shreg d) (← p.qsrc q) 0
  | ["SHSET"], [d, q] => do return .shset (← shreg d) (← p.isrc q) 0
  | ["VCHAIN"], [n] => (p.field 1 8 4 n).map fun n => .vchain (BitVec.ofNat 3 (n.toNat - 1))
  | ["VRUN"], [l] => (p.entry .vsec l).map .vrun
  | ["VEND"], [] => some .vend
  | _, _ => none

/-! ## X slot, xsec and msec -/

/-- The channel of a transfer word and its other operands; in xsec the channel is omitted, and is 0 (R103, R189). -/
def Place.chan (p : Place) (ops : List Operand) : Option (BitVec 3 × List Operand) :=
  if p.sec = .xsec then some (0, ops)
  else
    match ops with
    | .reg .ch n :: r => some (BitVec.ofNat 3 n, r)
    | _ => none

/-- The transfer words (R189, R195, R200-R203). -/
def asmXfer (p : Place) (m : List String) (ops : List Operand) : Option Instr := do
  let c ← p.chan ops
  match m, c.2 with
  | ["XCOPY"], [a] => (p.isrc a).map (.xcopy c.1)
  | ["XCOPY"], [a, b] => (p.zero b).bind fun _ => (p.isrc a).map (.xcopy c.1)
  | ["XTILE"], [a, b] => return .xtile c.1 (← p.isrc a) (← p.isrc b)
  | ["XMETA"], [a, b] => return .xmeta c.1 (← p.isrc a) (← p.isrc b)
  | ["XGATHER"], [a, b] => return .xgather c.1 (← p.isrc a) (← p.isrc b)
  | ["XFILL"], [a, b] => return .xfill c.1 (← p.isrc a) (← p.isrc b)
  | ["XRED"], [a, b] => return .xred c.1 (← p.isrc a) (← p.isrc b)
  | ["XSIG", s], [a, b] => return .xsig c.1 (← p.isrc a) (← p.isrc b) (← scopeSuf s)
  | ["XBAR", s], [a, b] => return .xbar c.1 (← p.isrc a) (← p.isrc b) (← scopeSuf s)
  | ["XCHAIN", s], [a, b] => return .xchain c.1 (← p.isrc a) (← p.isrc b) (← scopeSuf s)
  | ["XWRAP"], [a, b] => return .xwrap c.1 (← p.isrc a) (← p.isrc b)
  | ["XRCNT"], [a] => (p.isrc a).map (.xrcnt c.1)
  | ["XJOB"], [a] => (p.isrc a).map (.xjob c.1)
  | ["XFOOT"], [a, b] => return .xfoot c.1 (← p.isrc a) (← p.isrc b)
  | ["XRUN"], [l] => if p.sec = .bundle then (p.entry .xsec l).map (.xrun c.1) else none
  | _, _ => none

/-- The form suffix of MMA and MMAS (R180). -/
def remoteSuf (s : String) : Option (BitVec 2) :=
  match s with
  | "RA" => some 1
  | "RB" => some 2
  | "RAB" => some 3
  | _ => none

/-- The matrix words (R173, R178-R183). -/
def asmMat (p : Place) (m : List String) (ops : List Operand) : Option Instr :=
  match m, ops with
  | ["MMA"], [d, a, b] => do return .mma (← acreg d) (← treg a) (← treg b) 0 0
  | ["MMA", f], [d, a, b, q] => do
    let f ← remoteSuf f
    return .mma (← acreg d) (← treg a) (← treg b) f (BitVec.ofNat 7 (← p.isrc q).code)
  | ["MMAS"], [d, a, b] => do return .mmas (← acreg d) (← treg a) (← treg b) 0 0
  | ["MMAS", f], [d, a, b, q] => do
    let f ← remoteSuf f
    return .mmas (← acreg d) (← treg a) (← treg b) f (BitVec.ofNat 7 (← p.isrc q).code)
  | ["MZERO"], [d] => (acreg d).map fun d => .mzero d 0
  | ["MNARROW"], [d, a] => do return .mnarrow (← treg d) (← acreg a) 0
  | ["MTRANS"], [d, a] => do return .mtrans (← treg d) (← treg a) 0
  | ["MOWN"], [n, q] => do return .mown (← p.field 1 3 4 n) (← p.isrc q)
  | ["MREL"], [n, q] => do return .mrel (← p.field 1 3 4 n) (← p.isrc q)
  | ["MSYNC"], [] => some (.msync 0)
  | ["MRUN"], [l] => (p.entry .msec l).map .mrun
  | ["MEND"], [] => some .mend
  | ["XEND"], [] => some .xend
  | _, _ => none

/-! ## H slot -/

/-- The hypervector words (R208, Table 10-3, R213-R216). -/
def asmHyp (p : Place) (m : List String) (ops : List Operand) : Option Instr :=
  match m, ops with
  | ["HLD", sp], [d, x] => do
    let y ← p.memOp x
    return .hld (← hvreg d) y.1 y.2 (← spaceSuf sp)
  | ["HST", sp], [d, x] => do
    let y ← p.memOp x
    return .hst (← hvreg d) y.1 y.2 (← spaceSuf sp)
  | ["HXOR"], [d, a, b] => do return .hxor (← hvreg d) (← hvreg a) (← hvreg b)
  | ["HROT"], [d, a, q] => do
    match sreg q with
    | some q => return .hrot (← hvreg d) (← hvreg a) (.reg q)
    | none => return .hrotImm (← hvreg d) (← hvreg a) (← p.field 0 4095 12 q)
  | ["HACC"], [d, a, q] => do return .hacc (← bareg d) (← hvreg a) (← p.isrc q)
  | ["HTHR"], [d, a] => do return .hthr (← hvreg d) (← bareg a)
  | ["HCLR"], [d] => (hvreg d).map .hclr
  | ["HCLR", "W4"], [d] => (bareg d).map .hclrW4
  | ["HCLR", "W8"], [d] => (bareg d).map .hclrW8
  | ["HPOP"], [d, a, b] => do return .hpop (← sreg d) (← hvreg a) (← hvreg b)
  | ["HRND"], [d, q] => do return .hrnd (← hvreg d) (← p.isrc q)
  | ["HTIE"], [a] => (hvreg a).map .htie
  | ["HTIE", "SEED"], [q] => (p.isrc q).map .htieSeed
  | ["HTIE", "ZERO"], [] => some .htieZero
  | ["HAMW"], [a, q] => do return .hamw (← hvreg a) (← p.isrc q)
  | ["HAMQ"], [d, a] => do return .hamq (← sreg d) (← hvreg a) (.const 39)
  | ["HAMQ"], [d, a, q] => do return .hamq (← sreg d) (← hvreg a) (← p.isrc q)
  | ["HAMK"], [a, q] => do return .hamk (← hvreg a) (← p.isrc q)
  | ["HAMD"], [q] => (p.isrc q).map .hamd
  | _, _ => none

/-! ## Words -/

/-- The base names of the S slot. -/
def namesS : List String :=
  ["ADD", "SUB", "MUL", "MULH", "DIV", "REM", "AND", "OR", "XOR", "ANDN", "SHL", "SHR", "SRA", "ROT", "MIN", "MAX", "CLZ",
    "POPC", "SEL", "MOVI", "LEA", "BFX", "BFI", "CMP", "FADD", "FSUB", "FMUL", "FFMA", "FMIN", "FMAX", "FCVT", "FCMP", "BR",
    "CALL", "JMP", "RET", "BRX", "LOOP", "LD", "ST", "PREF", "AMO", "CAS", "ACQ", "REL", "FENCE", "WAITC", "WAITA", "WAITQ",
    "SBARV", "SBWAIT", "FFILL", "FGET", "FQPUSH", "SPAWN", "JOIN", "DONE", "YIELD", "WDECL", "WCLOSE", "WFLUSH", "WQUERY",
    "CHTAIL", "SRD", "SWR", "TRAP", "ERET", "TLBINV", "DHOP", "VDIE", "TRC"]

/-- The base names of the V slot and vsec; VDIE is an S word. -/
def namesV : List String :=
  ["VADD", "VSUB", "VMUL", "VFMA", "VMIN", "VMAX", "VAND", "VOR", "VXOR", "VSHL", "VSHR", "VSEL", "VABS", "VNEG", "VCMP",
    "VCVT", "VQUANT", "VDEQ", "VEXP2", "VLOG2", "VRCP", "VRSQRT", "VTANH", "VRSUM", "VRMAX", "VAMAX", "VSCAN", "VGATHER",
    "VSCATTER", "VCOPY", "SHSET", "VFILL", "VIOTA", "VCHAIN", "VBULK", "VRUN", "VEND"]

/-- The base names of the X slot, xsec and msec. -/
def namesX : List String :=
  ["XCOPY", "XTILE", "XMETA", "XGATHER", "XFILL", "XRED", "XSIG", "XBAR", "XWRAP", "XRCNT", "XJOB", "XFOOT", "XCHAIN", "XRUN",
    "XEND", "MMA", "MMAS", "MZERO", "MNARROW", "MTRANS", "MOWN", "MREL", "MSYNC", "MRUN", "MEND"]

/-- The base names of the H slot. -/
def namesH : List String :=
  ["HLD", "HST", "HXOR", "HROT", "HACC", "HTHR", "HCLR", "HPOP", "HRND", "HTIE", "HAMW", "HAMQ", "HAMK", "HAMD"]

/-- The slot of a base name (R106). -/
def slotOf (base : String) : Option Sect :=
  if namesH.contains base then some .h
  else if namesX.contains base then some .x
  else if namesV.contains base then some .v
  else if namesS.contains base then some .s
  else none

/-- The instruction of a mnemonic, split at its dots, with its operands. -/
def asmInstr (p : Place) (m : List String) (ops : List Operand) : Option Instr :=
  match m with
  | [] => none
  | base :: _ =>
    match slotOf base with
    | some .s => asmInt p m ops <|> asmFp p m ops <|> asmMem p m ops <|> asmCtl p m ops
    | some .v => asmVec p m ops
    | some .x => asmMat p m ops <|> asmXfer p m ops
    | some .h => asmHyp p m ops
    | _ => none

/-- Whether a map reads a word as an instruction. -/
def reads (d : Dec) (i : Instr) : Bool :=
  match d with
  | .ok j => decide (j = i)
  | .error _ => false

/-- Whether a word may stand in a slot of a bundle or in a section: the map of the place reads it (R103, Tables 5-7,
5-9). -/
def legalAt (sec : Section) (i : Instr) : Bool :=
  match sec with
  | .bundle =>
    match homeSect i with
    | some .s | some .h => true
    | some .v => reads (decodeV false (encode i)) i
    | some .x => reads (decodeX (encode i)) i
    | _ => false
  | .vsec => reads (decodeV true (encode i)) i
  | .xsec => reads (decodeXT true (encode i)) i
  | .msec => reads (decodeXM true (encode i)) i
  | .data => false

end Sys2Proof.Asm
end

