-- ==== Sys2Proof/Machine/Assembler.lean ====
section
/-! DEFINITION. The assembler chz-as over a whole source: lines, labels, directives and the object that it writes (R105,
R106, R109, R110). -/

namespace Sys2Proof.Asm

open Sys2Proof.Machine

/-! ## Lines -/

/-- What a line holds beside its label: nothing, a directive with its suffix and the tokens after it, or the words of a
bundle with their operands. -/
inductive Body
  | none
  | dir (name : List String) (ts : List Tok)
  | words (ws : List (List String × List Operand))
  deriving DecidableEq, Repr

structure Line where
  label : Option Name
  body : Body
  deriving DecidableEq, Repr

/-- One word: a mnemonic and its operands. -/
def word (ts : List Tok) : Option (List String × List Operand) :=
  match ts with
  | .id m :: r => (operands r).map fun o => (splitDots [] m, o)
  | _ => none

/-- What follows a label. A directive begins with a dot. -/
def bodyOf (ts : List Tok) : Option Body :=
  match ts with
  | [] => some .none
  | .id ('.' :: d) :: r => some (.dir (splitDots [] d) r)
  | _ => ((splitAt .bars [] ts).mapM word).map .words

/-- A line of source text (R105). -/
def readLine (cs : List Char) : Option Line :=
  match tokens [] cs with
  | some (.id x :: .colon :: r) => (bodyOf r).map fun b => ⟨some x, b⟩
  | some ts => (bodyOf ts).map fun b => ⟨none, b⟩
  | none => none

/-- The lines up to `.end`; a source without it is an error, and nothing after it is read (Table 4-6). -/
def readLines : List String → Option (List Line)
  | [] => none
  | l :: r =>
    match readLine l.toList with
    | none => none
    | some k =>
      if k.body = .dir ["end"] [] then some [{ k with body := .none }]
      else (readLines r).map fun ks => k :: ks

/-- A name that a source may define (R105): no mnemonic, register, keyword or constant spelling. -/
def legalName (x : Name) : Bool :=
  let m := splitDots [] x
  (match x with
    | [] => false
    | c :: _ => !c.isDigit)
    && (register x).isNone && (sysReg x).isNone && (spelling x).isNone && !keywords.contains (String.ofList x)
    && String.ofList x != "NOP" && (slotOf (String.ofList x)).isNone
    && (m.length == 1 || (slotOf (m.headD "")).isNone)

/-! ## Layout -/

/-- Bytes of one unit of a section's location counter (Table 4-5). -/
def Section.unit : Section → Nat
  | .bundle => 16
  | .vsec | .xsec | .msec => 4
  | .data => 1

/-- The units that a section can hold (Table 4-5). -/
def Section.limit : Section → Nat
  | .bundle => 8192
  | .vsec | .xsec | .msec => 4096
  | .data => 16384

/-- The smallest `.align` of a section. -/
def Section.minAlign : Section → Nat
  | .bundle => 16
  | .vsec | .xsec | .msec => 4
  | .data => 1

/-- The section keywords. -/
def sectionOf (x : Name) : Option Section :=
  match String.ofList x with
  | "bundle" => some .bundle
  | "vsec" => some .vsec
  | "xsec" => some .xsec
  | "msec" => some .msec
  | "data" => some .data
  | _ => none

/-- The location counters, one for each section. -/
structure Locs where
  bundle : Nat
  vsec : Nat
  xsec : Nat
  msec : Nat
  data : Nat
  deriving DecidableEq, Repr

def Locs.get (l : Locs) : Section → Nat
  | .bundle => l.bundle
  | .vsec => l.vsec
  | .xsec => l.xsec
  | .msec => l.msec
  | .data => l.data

def Locs.add (l : Locs) (s : Section) (n : Nat) : Locs :=
  match s with
  | .bundle => { l with bundle := l.bundle + n }
  | .vsec => { l with vsec := l.vsec + n }
  | .xsec => { l with xsec := l.xsec + n }
  | .msec => { l with msec := l.msec + n }
  | .data => { l with data := l.data + n }

/-- The size in bytes of one value of `.const`. -/
def constSize (suf : String) : Option Nat :=
  match suf with
  | "B" => some 1
  | "H" => some 2
  | "W" => some 4
  | "D" => some 8
  | "F32" => some 4
  | "BF16" => some 2
  | _ => none

/-- The padding of `.align k` in units, from a location (Table 4-6). -/
def padding (s : Section) (loc : Nat) (k : Int) : Option Nat :=
  let n := k.toNat
  if (List.range 17).any (fun j => k = 2 ^ j) ∧ s.minAlign ≤ n then
    some (((n - loc * s.unit % n) % n) / s.unit)
  else none

/-- Definitions of a source after its first reading: the section and location at hand, the names so far, and the
`.window` lines in order. -/
structure Layout where
  sec : Option Section
  locs : Locs
  env : Env
  windows : List (Name × List Operand)
  /-- The preload offset operand of a `.section data`, if one was given. -/
  preoff : Option Operand
  deriving DecidableEq, Repr

/-- The name and operands of `.window`. -/
def windowArgs (ts : List Tok) : Option (Name × List Operand) :=
  match operands ts with
  | some (.lit (.sym x) :: r) => if r.length = 5 then some (x, r) else none
  | _ => none

/-- The symbols of a window, after its checks (Table 4-6). -/
def windowSyms (env : Env) (x : Name) (ops : List Operand) : Option Env :=
  let v := fun o => match o with
    | .lit e => e.eval env
    | _ => none
  match ops with
  | [spad, size, tile, .lit (.sym reach), global] => do
    let spad ← v spad
    let size ← v size
    let tile ← v tile
    let global ← v global
    let reach : Int ← match String.ofList reach with
      | "DIE" => some 1
      | "PKG" => some 2
      | "POD" => some 3
      | _ => none
    let sym := fun (s : String) (i : Int) => (x ++ '.' :: s.toList, Sym.value i)
    if ((List.range 7).any fun j => tile = 2 ^ (j + 7)) ∧ 0 < spad ∧ spad % tile = 0 ∧ 0 < size ∧ size % tile = 0
        ∧ spad + size ≤ 0x200000 ∧ legalName x then
      some [sym "SPAD" spad, sym "SIZE" size, sym "TILE" tile, sym "REACH" reach, sym "GLOBAL" global]
    else none
  | _ => none

/-- Whether names are free to define. -/
def fresh (env : Env) (xs : List Name) : Bool := xs.all fun x => (env.get x).isNone

/-- The first reading of a line: where it puts its label and how far it moves the location counter. A label stands at a
unit of its section (Table 4-5): past the last one there is none. -/
def layLine (s : Layout) (l : Line) : Option Layout :=
  let labelled : Option Layout :=
    match l.label, s.sec with
    | none, _ => some s
    | some x, some sec =>
      if legalName x ∧ fresh s.env [x] ∧ s.locs.get sec < sec.limit then
        some { s with env := s.env ++ [(x, .label sec (s.locs.get sec))] }
      else none
    | some _, none => none
  labelled.bind fun s =>
    match l.body with
    | .none => some s
    | .words ws =>
      match s.sec with
      | some .data => none
      | some sec => if sec = .bundle ∨ ws.length = 1 then some { s with locs := s.locs.add sec 1 } else none
      | none => none
    | .dir ["section"] (.id x :: r) =>
      (sectionOf x).bind fun sec =>
        match sec, r with
        | .data, .comma :: o =>
          (operand o).bind fun o =>
            if s.preoff = none ∨ s.preoff = some o then some { s with sec := some sec, preoff := some o } else none
        | _, [] => some { s with sec := some sec }
        | _, _ => none
    | .dir ["align"] ts =>
      match s.sec, operands ts with
      | some sec, some [.lit e] =>
        ((e.eval s.env).bind fun k => padding sec (s.locs.get sec) k).map fun n => { s with locs := s.locs.add sec n }
      | _, _ => none
    | .dir ["const", suf] ts =>
      match s.sec, constSize suf, operands ts with
      | some .data, some n, some (v :: vs) => some { s with locs := s.locs.add .data (n * (v :: vs).length) }
      | _, _, _ => none
    | .dir ["window"] ts =>
      (windowArgs ts).map fun w =>
        { s with
          windows := s.windows ++ [w]
          env := match windowSyms s.env w.1 w.2 with
            | some e => s.env ++ e
            | none => s.env }
    | .dir ["entry"] _ | .dir ["rcb"] _ | .dir ["cr"] _ => some s
    | .dir _ _ => none

/-- The first reading of a source. -/
def layLines : List Line → Layout → Option Layout
  | [], s => some s
  | l :: r, s => (layLine s l).bind (layLines r)

/-- The windows of a source in order, each with the labels and the windows before it in scope. -/
def addWindows : List (Name × List Operand) → Env → Option Env
  | [], env => some env
  | (x, ops) :: r, env =>
    (windowSyms env x ops).bind fun w =>
      if fresh env (w.map fun p => p.1) then addWindows r (env ++ w) else none

/-- The labels of a layout. -/
def Layout.labels (s : Layout) : Env :=
  s.env.filter fun p => match p.2 with
    | .label _ _ => true
    | .value _ => false

/-! ## The object -/

/-- What chz-as writes: the sections, the preload offset, the entry table, and the host load list as addresses with
64-bit words (Table 4-6). -/
structure Obj where
  /-- Bundles as 128-bit values (R96). -/
  bundle : List Nat
  vsec : List Nat
  xsec : List Nat
  msec : List Nat
  data : List Nat
  preoff : Option Nat
  entries : List (Nat × Nat)
  loads : List (Nat × List Nat)
  deriving DecidableEq, Repr

def Obj.empty : Obj := ⟨[], [], [], [], [], none, [], []⟩

/-- The units that stand in a section so far. -/
def Obj.size (o : Obj) : Section → Nat
  | .bundle => o.bundle.length
  | .vsec => o.vsec.length
  | .xsec => o.xsec.length
  | .msec => o.msec.length
  | .data => o.data.length

/-- Append units to a section. -/
def Obj.emit (o : Obj) (s : Section) (ws : List Nat) : Obj :=
  match s with
  | .bundle => { o with bundle := o.bundle ++ ws }
  | .vsec => { o with vsec := o.vsec ++ ws }
  | .xsec => { o with xsec := o.xsec ++ ws }
  | .msec => { o with msec := o.msec ++ ws }
  | .data => { o with data := o.data ++ ws }

/-- The unit that `.align` pads with: a NOP bundle, the section's NOP step, or a zero byte (R103, Table 4-6). -/
def padUnit : Section → Nat
  | .msec => 0x80000000
  | _ => 0

/-- The words of a bundle by slot; an empty slot holds its NOP, and two words for one slot are an error (R106). -/
def bundleOf (is : List Instr) : Option Nat :=
  let at1 := fun (slot : Sect) =>
    match is.filter fun i => homeSect i = some slot with
    | [] => some 0
    | [i] => some (encode i)
    | _ => none
  match at1 .s, at1 .v, at1 .x, at1 .h with
  | some ws, some wv, some wx, some wh =>
    let hi := (is.map encodeHi).foldl (fun a b => Nat.max a b) 0
    if is.any isLong ∧ is.any (fun i => homeSect i = some .h) then none
    else some (ws + wv * 2 ^ 32 + wx * 2 ^ 64 + (if is.any isLong then hi else wh) * 2 ^ 96)
  | _, _, _, _ => none

/-- Whether a word is the mnemonic NOP. -/
def isNop (w : List String × List Operand) : Bool := w.1 == ["NOP"] && w.2.isEmpty

/-- An instruction line (R106). -/
def asmWords (env : Env) (o : Obj) (sec : Section) (ws : List (List String × List Operand)) : Option Obj :=
  let hasH := ws.any fun w => slotOf (w.1.headD "") = some .h
  let p : Place := ⟨env, sec, o.bundle.length, hasH⟩
  let one := fun (w : List String × List Operand) =>
    (asmInstr p w.1 w.2).bind fun i => if i.wf ∧ legalAt sec i then some i else none
  match ws with
  | [w] =>
    if isNop w then some (o.emit sec [padUnit sec])
    else
      (one w).bind fun i =>
        if sec = .bundle then (bundleOf [i]).map fun b => o.emit sec [b] else some (o.emit sec [encode i])
  | _ => if sec = .bundle then ((ws.mapM one).bind bundleOf).map fun b => o.emit sec [b] else none

/-- The bytes of a value, least significant first. -/
def leBytes (n v : Nat) : List Nat := (List.range n).map fun k => bitsOf v (8 * k) 8

/-- One value of `.const`: an integer that fits signed or unsigned, or a float rounded in RNE (Table 4-6). A constant
spelling of Table 4-3 is no value (DESIGN CHOICE, assumption 64: the directive speaks of integers and floats only). -/
def constValue (env : Env) (suf : String) (n : Nat) (v : Operand) : Option (List Nat) :=
  let flt := fun (f : FFmt) =>
    match v with
    | .flt neg m e => some (leBytes n (roundDec f neg m e))
    | .lit x => if x.hasLabel env then none else (x.eval env).map fun i => leBytes n (f.round .rne 0 (intVal i)).1
    | _ => none
  match suf with
  | "F32" => flt fp32
  | "BF16" => flt bf16
  | _ =>
    match v with
    | .lit x => (x.eval env).bind fun i =>
      if n = 8 ∨ (-(2 ^ (8 * n - 1)) ≤ i ∧ i < 2 ^ (8 * n)) then some (leBytes n (BitVec.ofInt 64 i).toNat) else none
    | _ => none

/-- A field of an image: name, bit offset from the start, width. -/
abbrev Field := String × Nat × Nat

/-- The fields of Table 17-4. -/
def rcbFields : List Field :=
  [("REGION", 0, 16), ("PARENT", 16, 16), ("CEIL", 32, 4), ("FDOM", 36, 8), ("TRACEP", 44, 1), ("DEFWAIT", 45, 1),
    ("UCEN", 46, 1), ("OVR", 64, 15), ("CORES", 128, 7), ("ARRAYS", 136, 7), ("SPADSAVE", 144, 6), ("AMP", 152, 8),
    ("TC", 160, 2), ("QLOG", 168, 5), ("AGELIM", 176, 16), ("DUSTQ", 192, 19), ("CTXN", 224, 16), ("PLACE", 256, 88),
    ("PTROOT", 384, 56), ("TRAPC", 448, 64), ("VDT", 512, 56), ("CTXA", 576, 56), ("TRBASE", 640, 56),
    ("TRSLICE", 704, 16), ("EVQ", 768, 56), ("QBASE", 832, 56), ("FRAMES", 896, 56),
    ("STATS", 1536, 512)]

/-- The fields of Table 1-4. CODE is written as a full virtual address, so its low six bits, which are ENTRY's, must be 0
(Table 4-6). -/
def crFields : List Field :=
  [("ENTRY", 0, 6), ("CODE", 0, 56), ("NOSAVE_HV", 56, 1), ("NOSAVE_TILE", 57, 1), ("TRACE", 58, 1), ("FRAME", 64, 56),
    ("TTF", 120, 8), ("JOINC", 128, 56), ("PRIO", 184, 4), ("RELEASE", 192, 32), ("DEADLINE", 224, 16),
    ("REGION", 240, 16)]

/-- The value of a field operand, if it fits the width. A literal stands for itself; any other expression is read as an
unsigned 64-bit value. -/
def fieldValue (env : Env) (w : Nat) (e : Ex) : Option Nat :=
  let v := match e with
    | .num i => if 0 ≤ i then some i.toNat else (e.eval env).map fun k => (BitVec.ofInt 64 k).toNat
    | _ => (e.eval env).map fun k => (BitVec.ofInt 64 k).toNat
  v.bind fun v => if v < 2 ^ w then some v else none

/-- The assignments of a `.rcb` or `.cr`, each `FIELD=value`; a field set twice is an error. -/
def assigns (env : Env) (fs : List Field) : List (List Tok) → Option (List (Field × Nat))
  | [] => some []
  | (.id x :: .eq :: ts) :: r => do
    let f ← fs.find? fun f => f.1 = String.ofList x
    let e ← expr ts
    let v ← fieldValue env f.2.2 e
    let k ← assigns env fs r
    if k.any (fun q => q.1 = f) then none else some ((f, v) :: k)
  | _ => none

/-- The image of a block: its words, `n` of 64 bits. -/
def imageOf (n : Nat) (as : List (Field × Nat)) : List Nat :=
  let v := as.foldl (fun acc a => acc + a.2 * 2 ^ a.1.2.1) 0
  (List.range n).map fun k => bitsOf v (64 * k) 64

/-- The value given to a field; a field not named is 0. -/
def valueOf (as : List (Field × Nat)) (x : String) : Nat :=
  match as.find? fun a => a.1.1 = x with
  | some a => a.2
  | none => 0

/-- A block for the host load list: `.rcb` or `.cr` at an address (Table 4-6). -/
def hostBlock (env : Env) (cr : Bool) (ts : List Tok) : Option (Nat × List Nat) :=
  match splitAt .comma [] ts with
  | a :: r => do
    let e ← expr a
    let adr ← fieldValue env 64 e
    let as ← assigns env (if cr then crFields else rcbFields) r
    if cr then
      if adr % 32 = 0 ∧ valueOf as "CODE" % 64 = 0 ∧ valueOf as "CODE" ≠ 0 ∧ valueOf as "FRAME" % 8 = 0
          ∧ valueOf as "JOINC" % 64 = 0 then some (adr, imageOf 4 as) else none
    else if adr % 256 = 0 then some (adr, imageOf 32 as)
    else none
  | [] => none

/-- The second reading of a line: what it puts into the object. -/
def asmLine (env : Env) (sec : Option Section) (o : Obj) (l : Line) : Option (Option Section × Obj) :=
  let p : Place := ⟨env, .data, 0, false⟩
  match l.body with
  | .none => some (sec, o)
  | .words ws => sec.bind fun s => (asmWords env o s ws).map fun o => (sec, o)
  | .dir ["section"] (.id x :: r) =>
    (sectionOf x).bind fun s =>
      match r with
      | .comma :: t => do
        let v ← p.int (← operand t)
        if 0 ≤ v then some (some s, { o with preoff := some v.toNat }) else none
      | _ => some (some s, o)
  | .dir ["align"] ts =>
    match sec, operands ts with
    | some s, some [v] =>
      ((p.int v).bind fun k => padding s (o.size s) k).map fun n => (sec, o.emit s (List.replicate n (padUnit s)))
    | _, _ => none
  | .dir ["const", suf] ts => do
    let n ← constSize suf
    let vs ← operands ts
    let bs ← vs.mapM (constValue env suf n)
    return (sec, o.emit .data bs.flatten)
  | .dir ["entry"] ts =>
    match operands ts with
    | some [n, x] => do
      let n ← p.int n
      let b ← p.label .bundle x
      if 0 ≤ n ∧ n ≤ 63 ∧ !(o.entries.any fun e => e.1 = n.toNat) then
        return (sec, { o with entries := o.entries ++ [(n.toNat, b)] }) else none
    | _ => none
  | .dir ["rcb"] ts => (hostBlock env false ts).map fun b => (sec, { o with loads := o.loads ++ [b] })
  | .dir ["cr"] ts => (hostBlock env true ts).map fun b => (sec, { o with loads := o.loads ++ [b] })
  | .dir ["window"] _ => some (sec, o)
  | .dir _ _ => none

/-- The second reading of a source. -/
def asmLines (env : Env) : List Line → Option Section → Obj → Option Obj
  | [], _, o => some o
  | l :: r, sec, o => (asmLine env sec o l).bind fun x => asmLines env r x.1 x.2

/-- Whether every section fits instruction memory (Table 1-2), and a data section with content has its offset. -/
def Obj.ok (o : Obj) : Bool :=
  ([Section.bundle, .vsec, .xsec, .msec, .data].all fun s => decide (o.size s ≤ s.limit))
    && (o.data.isEmpty || o.preoff.isSome)

/-- chz-as: the object of a source given as its lines, or none on any error (R105). -/
def assemble (src : List String) : Option Obj := do
  let ls ← readLines src
  let s ← layLines ls ⟨none, ⟨0, 0, 0, 0, 0⟩, [], [], none⟩
  let env ← addWindows s.windows s.labels
  let o ← asmLines env ls none .empty
  if o.ok then some o else none

/-! ## The kernel image and descriptor of an object -/

/-- The preload length: the data section's size, rounded up to 64 bytes (Table 4-6). -/
def Obj.prelen (o : Obj) : Nat := (o.data.length + 63) / 64 * 64

/-- The sections as they lie in the image: offset of Table 1-2 and bytes (R18, R288). The data section is filled with
zero bytes to the preload length. -/
def Obj.image (o : Obj) : List (Nat × List Nat) :=
  [(0, o.bundle.flatMap (leBytes 16)), (0x20000, o.vsec.flatMap (leBytes 4)), (0x24000, o.xsec.flatMap (leBytes 4)),
    (0x28000, o.msec.flatMap (leBytes 4)), (0x2C000, o.data ++ List.replicate (o.prelen - o.data.length) 0)]

/-- The kernel descriptor of an object whose image lies at an address (Table 17-2): 32 words of 64 bits. The undercoat
fields are no part of the source, and are 0. -/
def Obj.descriptor (o : Obj) (image : Nat) : List Nat :=
  let sizes := o.bundle.length + o.vsec.length * 2 ^ 16 + o.xsec.length * 2 ^ 32 + o.msec.length * 2 ^ 48
  let entry := fun n => match o.entries.find? fun e => e.1 = n with
    | some e => 0x8000 + e.2
    | none => 0
  [image, sizes, o.prelen + o.preoff.getD 0 * 2 ^ 21] ++ List.replicate 13 0
    ++ (List.range 16).map fun k =>
      entry (4 * k) + entry (4 * k + 1) * 2 ^ 16 + entry (4 * k + 2) * 2 ^ 32 + entry (4 * k + 3) * 2 ^ 48

end Sys2Proof.Asm
end

