-- ==== Sys2Proof/Machine/ChalkRead.lean ====
section
/-! DEFINITION. The trace decoder chz-trace: the packets of Table 11-7, and the instruction stream that it rebuilds (R246,
R247). -/

namespace Sys2Proof.Machine

/-- A packet as Table 11-7 lays it out. -/
inductive Packet
  | pad
  | sync (sched : Nat)
  | frame (clk : Nat)
  | bundle (delta index slots : Nat) (long : Bool) (stall : Nat)
  | entry (delta obs : Nat) (done run : Bool) (word : Nat)
  | mark (delta cls value : Nat)
  | markHigh (value : Nat)
  | freeze (delta cause : Nat) (preempt : Bool)
  | resume
  | crStart (va : Nat) (claim : Bool)
  | crEnd (delta : Nat) (trapped : Bool)
  | lost (n : Nat)
  /-- Types 0xC-0xF, which the hardware never writes. -/
  | corrupt (typ : Nat)
  deriving DecidableEq, Repr

/-- Read a packet by its type in bits 3:0 (R246). -/
def readPacket (w : Word) : Packet :=
  let d := fld w 4 16
  match fld w 0 4 with
  | 0x0 => .pad
  | 0x1 => .sync (fld w 4 60)
  | 0x2 => .frame (fld w 4 60)
  | 0x3 => .bundle d (fld w 20 13) (fld w 33 4) (fld w 37 1 == 1) (fld w 38 3)
  | 0x4 => .entry d (fld w 20 4) (fld w 24 1 == 1) (fld w 25 1 == 1) (fld w 26 12)
  | 0x5 => .mark d (fld w 20 8) (fld w 28 32)
  | 0x6 => .markHigh (fld w 4 32)
  | 0x7 => .freeze d (fld w 20 8) (fld w 28 1 == 1)
  | 0x8 => .resume
  | 0x9 => .crStart (fld w 4 51 * 32) (fld w 55 1 == 1)
  | 0xA => .crEnd d (fld w 20 1 == 1)
  | 0xB => .lost (fld w 4 32)
  | t => .corrupt t

/-- The cycles since the previous timed packet or SYNC, of a timed packet (Table 11-7). -/
def Packet.delta : Packet → Option Nat
  | .bundle d .. | .entry d .. | .mark d .. | .freeze d .. | .crEnd d .. => some d
  | _ => none

/-- The packets of a chalk line with the SCHED_CLK value of each timed one, counted from the SYNC before it; PAD is
skipped. The low 60 bits of the counter are known (R246). -/
def timeline : Option Nat → List Word → List (Option Nat × Packet)
  | _, [] => []
  | at?, w :: r =>
    match readPacket w with
    | .pad => timeline at? r
    | .sync c => (some c, .sync c) :: timeline (some c) r
    | p =>
      match p.delta with
      | some d => (at?.map (· + d), p) :: timeline (at?.map (· + d)) r
      | none => (none, p) :: timeline at? r

/-- The instruction stream: the bundles issued, each as the 128-bit value at its index in the kernel image of the CR that
the last CRSTART names. A CR that starts by the claim of an undercoat launch issues no bundle (R247). -/
def instructionStream (image : Nat → List Nat) : Option Nat → List Word → List (Nat × Nat)
  | _, [] => []
  | cr, w :: r =>
    match readPacket w, cr with
    | .crStart va _, _ => instructionStream image (some va) r
    | .bundle _ i _ _ _, some va => (i, (image va).getD i 0) :: instructionStream image cr r
    | _, _ => instructionStream image cr r

/-- Whether a chalk line holds a packet that the hardware never writes: chz-trace reports it as corruption (R246). -/
def corrupted (ws : List Word) : Bool := ws.any fun w => 0xC ≤ fld w 0 4

end Sys2Proof.Machine
end

