-- ==== Sys2Proof/Tests/Slice0.lean ====
section
/-! SUPPORT. The model's own tests: a witness for the hypotheses of each statement, words written out from the spec's
encodings, terms that WellFormed refuses, and single steps on small states. -/

namespace Sys2Proof.Tests
open Sys2Proof Machine

/-! ### States for the tests -/

/-- Core 0 runs, changed by `f`; everything else is as after reset. -/
def coreWith (f : Core → Core) : State :=
  { State.reset with cores := [(0, f { Core.reset with status := .running })] }

/-- Core 0 runs with the given values in s1 and s2. -/
def regsOf (x y : Word) : State := coreWith fun c => { c with regs := vset (vset c.regs 1 x) 2 y }

/-- Core 0 runs, changed by `f`, and the rest of the machine by `g`. -/
def withRest (f : Core → Core) (g : State → State) : State := g (coreWith f)

/-- What an access gives, when it can be made at once. -/
def tryOk {α : Type} (x : Try α) : Option α :=
  match x with
  | .ok a _ => some a
  | _ => none

/-! ### Witnesses: states and operands that meet the hypotheses of the statements, each clause at a boundary -/

theorem witness_LeaSumOrAddressFault :
    ((regsOf (2 ^ 56 - 1) 0).sval (.reg 1) + (0#14).signExtend 64).toNat < 2 ^ 56
      ∧ 2 ^ 56 ≤ ((regsOf (2 ^ 56 - 1) 0).sval (.reg 1) + (1#14).signExtend 64).toNat
      ∧ 2 ^ 56 ≤ ((regsOf 0 0).sval (.reg 1) + (1#46 <<< 45).signExtend 64).toNat
      ∧ (regsOf 0 0).me.uc = none ∧ (regsOf 0 0).me.status = .running := by decide

theorem witness_BitFieldResults :
    (63#6).toNat + 1 + (0#6).toNat ≤ 64 ∧ (0#6).toNat + 1 + (63#6).toNat ≤ 64 := by decide

theorem witness_FloatingPointResults :
    (regsOf 0x7F800000 0xFF800000).sfval (.reg 1) = .inf false ∧ (regsOf 0x7F800000 0xFF800000).sfval (.reg 2) = .inf true
      ∧ ((regsOf 0 0x7F800000).sfval (.reg 1)).isZero = true ∧ ((regsOf 0 0x7F800000).sfval (.reg 2)).isInf = true
      ∧ ((regsOf 0x7F800001 0).sfval (.reg 1)).isSig = true ∧ ((regsOf 0x7FC00000 0).sfval (.reg 1)).isNan = true := by decide

theorem witness_ControlTransferTargets :
    (coreWith fun c => { c with pc := 8191 }).me.pc + (0#19).toInt < 8192
      ∧ 8192 ≤ ((coreWith fun c => { c with pc := 8191 }).me.pc : Int) + (1#19).toInt
      ∧ ((coreWith id).me.pc : Int) + (BitVec.ofInt 19 (-1)).toInt < 0
      ∧ ((coreWith id).me.pred 0 != false) = true ∧ ((coreWith id).me.pred 1 != false) = false
      ∧ (regsOf 0 0).me.reg 1 = 0 ∧ (regsOf 1 0).me.reg 1 = 1 ∧ (regsOf 2 0).me.reg 1 ≠ 0 ∧ (regsOf 2 0).me.reg 1 ≠ 1
      ∧ (coreWith id).me.uc = none ∧ (coreWith id).me.status = .running := by decide

/-- A translation of the page at VA 0 to PA 0, writable, reach POD. -/
def tlb0 : TlbEnt := { region := 0, va := 0, lg := 16, pa := 0, w := true, reach := .pod }

theorem witness_AccessWordsSendOneRequest :
    Reachable (regsOf (2 ^ 56 - 8) 0) false (((regsOf (2 ^ 56 - 8) 0).me.reg 1 + (0#13).signExtend 64).toNat) 8
      ∧ Reachable (regsOf (2 ^ 21 - 1) 0) true (((regsOf (2 ^ 21 - 1) 0).me.reg 1 + (0#13).signExtend 64).toNat) 1
      ∧ (coreWith fun c => { c with ld := 254, st := 254 }).me.ld < 255
      ∧ (tlbHit (coreWith fun c => { c with tlb := [tlb0] }).me.tlb 0 0).isSome = true
      ∧ (tlbHit (coreWith id).me.tlb 0 0).isSome = false
      ∧ Reachable (regsOf 4 0) false ((regsOf 4 0).sval (.reg 1)).toNat 4 ∧ (regsOf 4 0).me.st < 255
      ∧ vget (coreWith fun c => { c with win := vset c.win 15 (some ⟨0, 256, 128, 0, .pod⟩) }).me.win none 15
          = some ⟨0, 256, 128, 0, .pod⟩ := by
  refine ⟨⟨by decide, by decide⟩, ⟨by decide, by decide⟩, by decide, by decide, by decide, ⟨by decide, by decide⟩, by decide, by decide⟩

theorem witness_MisalignedAccessFaultsBeforeRange :
    (coreWith id).me.status = .running ∧ (coreWith id).me.uc = none
      ∧ ((regsOf 1 0).me.reg 1 + (0#13).signExtend 64).toNat % 2 ≠ 0
      ∧ ((regsOf (2 ^ 56) 0).me.reg 1 + (0#13).signExtend 64).toNat % 8 = 0
      ∧ 2 ^ 56 < ((regsOf (2 ^ 56) 0).me.reg 1 + (0#13).signExtend 64).toNat + 8
      ∧ 2 ^ 21 < ((regsOf (2 ^ 21) 0).me.reg 1 + (0#13).signExtend 64).toNat + 1
      ∧ ((regsOf 2 0).sval (.reg 1)).toNat % 4 ≠ 0 ∧ ((regsOf (2 ^ 56) 0).sval (.reg 1)).toNat % 8 = 0 := by decide

/-- A load of the scratchpad's last bytes into s5, and a store to them. -/
def spLoad : Access := { kind := .load 5 true, sp := true, addr := 2 ^ 21 - 4, size := 4 }
def spStore : Access := { kind := .store 7, sp := true, addr := 2 ^ 21 - 8, size := 8 }

theorem witness_ScratchpadLoadAndStorePerform :
    OwnAccess (coreWith fun c => { c with inflight := [spLoad], ld := 1 }) 0 0 spLoad
      ∧ OwnAccess (coreWith fun c => { c with inflight := [{ spLoad with addr := 0 }, spStore], st := 1 }) 0 1 spStore := by
  unfold OwnAccess; decide

/-- A global store, an atomic, a compare-and-swap and a load of address 0. -/
def gStore : Access := { kind := .store 7, addr := 65528, size := 8, lim := 0xEA60 }
def gAmo : Access := { kind := .amo 5 6 false 9, addr := 4, size := 4, lim := 0xEA60 }
def gCas : Access := { kind := .cas 5 0 9, addr := 0, size := 8, lim := 0xEA60 }
def gLoad : Access := { kind := .load 5 false, addr := 0, size := 8, lim := 0xEA60 }

/-- A machine whose only core has one access out is plain. -/
theorem plainAccess_alone (a : Access) (h1 : a.sp = false) (h2 : a.held = false) (h3 : a.sent = false) (h4 : a.err = none)
    (h7 : a.atSrc = false) (h8 : 0 < a.at_ + a.lim / 2)
    (h5 : tlbHit [tlb0] 0 a.addr = some tlb0)
    (h6 : HereAt (coreWith fun c => { c with inflight := [a], tlb := [tlb0] }) 0 3 (0 + a.addr % 2 ^ 16) a.size) :
    PlainAccess (coreWith fun c => { c with inflight := [a], tlb := [tlb0] }) 0 a tlb0 := by
  refine ⟨rfl, h1, h2, h3, h4, h7, h8, rfl, rfl, h5, ⟨rfl, rfl, rfl, fun l h => ?_, rfl, fun p h => ?_⟩, h6⟩
  · cases h
  · simp only [coreWith, List.mem_singleton] at h
    subst h
    rfl

theorem witness_GlobalLoadStoreAndAtomicPerform :
    PlainAccess (coreWith fun c => { c with inflight := [gStore], tlb := [tlb0] }) 0 gStore tlb0
      ∧ PlainAccess (coreWith fun c => { c with inflight := [gAmo], tlb := [tlb0] }) 0 gAmo tlb0
      ∧ PlainAccess (coreWith fun c => { c with inflight := [gCas], tlb := [tlb0] }) 0 gCas tlb0
      ∧ PlainAccess (coreWith fun c => { c with inflight := [gLoad], tlb := [tlb0] }) 0 gLoad tlb0 ∧ tlb0.w = true :=
  ⟨plainAccess_alone _ rfl rfl rfl rfl rfl (by decide) rfl (by unfold HereAt; decide),
    plainAccess_alone _ rfl rfl rfl rfl rfl (by decide) rfl (by unfold HereAt; decide),
    plainAccess_alone _ rfl rfl rfl rfl rfl (by decide) rfl (by unfold HereAt; decide),
    plainAccess_alone _ rfl rfl rfl rfl rfl (by decide) rfl (by unfold HereAt; decide), rfl⟩

theorem witness_OrderingWordsWaitAndIssue :
    (coreWith id).me.performed .pod = true ∧ (coreWith id).me.readsPerformed = true
      ∧ (coreWith fun c => { c with inflight := [gStore], st := 1 }).me.performed .core = false
      ∧ (coreWith fun c => { c with fmtq := List.replicate 15 0 }).me.fmtq.length < 16
      ∧ 16 ≤ (coreWith fun c => { c with fmtq := List.replicate 16 0 }).me.fmtq.length
      ∧ (coreWith fun c => { c with ld := 8 }).me.ld ≤ (8#8).toNat
      ∧ ¬ (coreWith fun c => { c with ld := 9 }).me.ld ≤ (8#8).toNat := by decide

theorem witness_WaitaAndWaitqCompareAndGoOn :
    ((regsOf (2 ^ 21 - 8) 0).sval (.reg 1)).toNat + 8 ≤ 2 ^ 21 ∧ (regsOf (2 ^ 21 - 8) 0).me.tiles = []
      ∧ (regsOf (2 ^ 21 - 8) 0).me.guarded 3 (2 ^ 21 - 8) 8 = false
      ∧ ((regsOf (2 ^ 21 - 8) 0).sval (.reg 2)).toNat ≤ (regsOf (2 ^ 21 - 8) 0).me.spad.rdN (2 ^ 21 - 8) 8
      ∧ (regsOf (2 ^ 21 - 8) 1).me.spad.rdN (2 ^ 21 - 8) 8 < ((regsOf (2 ^ 21 - 8) 1).sval (.reg 2)).toNat
      ∧ tryOk ((coreWith fun c => { c with tlb := [tlb0] }).rdA 0 3 false 0 16) = some (List.replicate 16 0) := by decide

theorem witness_BlockRequestsSendAndTakeReplies :
    (∃ t, AtBlock (coreWith fun c => { c with tlb := [tlb0] }) 0 32 true true 0 3 t)
      ∧ (∃ t, AtBlock (coreWith fun c => { c with tlb := [tlb0] }) 0 16 false true 0 3 t)
      ∧ (∃ t, AtBlock (coreWith fun c => { c with tlb := [tlb0] }) 64 64 true true 64 3 t)
      ∧ (coreWith fun c => { c with sync := some { pa := 0, reply := some (.value 7) } }).me.sync
          = some { pa := 0, reply := some (.value 7) }
      ∧ (coreWith fun c => { c with sync := some { pa := 0, reply := some (.fault .sbarOverrun 0) } }).me.sync
          = some { pa := 0, reply := some (.fault .sbarOverrun 0) }
      ∧ (coreWith id).me.status = .running ∧ (coreWith id).me.uc = none ∧ (coreWith id).phNat 3 8 8 = 0 ∧ BitVec.ofNat 64 ((coreWith id).phNat 3 0 8) ≠ 1#64 := by
  refine ⟨⟨_, by decide, by decide, by decide, by decide, by decide, rfl, by decide, by decide, by decide, by decide⟩,
    ⟨_, by decide, by decide, by decide, by decide, by decide, rfl, by decide, by decide, by decide, by decide⟩,
    ⟨_, by decide, by decide, by decide, by decide, by decide, rfl, by decide, by decide, by decide, by decide⟩,
    by decide, by decide, by decide, by decide, by decide, by decide⟩

/-- The request of core 0 at the block at PA 0, where `m` is memory. -/
def posted (op : HomeOp) (m : Memory) : State :=
  withRest id fun s => { s with cp := { s.cp with posts := [⟨0, 3, 0, 0, op⟩] }, mem := m }

/-- The home takes that request at once. -/
def homeTakes (s : State) : Bool :=
  match s.homeReady 0 3 0 32 with
  | .ok _ u => u.room 3 0 && u.cp.posts == s.cp.posts
  | _ => false

theorem witness_StageBarrierHomeStep :
    ([posted (.arrive 1) ((Memory.empty.wrN 12 4 1).wrN 8 4 1), posted (.arrive 1) (Memory.empty.wrN 12 4 2), posted (.arrive 1) .empty,
        posted (.wait 0) .empty, posted (.wait 1) .empty, posted (.fill 7) .empty, posted (.fill 7) (Memory.empty.wrN 8 8 2),
        posted (.fill 7) (Memory.empty.wrN 8 8 3), posted .get .empty, posted .get (Memory.empty.wrN 8 8 1)].all homeTakes) = true
      ∧ (posted (.arrive 1) (Memory.empty.wrN 12 4 1)).phNat 3 12 4 = 1 ∧ (posted (.arrive 1) .empty).phNat 3 12 4 = 0 := by decide
/-! ### A region with memory: an identity mapping of the first 32 MiB -/

/-- Region 1, a root: every field its own, page table at 16 MiB, VDT at 0x2000, queues at 0x4000, contexts at 0x100000. -/
def reg1 : Region :=
  { num := 1, pa := 0x3000, st := .active, credit := [], stats := Vector.replicate 8 0
    w := Vector.ofFn fun k : Fin 24 =>
      ([0x00004F0F00000001, 0x7FFF, 0x0001060001010808, 0x0000000100000010, 0xFFFFFFFFFFFFFFFF, 0xFFFFFF, 0x1000000, 0, 0x2000,
        0x100000, 0, 0, 0, 0x4000] : List Word).getD k.val 0 }

/-- The page table of region 1, and virtual die 0 bound to M0 of this device. -/
def mem1 : Memory :=
  (((Memory.empty.wrN 0x1000000 8 0x1010001).wrN 0x1010000 8 0x1020001).wrN 0x1020000 8 0x3F).wrN 0x2000 4 0x80008000

/-- A CR of region 1 whose image is zero but for its region. -/
def img1 : CrImg := ⟨0, 0, 0, 0⟩
def cr1 (st : CrSt) : Cr :=
  { img := img1, va := 0x5000, region := 1, prio := 0, tag := 0, st := st, enq := 0, aged := 0, deadline := 0, late := false
    desc := [] }

/-- Core 0 runs CR 1 of region 1, changed by `f`, in a machine changed by `g`. -/
def inRegion (f : Core → Core) (g : State → State := id) : State :=
  g { State.reset with
    mem := mem1, cores := [(0, f { Core.reset with status := .running, region := 1, cr := some 1 })]
    cp := { CpState.reset with regions := [reg1], crs := [(1, cr1 (.running 0))], nextCr := 2, inited := true }
    dev := { DevState.reset with fwrun := true } }

theorem test_walk_identity :
    (match (inRegion id).walk 1 0x5000 with
      | .ok p => decide (p.pa + 0x5000 % 2 ^ p.lg = 0x5000 ∧ p.w = true ∧ p.reach = .pod)
      | .error _ => false) = true := by decide

theorem test_walk_beyond_the_page_faults :
    (match (inRegion id).walk 1 0x2000000 with
      | .ok _ => none
      | .error e => some (e.cause, e.entry)) = some (.xlate, 0x1020008) := by decide

theorem test_virtual_die_bound : (inRegion id).vdie 0 0 = .bound 0 2 := by decide

theorem witness_SystemRegisterReadsAndWrites :
    (coreWith id).me.sysHeld 0 = false ∧ (coreWith id).me.sysHeld 0x0BF = false ∧ (coreWith id).me.shadowHeld 0x0BF = false
      ∧ (0x0BF#12).toNat ≠ 0x201 ∧ (coreWith id).me.tl = 0 ∧ (coreWith id).me.hu.cur = none
      ∧ (coreWith id).me.hu.queue = [] := by decide

theorem witness_TrapRaisesAfterItsBundle : (coreWith id).me.status = .running ∧ (coreWith id).me.uc = none := by decide

theorem witness_LocalServiceWords :
    (inRegion id).me.trace.active = false
      ∧ (vget (coreWith fun c => { c with ch := vset c.ch 7 { Channel.zero with chainOut := true } }).me.ch .zero 7).chainOut = true
      ∧ (inRegion id).me.performed .pod = true ∧ (inRegion id).me.uc = none ∧ (inRegion id).vdie 0 0 = .bound 0 2
      ∧ (match (inRegion id).vdtEntry 0 1023 with
          | .ok e => decide (e = 0)
          | .error _ => false) = true
      ∧ ((inRegion id).region? (inRegion id).me.region).isSome = true
      ∧ ((inRegion id).region? 1).bind (inRegion id).freeSlot = some 0x100000
      ∧ (((inRegion id fun s => { s with cp := { s.cp with saved := [⟨0x100000, 1, 2, .reset, [], 0⟩] } }).region? 1).bind
          (inRegion id fun s => { s with cp := { s.cp with saved := [⟨0x100000, 1, 2, .reset, [], 0⟩] } }).freeSlot) = none := by decide

/-- A shape word: base, count and type, with stride 1. -/
def shw (base count ty : Nat) : Word := BitVec.ofNat 64 (base + 2 ^ 24 + count * 2 ^ 40 + ty * 2 ^ 56)

/-- Core 0 runs with the first shapes at the given words. -/
def shaped (l : List Word) : State := coreWith fun c => { c with sh := Vector.ofFn fun k : Fin 16 => l.getD k.val 0 }

/-- No watermark of a state with fresh channels is armed. -/
theorem unguarded (l : List Word) (k off n : Nat) : (shaped l).me.guarded k off n = false := by
  have h : ∀ j, j < 8 → (vget (shaped l).me.ch .zero j) = .zero := by
    intro j hj; simp [shaped, coreWith, State.me, State.core, tabGet, Core.reset, State.reset, vget, hj]
  simp [Core.guarded]
  intro a ha
  rw [h a ha]
  simp [Channel.zero]

theorem fresh (l : List Word) : (shaped l).me.ve.Fresh := ⟨rfl, rfl, rfl, rfl, rfl, rfl, rfl⟩

/-- 16 I32 elements up to the scratchpad's end, and one. -/
def shI : State := shaped [shw 0x1FFFC0 16 0x0E, shw 0 16 0x0E, shw 64 1 0x0E, shw 128 16 0x0E]

theorem witness_VectorIntegerSteps :
    (shI.shape 0).isI = true ∧ (shI.shape 1).isI = true ∧ (shI.shape 1).count = (shI.shape 0).count
      ∧ (shI.shape 2).isI = true ∧ (shI.shape 2).count = 1 ∧ (Src.reg 1).isFloat = false
      ∧ VeReady shI [shI.shape 0, shI.shape 1, shI.shape 2] :=
  ⟨by decide, by decide, by decide, by decide, by decide, by decide, by decide, fun _ _ => unguarded _ _ _ _, fresh _, by decide⟩

/-- The same with FP32 elements. -/
def shF : State := shaped [shw 0x1FFFC0 16 0, shw 0 16 0, shw 64 1 0, shw 128 16 0]

set_option maxRecDepth 20000 in
theorem witness_VectorFloatSteps :
    (shF.shape 0).isF = true ∧ (shF.shape 1).isF = true ∧ (shF.shape 1).count = (shF.shape 0).count
      ∧ (shF.shape 2).isF = true ∧ (shF.shape 2).count = 1 ∧ shF.s0Up 0 = true
      ∧ VeReady shF [shF.shape 0, shF.shape 1, shF.shape 2, shF.shape 3] :=
  ⟨by decide, by decide, by decide, by decide, by decide, by decide, by decide, fun _ _ => unguarded _ _ _ _, fresh _, by decide⟩

theorem witness_VectorSelectConvertFill :
    (shI.shape 0).isI = true ∧ (shI.shape 3).isI = true ∧ (shF.shape 0).isF = true ∧ (shI.shape 0).width = (shI.shape 1).width
      ∧ VeReady shI [shI.shape 0, shI.shape 1, shI.shape 2, shI.shape 3]
      ∧ VeReady (shaped [shw 0 16 0, shw 64 16 0x0E]) [⟨0, shw 0 16 0⟩, ⟨1, shw 64 16 0x0E⟩] :=
  ⟨by decide, by decide, by decide, by decide, ⟨by decide, fun _ _ => unguarded _ _ _ _, fresh _, by decide⟩,
    by decide, fun _ _ => unguarded _ _ _ _, fresh _, by decide⟩

/-- 32 E4M3 elements with one scale code, and 32 FP32 elements; 64 elements in blocks of 32. -/
def shM : State := shaped [shw 0 64 3, shw 256 64 0, shw 1024 2 0x10, shw 2048 1 0]

theorem witness_VectorReductionsAndBlocks :
    (shI.shape 2).count = 1 ∧ (shI.shape 0).count = (shI.shape 1).count ∧ (shI.shape 0).isF = false
      ∧ (shM.shape 3).isF = true ∧ (shM.shape 3).count = 1 ∧ (shM.shape 1).isF = true
      ∧ (tyM (shM.shape 0).ty).isSome = true ∧ (shM.shape 2).ty = 0x10 ∧ (shM.shape 0).count = (shM.shape 1).count
      ∧ blockLen (shM.shape 1).count (shM.shape 2).count = some 32
      ∧ VeReady shM [shM.shape 0, shM.shape 1, shM.shape 2] ∧ VeReady shM [shM.shape 3, shM.shape 1]
      ∧ VeReady shI [shI.shape 2, shI.shape 1] :=
  ⟨by decide, by decide, by decide, by decide, by decide, by decide, by decide, by decide, by decide, by decide,
    ⟨by decide, fun _ _ => unguarded _ _ _ _, fresh _, by decide⟩, ⟨by decide, fun _ _ => unguarded _ _ _ _, fresh _, by decide⟩,
    ⟨by decide, fun _ _ => unguarded _ _ _ _, fresh _, by decide⟩⟩

/-- A VCHAIN of two steps: sh0 = sh1 + sh1, then sh3 = sh0 + sh1. -/
def shC : State :=
  let s := shI
  s.upd fun c => { c with imem := (c.imem.wrN 0x20004 4 0x04044000).wrN 0x20008 4 0x04C04000 }

set_option maxRecDepth 20000 in
theorem witness_VectorGatherScatterAndPrograms_chain :
    (match shC.me.chainWords 2 with
      | some is => decide (is = [.vadd 0 1 1 .rne, .vadd 3 0 1 .rne]) && (chainCheck shC is).isNone
          && !(shC.chainBad (is.filterMap linkOf)) && (chainRun 0 none is (shC.unitDone .ve)).isOk
      | none => false) = true := by decide

theorem witness_VectorGatherScatterAndPrograms :
    (shI.shape 1).isI = true ∧ (shI.shape 1).width = 32 ∧ shI.me.ve.elem = 0 ∧ (shI.shape 0).packed = false
      ∧ shI.vIndexFail true (shI.shape 0).size (shI.shape 0).runs
          ((bcast (shI.shape 0).count ((shI.shape 1).readIn shI.me.spad)).map (shI.shape 1).int) = none
      ∧ VeReady shI [shI.shape 0, shI.shape 1] :=
  ⟨by decide, by decide, by decide, by decide, by decide, ⟨by decide, fun _ _ => unguarded _ _ _ _, fresh _, by decide⟩⟩
/-- Core 0 with a format word queued and the ME's active descriptors: t0 BF16 32 × `cols`, t1 BF16 32 × 16. -/
def meState (w : BitVec 128) (cols : Nat) (sp : List (List Byte)) : State :=
  let s := coreWith fun c => { c with
    fmtq := [w]
    meActive := { MeCfg.pop with tdesc := Vector.ofFn fun k : Fin 16 =>
      ([BitVec.ofNat 64 (1 + 32 * 2 ^ 8 + cols * 2 ^ 19), 1 + 16 + 32 * 2 ^ 8 + 16 * 2 ^ 19] : List Word).getD k.val 0 } }
  { s with arrays := [(0, ⟨.empty, .empty, sp, none, some 0⟩)] }

/-- What MMA and MMAS of t0, t1 need of a state with one array. -/
def mmaReady (s : State) (w : BitVec 128) (sparse : Bool) : Bool :=
  let c := s.me
  let u : MmaUse := ⟨c.tdesc (c.effA 0), c.tdesc (c.effB 1), c.effA 0, c.effB 1, c.effD 0,
    if bitsOf w.toNat 8 1 = 1 then 16 else 32, (c.tdesc (c.effB 1)).rows, sparse⟩
  fmtOkMma w sparse && u.shapeOk (bitsOf w.toNat 0 4) (bitsOf w.toNat 4 4) && decide (u.k % u.b = 0)
    && s.dieReach (arrayDie 0) (arrayDie 0) && decide (c.selected 0 = some [(0, 0)])
    && (!sparse || decide (u.k / u.b ≤ (s.array 0).sparse.length))

set_option maxRecDepth 20000 in
theorem witness_MatrixMultiplySteps :
    MeStart (meState 0x11 32 []) [(0, 0)] 0x11 ∧ mmaReady (meState 0x11 32 []) 0x11 false = true
      ∧ mmaReady (meState 0x811 16 [List.replicate 128 0x44]) 0x811 true = true
      ∧ MeStart (meState 0x811 16 [List.replicate 128 0x44]) [(0, 0)] 0x811 := by
  refine ⟨⟨by decide, by decide, by decide, .inr ⟨by decide, by decide⟩⟩, by decide, by decide,
    ⟨by decide, by decide, by decide, .inr ⟨by decide, by decide⟩⟩⟩

theorem witness_MatrixTileSteps :
    (meState 0 32 []).me.selected 0 = some [(0, 0)] ∧ (meState 0 32 []).me.fmtHeld = none ∧ fmtOkNarrow 0 = true
      ∧ (meState 0 32 []).me.fmtq.head? = some 0 ∧ (meState 0 32 []).me.meProg = Vector.replicate 4 0
      ∧ ((meState 0 32 []).me.tdesc 0).valid = true ∧ ((meState 0 32 []).me.tdesc 0).elemBytes ≤ 16384
      ∧ (meState 0 32 []).me.tdesc 0 = { (meState 0 32 []).me.tdesc 0 with rows := 32, cols := 32 }
      ∧ (coreWith fun c => { c with fmtHeld := some 0 }).me.fmtHeld = some 0 := by decide

/-- Array 1 is held in slot 3. -/
def holds1 : State := inRegion (fun c => { c with slots := vset c.slots 2 (some 1) })

theorem witness_ArrayOwnershipSteps :
    1 ≤ (3#4).toNat ∧ (3#4).toNat ≤ 3 ∧ (inRegion id).me.uc = none ∧ (inRegion id).me.fmtHeld = none
      ∧ (inRegion id).vdie 0 (fld 0x400 0 10) = .bound 0 2
      ∧ (match (inRegion id).mownDecide 3 0x400 0 2 with
          | .ok k => k
          | .error _ => 0) = 1
      ∧ (match (inRegion id).mownDecide 3 0 0 2 with
          | .ok _ => 0
          | .error e => e) = 5
      ∧ holds1.me.slotArray 0 3 = some 1 ∧ holds1.fab.fabId = 0 := by decide

theorem witness_MatrixProgramSteps :
    (coreWith fun c => { c with me := { c.me with cur := some ⟨0, c.regs, 0⟩ } }).me.me.cur.isSome = true
      ∧ nextIdx ((coreWith id).me.meActive.loops.toList.map fun w => Nat.max 1 (fld w 0 16)) [0, 0, 0, 0, 0, 0] = none
      ∧ nextIdx [2, 1, 1, 1, 1, 1] [0, 0, 0, 0, 0, 0] = some [1, 0, 0, 0, 0, 0]
      ∧ (coreWith fun c => { c with me := { c.me with upc := noUpc } }).me.me.inProg = false ∧ (coreWith id).me.meProg = Vector.replicate 4 0 := by decide

/-- Core 0 with channel 7 as given. -/
def chWith (h : Channel) : State := coreWith fun c => { c with ch := vset c.ch 7 h }

/-- A channel from the scratchpad's start to its last 4,096 bytes. -/
def spCh : Channel :=
  { Channel.zero with active := { ChCfg.zero with src := 1 <<< 56, dst := (1 <<< 56) + 0x1FF000, rstr := 0x0000080000000800 } }

theorem unguarded_ch (h : Channel) (he : h.wendSeen = 0) (k off n : Nat) : (chWith h).me.guarded k off n = false := by
  have hz : ∀ j, j < 8 → (vget (chWith h).me.ch .zero j).wendSeen = 0 := by
    intro j hj
    by_cases h7 : j = 7
    · subst h7; simpa [chWith, coreWith, State.me, State.core, tabGet, Core.reset, State.reset, vget, vset] using he
    · simp [chWith, coreWith, State.me, State.core, tabGet, Core.reset, State.reset, vget, vset, hj, Ne.symm h7, Channel.zero]
  simp only [Core.guarded, List.any_eq_false, List.mem_range]
  intro a ha
  simp [hz a ha]

theorem witness_ScratchpadCopySteps :
    XStart (chWith spCh) 7 ∧ spaceOf spCh.active.src = some .spad ∧ spaceOf spCh.active.dst = some .spad
      ∧ ((chWith spCh).xv 7 (.const 39)).toNat = 4096 ∧ spCh.addr 0 0 = 0 ∧ spCh.addr 1 0x1FF000 + 4096 = 2 ^ 21
      ∧ ((chWith spCh).xv 7 (.const 9)).toNat = 1 ∧ ((chWith spCh).xv 7 (.const 33)).toNat = 64
      ∧ sextNat 32 (fld spCh.active.rstr 32 32) = 2048
      ∧ (let m : Word := 0x401
        fld m 0 10 = 1 ∧ fld m 10 1 = 1 ∧ fld m 11 53 = 0)
      ∧ fld (0x53#64) 0 5 = 0x13 ∧ fld (0x53#64) 6 2 ≤ 2 ∧ (chWith spCh).me.slotArray 0 0 = some 0
      ∧ ((chWith spCh).array 0).sparse.length < 32 :=
  ⟨⟨by decide, ⟨⟨rfl, rfl, rfl, rfl, rfl, rfl, rfl⟩, rfl⟩, by decide, by decide, fun _ _ => unguarded_ch _ rfl _ _ _⟩, by decide, by decide, by decide,
    by decide, by decide, by decide, by decide, by decide, by decide, by decide, by decide, by decide, by decide⟩

/-- A channel from global memory to the scratchpad. -/
def glCh : Channel := { spCh with active := { spCh.active with src := 0x1000 } }

/-- Core 0 of region 1 with channel 7 as given. -/
def chRegion (h : Channel) : State := inRegion fun c => { c with ch := vset c.ch 7 h }

theorem witness_GlobalCopyGoesThroughTheObserver :
    spaceOf glCh.active.src = some .glob ∧ spaceOf glCh.active.dst = some .spad
      ∧ (⟨.glob, [(0x1000, 4096)]⟩ : Side).fail (chRegion glCh).me 0 = none
      ∧ (⟨.spad, [(0x1FF000, 4096)]⟩ : Side).fail (chRegion glCh).me 0 = none
      ∧ (⟨.glob, [(0x1000, 4096)]⟩ : Side).meets ⟨.spad, [(0x1FF000, 4096)]⟩ = false
      ∧ (tryOk ((chRegion glCh).sideRead 7 .glob 0x1000 1)) = some [0]
      ∧ (tryOk ((chRegion glCh).sideWrite 7 .spad 0x1FF000 [1])).isSome = true := by decide

theorem witness_ChannelControlSteps :
    (chWith spCh).me.writtenAt .pod = true ∧ spCh.eng.fails = [] ∧ (chWith spCh).me.tiles = [] ∧ fld (0x80000000001FFFF8#64) 63 1 = 1 ∧ fld (0x80000000001FFFF8#64) 0 21 % 8 = 0
      ∧ fld (0x80000000001FFFF8#64) 21 42 = 0 ∧ (chWith spCh).me.edgeHeld 7 = false ∧ (chWith spCh).me.uc = none
      ∧ (chWith spCh).me.guarded 15 0x1FFFF8 8 = false ∧ (32#64).toNat % 32 = 0
      ∧ (tryOk ((chRegion spCh).blockAt 0 0x1000 true 15)).isSome = true
      ∧ fld (vget { spCh.active with loops := vset spCh.active.loops 5 0x50000 }.loops 0 5) 16 2 ≠ 0
      ∧ (31#64).toNat ≤ 31 ∧ (footOf 0 0xC0000000FFFFFFFF).isSome = true ∧ spCh.foots.length < 2
      ∧ ({ spCh with eng := { Engine.empty with upc := noUpc } } : Channel).eng.inProg = false ∧ spCh.foots = [] ∧ (wordAddr 0x1000 8).2.2 = none
      ∧ (chWith { spCh with eng := { Engine.empty with cur := some ⟨0, Vector.replicate 32 0, 0⟩ } }).me.status = .running := by
  decide

/-- A card that waits on, posts to and ends at words of the scratchpad. -/
def card (step : CardStep) (flags : Nat) : ChainSt :=
  { card := 0x1000, step := step, seqWord := 0, scope := .pod, chain := true, waitAt := 0, last := 0
    img := [0, flags * 2 ^ 32, 0, 0, 0, 0, 0x80000000001FFFF8, 0, 0x8000000000000000, 1, 0, 0, 0, 0, 0, 0] }

theorem witness_JobCardSteps :
    (chWith { spCh with chain := some (card .read 0) }).me.status = .running
      ∧ (tryOk ((chRegion { spCh with chain := some (card .read 0) }).rdA 0 15 false 0x1000 128)).isSome = true
      ∧ cardOk (card .read 0).dw = true ∧ cardFoots (card .read 0).dw = some [] ∧ cardOk (card .read 0x20).dw = false
      ∧ (card .wait 0).bit 34 = false ∧ (card .wait 4).bit 34 = true
      ∧ (wordAddr (w64 ((card .wait 4).dw 0x30)) 8) = (true, 0x1FFFF8, none) ∧ (card .wait 4).dw 0x38 = 0
      ∧ (card .post 8).bit 35 = true ∧ (card .post 0).bit 35 = false ∧ (wordAddr (w64 ((card .post 8).dw 0x40)) 8) = (true, 0, none)
      ∧ bitsOf ((card .copy 0).dw 8) 0 32 = 0 ∧ (card .seq 0).bit 36 = false ∧ (card .seq 16).bit 36 = true
      ∧ (tryOk ((chRegion { spCh with chain := some (card .done 0) }).rdA 0 15 false 0x1000000 8)).map leNat = some 0x1010001
      ∧ (chWith spCh).me.guarded 15 0x1FFFF8 8 = false ∧ (chWith spCh).me.writtenAt (card .post 8).cardScope = true
      ∧ (chWith spCh).me.edgeHeld 7 = false ∧ spCh.eng.fails = [] ∧ (chRegion spCh).me.tracker = []
      ∧ (card .done 0).card ≠ spCh.tailSeen.toNat := by decide

theorem witness_WatermarkAndOriginRegisters :
    fld (0x7080000000000000#64) 0 22 ≤ fld (0x7080000000000000#64) 22 22
      ∧ fld (2 ^ 21 * 2 ^ 22 + 7 * 2 ^ 44 : Word) 22 22 = 2 ^ 21 ∧ fld (1#64) 22 22 < fld (1#64) 0 22
      ∧ (coreWith id).me.status = .running ∧ ((chWith spCh).xc 7).eng.cur = none ∧ ((chWith spCh).xc 7).eng.queue = [] := by decide

theorem witness_HypervectorRegisterSteps :
    (coreWith fun c => { c with hu := { c.hu with upc := 4094 } }).me.hu.upc < 4095 ∧ (coreWith fun c => { c with baW8 := 0 }).me.baW8.getLsbD 3 = false := by decide

/-- A HAMQ of core 0 that its passes have served. -/
def search1 : Search := { core := 0, dest := some 31, off := 0, op := .search 1 256 4096 0 1, found := [7], doneAt := some 0 }

set_option maxRecDepth 20000 in
theorem witness_HypervectorMemoryAndSearch :
    (inRegion id).partition = some (1, 256) ∧ (2 ^ 21 - 512) % 512 = 0 ∧ (inRegion id).me.tiles = []
      ∧ (inRegion id).me.guarded 2 (2 ^ 21 - 512) 512 = false ∧ (inRegion id).s0Up 0 = true ∧ (inRegion id).me.hu.elem ≠ 1
      ∧ hamkOk 0x0000000001000000 = true ∧ 256 ≤ (256#64).toNat ∧ (255#64).toNat < 256
      ∧ ((inRegion id fun s => { s with cp := { s.cp with searches := [search1] } }).cp.searches.find?
          fun y => y.core == 0) = some search1
      ∧ 2 ^ 21 - 8 + 8 * [7#64].length ≤ 2 ^ 21 ∧ (inRegion id).me.hu.fails = [] ∧ (inRegion id).me.hu.elem = 0
      ∧ 0 ≤ (inRegion id).fab.cycles := by decide

/-- The memory of region 1 with a kernel descriptor at 0x40000 and a record of its entry 0 at 0x5000 and 0x60E0. -/
def memK : Memory :=
  (((((mem1.wrN 0x40000 8 0x50000).wrN 0x40008 8 1).wrN 0x40018 8 1).wrN 0x40080 2 0x8000).wrN 0x5000 8 0x40000).wrN 0x60E0 8 0x40000

/-- As `inRegion`, with the kernel in memory. -/
def inKern (f : Core → Core) (g : State → State := id) : State := inRegion f fun s => g { s with mem := memK }

/-- What an outcome's next state must pass. -/
def nextIs (r : Host.Outcome State Fault Refusal) (p : State → Bool) : Bool :=
  match r with
  | .next t => p t
  | _ => false

/-- A window of one tile of 128 bytes at the start of the scratchpad. -/
def win1 : Window := ⟨0, 128, 128, 0x1FFFF80, .pod⟩

theorem witness_WindowWords :
    wdeclOk (128 <<< 21) (0x1FFFF80 + (3 <<< 59)) = true ∧ (inRegion id).me.winOverlaps 0 128 0x1FFFF80 = false
      ∧ (inRegion id).me.freeWin = some 0 ∧ (inRegion id).me.performed .pod = true ∧ (inRegion id).me.sync = none
      ∧ (match (inRegion id).wdeclWalk 1 128 .pod (vaPages 0x1FFFF80 128) with
          | .ok ts => ts.length == 1 && ts.all fun x => !(inRegion id).wdeclConflict 0 128 x
              && (inRegion id).routePa 0 x.pa != .hold && (inRegion id).routePa 0 x.pa != .none
              && (let s := inRegion fun c => { c with sync := some { pa := 0, wt := ts } }
                decide (s.me.uc = none ∧ s.me.freeWin = some 0 ∧ s.snoop = [] ∧ s.bis = [] ∧ s.me.buf = [])
                  && !(s.wdeclConflict 0 128 x))
          | .error _ => false) = true
      ∧ (let s := inRegion fun c => { c with win := vset c.win 15 (some win1), sync := some { pa := 0 } }
        vget s.me.win none 15 = some win1 ∧ s.me.sync = some { pa := 0 } ∧ s.writingBack s.cur = false)
      ∧ (let s := inRegion fun c =>
          { c with
            win := vset c.win 15 (some win1), inflight := [{ kind := .wquery 31 15 0 }]
            tiles := [{ dom := 2, pa := 0x1FFFF80, off := 0, size := 128, st := .m, mask := [], inval := false, held := [] }] }
        s.me.inflight[0]? = some { kind := .wquery 31 15 0 } ∧ (s.me.tileSp 0).isSome = true) := by decide

set_option maxRecDepth 20000 in
theorem witness_ContinuationWords :
    (match (inKern fun c => { c with tlb := [tlb0] }).rdA 0 3 false 0x5000 32 with
        | .ok bs t =>
          let i := CrImg.ofBytes bs
          (match t.crCheck 1 i with
            | .ok n => decide (n = 1)
            | .error _ => false)
          && (match t.region? 1 with
            | some r => decide (r.st = .active ∧ t.queueFull r i = false) &&
                (match t.walk 1 (r.qbase + (i.prio * 2 ^ r.qlog + t.cp.nextCr % 2 ^ r.qlog) * 32) with
                  | .ok _ => true
                  | .error _ => false)
            | none => false)
        | _ => false) = true
      ∧ (inKern id).me.performed .pod = true ∧ (inKern id).me.buf = [] ∧ (inKern id).me.quiet = true ∧ (inKern id).me.tiles = []
      ∧ (inKern id).writingBack 0 = false ∧ (inKern id).crOf 0 = some (cr1 (.running 0)) ∧ (cr1 (.running 0)).img.joinc = 0
      ∧ (inRegion id fun s => { s with mem := s.mem.wrN 0x7000 8 2 }).phNat 3 0x7000 8 = 2 ∧ (inRegion id).phNat 3 0x7000 8 = 0
      ∧ (match (inRegion id).homeReady 0 3 0x7000 64 with
          | .ok _ t => t.room 3 0x7000
          | _ => false) = true
      ∧ (inRegion id).isPoisoned 0x7000 64 = false ∧ (inRegion id).trapped 0 = none := by decide

theorem witness_ContinuationWords_launch_and_return :
    (inRegion (fun c => { c with uc := some 3 }) fun s =>
        { s with cp := { s.cp with ucs := [(3, ⟨1, 0, 0, 1, img1, Vector.replicate 4 0, 0, 0, img1, .running, false, [], [], [], []⟩)] } }).me.quiet
        = true
      ∧ ((inRegion (fun c => { c with trap := some (0x100000, 1) }) fun s =>
          let x : Core := { Core.reset with frame := vset Core.reset.frame 0 0x118, pc := 8191 }
          { s with cp := { s.cp with saved := [⟨0x100000, 1, 1, x, [], 0⟩] } }).trapped 0).isSome = true
      ∧ fld (vget (vset Core.reset.frame 0 0x118) 0 0) 8 1 = 1 := by decide

/-- A bundle of S word ADD s1, s1, 1 and nothing else. -/
def addBundle : State := coreWith fun c => { c with pc := 8191, imem := c.imem.wrN (16 * 8191) 4 (encode (.add 1 (.reg 1) (.const 9))) }

theorem witness_StepRunsTheDecodedInstruction :
    (match addBundle.me.bundle with
        | .ok b => decide (b.s = .add 1 (.reg 1) (.const 9) ∧ addBundle.me.held b = none ∧ addBundle.me.hCheck b.h = none
            ∧ addBundle.me.countFull b = false) && nextIs (exec b.s addBundle) fun t => decide (t.me.issued = true)
        | .error _ => false) = true
      ∧ addBundle.me.status = .running ∧ addBundle.me.tried = false ∧ addBundle.me.loading = .done
      ∧ addBundle.me.nextIssue ≤ addBundle.me.sched ∧ addBundle.me.trace.active = false := by decide

/-- The HU has HXOR hv1, hv2, hv3 ready to take effect. -/
def huReady : State := coreWith fun c =>
  { c with hu := { c.hu with cur := some ⟨encode (.hxor 1 2 3), c.regs, 0⟩, upc := noUpc, due := some 0 } }

set_option maxRecDepth 20000 in
theorem witness_StepRunsTheDecodedInstruction_unit :
    (match huReady.me.unitInstr .hu with
        | .ok i => decide (i = .hxor 1 2 3) && nextIs (exec i huReady) fun t =>
            decide (t.me.status ≠ .idle ∧ (t.eng .hu).cur.isSome ∧ (t.eng .hu).due = none ∧ t.me.chainOf .hu = none)
        | .error _ => false) = true
      ∧ (huReady.eng .hu).finished = false ∧ (huReady.eng .hu).due = some 0 := by decide

theorem witness_SourceFieldSelectsItsOperand :
    (match decodeS (encode (.fcvtF32Bf16 1 (.reg 2))) with
      | .ok i => decide (i = .fcvtF32Bf16 1 (.reg 2))
      | .error _ => false) = true
      ∧ (match (coreWith fun c => { c with imem := c.imem.wrN 0 4 (encode (.nop) + 0x04000000 + 0x1F * 2 ^ 21 + 0x3F * 2 ^ 14) }).me.bundle with
          | .error (e, k, _) => decide (e = .operand ∧ k = 0)
          | .ok _ => false) = true := by decide

/-- A core whose VE queue is full. -/
def veFull : State := coreWith fun c =>
  { c with imem := c.imem.wrN 4 4 (encode (.shset 1 (.reg 2) 0)), ve := { c.ve with queue := List.replicate 4 ⟨0, c.regs, 0⟩ } }

theorem witness_BundleIssueAndEntryCompletion :
    (match (coreWith id).me.bundle with
        | .ok b => decide (b.s = .nop ∧ (coreWith id).me.held b = none ∧ (coreWith id).me.countFull b = false
            ∧ (coreWith id).me.hCheck b.h = none)
        | .error _ => false) = true
      ∧ (match veFull.me.bundle with
          | .ok b => decide (veFull.me.held b = some .queueFull)
          | .error _ => false) = true
      ∧ (match (coreWith fun c => { c with imem := c.imem.wrN 12 4 0xFFFFFFFF }).me.bundle with
          | .error (e, k, w) => decide (e = .insn ∧ k = 3 ∧ w = 0xFFFFFFFF)
          | .ok _ => false) = true
      ∧ (let c := (coreWith fun c => { c with ve := { c.ve with cur := some ⟨0, c.regs, 0⟩, finished := true }, tl := 1 }).me
        (c.eng .ve).cur.isSome = true ∧ (c.eng .ve).finished = true ∧ c.status = .running ∧ c.trace.active = false) := by decide

/-- Core 1 is idle; CR 1 of region 1 stands in its queue. -/
def queued1 (f : Cr → Cr) : State :=
  { inKern id with
    cores := [], cp := { (inKern id).cp with crs := [(1, f (cr1 .queued))] }, frameClk := 4096 }

theorem witness_ScheduleEvents :
    (let s := queued1 fun c => { c with st := .waiting };
      (∃ c, s.cr? 1 = some c ∧ c.st = .waiting ∧ s.effRelease c ≤ s.frameClk ∧ s.releasedBefore 1 c = false))
      ∧ (∃ c r, (queued1 id).cr? 1 = some c ∧ (queued1 id).region? c.region = some r ∧ 0 < (queued1 id).rAgelim r
          ∧ c.aged + (queued1 id).rAgelim r * 4096 ≤ (queued1 id).frameClk ∧ c.prio < (queued1 id).rCeil r)
      ∧ (∃ c, (inRegion id fun s =>
            { s with frameClk := 2, cp := { s.cp with crs := [(1, { cr1 (.running 0) with deadline := 1 })] } }).cr? 1 = some c
          ∧ 0 < c.deadline ∧ c.deadline ≤ 2)
      ∧ ((queued1 id).choose 0).map (fun x => x.1) = some 1 ∧ ((queued1 id).core 0).status = .idle ∧ ((queued1 id).core 0).drained = true
      ∧ (match (queued1 id).walk 1 reg1.qbase with
          | .ok _ => true
          | .error _ => false) = true
      ∧ ((queued1 fun c => { c with st := .saved 0 0x100000 }).choose 0).map (fun x => x.2.1.st) = some (.saved 0 0x100000) :=
  ⟨⟨_, rfl, by decide, by decide, by decide⟩, ⟨_, _, rfl, rfl, by decide, by decide, by decide⟩, ⟨_, rfl, by decide, by decide⟩,
    by decide, by decide, by decide⟩

/-- An alignment fault, a page fault and a wait's expiry. -/
def flt (c : Cause) : FaultRec := { cause := c, obs := 3 }

/-- Core 0 is frozen with a fault. -/
def frozen0 (c : Cause) (g : State → State) : State :=
  inKern (fun x => { x with status := .frozen, call := some (.fault (flt c)) }) g

/-- Region 1 with a trap continuation's kernel. -/
def regTrap : Region := { reg1 with w := vset reg1.w 7 0x40000 }

theorem witness_ExceptionEntry :
    (let s := inKern fun x => { x with status := .freezing, call := some (.fault (flt .align)) };
      s.me.unstoppable = false ∧ s.cp.parks = [] ∧ s.me.trace.active = false ∧ s.me.trap = none ∧ s.me.me.due = none
        ∧ s.me.ve.due = none)
      ∧ (frozen0 .align id).toTrap 0 = true ∧ (frozen0 .align id).settled 0 = true ∧ (frozen0 .align id).trapKernel reg1 = none
      ∧ (∃ r, (frozen0 .align id).region? (frozen0 .align id).me.region = some r ∧ (frozen0 .align id).trapKernel r = none)
      ∧ (let s := frozen0 .align fun s => { s with cp := { s.cp with regions := [regTrap] } }
        (s.trapKernel regTrap).isSome = true ∧ s.freeSlot regTrap = some 0x100000 ∧ s.toTrap 0 = true)
      ∧ (frozen0 .pageFault id).me.frozenAt + 12000 < (frozen0 .pageFault fun s => { s with frameClk := 12001 }).frameClk
      ∧ (let s := inKern (fun x => { x with status := .frozen, pfTag := some 9, call := some (.fault (flt .pageFault)) }) fun s =>
            { s with cp := { s.cp with pfs := [⟨9, 1, 0, 0, false, 3, 0, true⟩] } }
        s.me.pfTag = some 9 ∧ s.me.heldFaults = [] ∧ s.walkAgain 1 0 false = none ∧ s.settled 0 = true) := by
  refine ⟨by decide, by decide, by decide, by decide, ⟨_, rfl, by decide⟩, by decide, by decide, by decide⟩


theorem witness_PreemptionAndWaitLimit :
    (let s := inKern (fun c => { c with prio := 0 }) fun s =>
        { s with frameClk := 60000, cp := { s.cp with crs := s.cp.crs ++ [(2, { cr1 .queued with prio := 1 })] } };
      s.victim 0 = true ∧ s.victim 1 = false)
      ∧ (inKern fun c => { c with status := .frozen, call := some .preempt }).settled 0 = true
      ∧ (let s := inRegion fun c =>
          { c with
            waitAt := some 0, sched := 5, regs := vset (vset c.regs 1 0) 2 7
            imem := c.imem.wrN 0 4 (encode (.waitq 3 (.reg 1) (.reg 2))) }
        s.waitAtPc 0 = some (.waitq 3 (.reg 1) (.reg 2), 0, 0) ∧ s.waitHolds (.waitq 3 (.reg 1) (.reg 2)) = false)
      ∧ (let s := inRegion fun c =>
          { c with
            waitAt := some 0, sched := 5, regs := vset (vset c.regs 3 5) 2 7
            imem := c.imem.wrN 0 4 (encode (.waitq 3 (.reg 1) (.reg 2))) }
        s.waitAtPc 0 = some (.waitq 3 (.reg 1) (.reg 2), 5, 0) ∧ 0 + (5#64).toNat ≤ s.me.sched
          ∧ s.waitHolds (.waitq 3 (.reg 1) (.reg 2)) = false)
      ∧ ((coreWith fun c => { c with stall := .wait }).core 0).stall = .wait := by decide

/-- Core 0 has one access out, sent at tick 0, at a tick. -/
def outAcc (a : Access) (clk : Nat) : State := { coreWith fun c => { c with inflight := [a], st := 1 } with frameClk := clk }

theorem witness_RequestFailures :
    (outAcc gStore 0xEA60).accHeld 0 gStore = false ∧ gStore.at_ + (outAcc gStore 0).dev.rsplim.toNat ≤ 0xEA60
      ∧ (outAcc gCas 0xEA60).accHeld 0 gCas = false ∧ (outAcc gAmo 0xEA60).accHeld 0 gAmo = false
      ∧ (outAcc gLoad 0xEA60).accHeld 0 gLoad = false ∧ gLoad.retried = false ∧ gStore.held = false
      ∧ ({ gStore with err := some .timeout } : Access).err = some .timeout ∧ gLoad.err = none
      ∧ 0 + (outAcc gStore 0).dev.rsplim.toNat / 2 ≤ 0x7530 := by decide

/-- Queue 2 of region 1, with one launch to go at slot 7. -/
def lq2 : LaunchQ := ⟨2, 0x9000, 1, 0x6000, 3, false, false, 7, 8, 7, 0, [], none, none⟩

def withQ (q : LaunchQ) (g : CpState → CpState := id) : State :=
  { inKern id with cores := [], cp := g { (inKern id).cp with crs := [], lqs := [q] } }

theorem witness_LaunchAndUndercoatEvents :
    (∃ q r, (withQ lq2).lq? 2 = some q ∧ (withQ lq2).region? q.region = some r ∧ r.st = .active ∧ q.pend = none ∧ q.tag = 0
        ∧ q.head < q.tail ∧ (withQ lq2).cp.predEn = false ∧ (withQ lq2).cp.wq = [] ∧ ((withQ lq2).cpGather ((withQ lq2).launchReads q)).1 = true
        ∧ (match (withQ lq2).cpRd 1 (q.ring + 32 * (q.head % 2 ^ q.log2n)) 32, (withQ lq2).cpRd 1 0 32 with
            | .ok bs, .ok _ => decide ((CrImg.ofBytes bs).frame = 0 ∧ (withQ lq2).queueFull r (CrImg.ofBytes bs) = false) &&
                (match (withQ lq2).crCheck 1 (CrImg.ofBytes bs) with
                  | .ok n => n == 1
                  | .error _ => false)
            | _, _ => false) = true)
      ∧ (let i : CrImg := ⟨0x40000, 0, 0, 0⟩
        let s := withQ { lq2 with hit := some (i, Vector.replicate 4 0) } fun c => { c with predEn := true }
        (match s.crCheck 1 i with
          | .ok n => n == 1
          | .error _ => false) = true
        ∧ (match s.kernel 1 i.w0 with
          | some d => d.elig && d.foots.all fun f => f.ok d.ign (Vector.replicate 4 0)
          | none => false) = true
        ∧ s.rUcen reg1 = true ∧ s.rDustq reg1 ≠ 0 ∧ i.ttf = 0 ∧ i.release = 0 ∧ s.ucCore reg1 = some 0) := by
  refine ⟨⟨_, _, rfl, rfl, by decide, by decide, by decide, by decide, by decide, by decide⟩, by decide⟩

theorem witness_LaunchAndUndercoatEvents_discard :
    (let u : Undercoat := ⟨2, 7, 0, 1, img1, Vector.replicate 4 0, 0, 0, img1, .running, true, [], [], [], []⟩;
      (withQ lq2 fun c => { c with ucs := [(3, u)] }).cp.ucs = [(3, u)] ∧ u.st ≠ .adopted ∧ u.stale = true)
      ∧ (let u : Undercoat := ⟨2, 7, 0, 9, img1, Vector.replicate 4 0, 0, 0, img1, .complete, false, [], [], [], []⟩
        (withQ lq2 fun c => { c with ucs := [(3, u)] }).region? u.region = none ∧ u.stale = false)
      ∧ (let s := coreWith fun c => { c with trace := { c.trace with active := true, store := List.replicate 8 0, old := 8 } }
        s.me.trace.active = true ∧ 8 ≤ s.me.trace.old) := by decide

/-- Region 1 with no scratchpad part in its slots. -/
def regS : Region := { reg1 with w := vset reg1.w 2 0x0001060001000808 }

/-- Core 0 frozen, with hv, ba and tiles left out of the save; the slot's page has reach DIE. -/
def saver : State := inRegion (fun x => { x with status := .frozen, call := some (.fault (flt .align)), w0 := 0x300000000000000 }) fun s =>
  { s with mem := memK.wrN 0x1020000 8 0x1F, cp := { s.cp with regions := [regS] } }

/-- The bytes of the control part, which are free. -/
def partA : List Byte := (List.range 0x4000).map fun j => Config.freeByte 0 (0 + j)

/-- What a write of the slot gives. -/
def wrote (x : Except WalkErr State) : Option State :=
  match x with
  | .ok t => some t
  | .error _ => none

theorem saver_writes :
    (wrote ({ saver with draws := saver.draws + 1 }.cpWr regS.num (0x100000 + 0) partA (dieOf 0))).isSome = true := by
  have ha : partA.length = 0x4000 := by simp [partA]
  simp only [State.cpWr, ha]
  decide +kernel

theorem saver_parts :
    outsideWindows (2 * (saver.core 0).tiles.length + 2) (saver.core 0).tiles 0 (saver.rSpadsave regS * 65536) = [] := by decide

set_option maxRecDepth 100000 in
theorem witness_ExceptionEntry_save :
    (∃ u, SaveBegins saver u 0 0x100000 0 regS) ∧ saver.freeSlot regS = some 0x100000 ∧ (saver.core 0).saving = none
      ∧ (saver.core 0).status = .frozen ∧ saver.settled 0 = true ∧ saver.region? (saver.core 0).region = some regS := by
  refine ⟨?_, by decide, by decide, by decide, by decide, by rfl⟩
  have hw := saver_writes
  generalize hx : State.cpWr _ _ _ _ _ = x at hw
  cases x with
  | error e => cases hw
  | ok t =>
    have h1 : fld (saver.core 0).w0 56 1 = 1 := by decide
    have h2 : fld (saver.core 0).w0 57 1 = 1 := by decide
    have hl : (saver.core 0).tiles.foldl (fun s t => s.sendDrop 0 false t) saver = saver := by rfl
    refine ⟨t.updCore 0 fun c => { c with saving := some (0x100000, 0) }, rfl, rfl, t, ?_, rfl⟩
    simp only [hl, h1, h2, saver_parts]
    exact ⟨t, hx, by simp [WritesParts]⟩

/-- The save of that core has begun in that slot. -/
theorem witness_ExceptionEntry_saving :
    let s := frozen0 .align fun s => s.updCore 0 fun c => { c with saving := some (0x100000, 7) };
      SaveAt s s.cpDrain 0 0x100000 7 reg1 ∧ s.cpDrain.cp.wq = [] ∧ s.settled 0 = true :=
  ⟨.inl ⟨rfl, rfl⟩, rfl, by decide⟩

/-- Memory in which every byte but a page table's is the free byte of its own address. -/
def memF : Memory :=
  (((⟨[], .free 0⟩ : Memory).wrN 0x1000000 8 0x1010001).wrN 0x1010000 8 0x1020001).wrN 0x1020000 8 0x3F

/-- A trapped CR, saved without its large state in the slot at address 0. -/
def slotX : SavedCtx :=
  ⟨0, 1, 1, { Core.reset with frame := vset Core.reset.frame 0 0x118, pc := 8191, w0 := 0x300000000000000 }, [], 0⟩

/-- Core 0 runs its trap handler. -/
def slotS : State := inRegion (fun c => { c with trap := some (0, 1) }) fun s =>
  { s with mem := memF, cp := { s.cp with regions := [regS], saved := [slotX] } }

theorem runBytes_free (k a n : Nat) : runBytes (.free k) [] a n = (List.range n).map fun j => Config.freeByte k (a + j) := by
  induction n generalizing a with
  | zero => rfl
  | succ n ih => simp [runBytes, Fill.byte, List.range_succ_eq_map, ih, Nat.add_assoc, Nat.add_comm 1, Function.comp_def]

/-- What a translation gives, when it can be made. -/
def xlated (x : Except WalkErr (Nat × Scope)) : Option (Nat × Scope) :=
  match x with
  | .ok p => some p
  | .error _ => none

theorem xlated_ok {x : Except WalkErr (Nat × Scope)} {p : Nat × Scope} (h : xlated x = some p) : x = .ok p := by
  cases x with
  | error e => cases h
  | ok q => exact congrArg Except.ok (Option.some.inj h)

/-- The CP reads address 0 of region 1 here, as nothing but memory gives it. -/
def readsHere (s : State) : Bool :=
  xlated (s.xlateCp 1 0 false) == some (0, .pod) && !s.isPoisoned 0 0x4000 && s.routePa (88 + s.cpOf 0) 0 != .none
    && s.paPieces 0 0x4000 == [(0, 0x4000)]

theorem slot_has (s : State) (x : SavedCtx) (hx : (x.slot, x.region, x.free, x.core.w0) = (0, 1, 0, 0x300000000000000))
    (hs : readsHere s = true) (hr : s.cpRdPa (s.cpOf 0) 0 0x4000 .pod = memF.rdBytes 0 0x4000)
    (q : Region) (hg : s.region? 1 = some q) (hp : s.rSpadsave q = 0) : SlotHas s 0 x := by
  obtain ⟨h1, h2, h3, h4⟩ : x.slot = 0 ∧ x.region = 1 ∧ x.free = 0 ∧ x.core.w0 = 0x300000000000000 := by simpa using hx
  simp only [readsHere, Bool.and_eq_true, beq_iff_eq, Bool.not_eq_true', bne_iff_ne] at hs
  obtain ⟨⟨⟨a1, a2⟩, a3⟩, a4⟩ := hs
  have hv : vaPages (0 + 0) 0x4000 = [(0, 0x4000)] := by decide
  have hc : inRange memF.cells 0 0x4000 = [] := by decide
  have hf : (slotFill 0 0 0x4000) = memF.rdBytes 0 0x4000 := by
    simp only [Memory.rdBytes, hc, risingFrom, if_true, show memF.fill = .free 0 from rfl, runBytes_free, slotFill]
  refine ⟨?_, fun h => absurd (h4 ▸ h) (by decide), fun h => absurd (h4 ▸ h) (by decide), fun r h p hm => ?_⟩
  · simp [State.part, State.cpRd, dieOf, h1, h2, h3, hv, State.cpMap, xlated_ok a1, a2, a3, a4, hr, hf]
  · have e : r = q := Option.some.inj ((h2 ▸ h).symm.trans hg)
    subst e
    simp [hp, outsideWindows] at hm

theorem witness_ContinuationWords_return_restores :
    (let s := slotS
      let t := (s.updCore s.cur fun c => { c with win := Vector.replicate 16 none }).updCr slotX.cr
        fun c => { c with st := .running s.cur }
      s.trapped s.cur = some slotX ∧ fld (vget slotX.core.frame 0 0) 8 1 = 1 ∧ s.me.quiet = true ∧ s.me.performed .pod = true
        ∧ s.me.buf = [] ∧ s.me.tiles = [] ∧ s.writingBack s.cur = false ∧ slotX.core.pc < 8192 ∧ s.me.trace.active = false
        ∧ SlotHas t s.cur slotX) :=
  ⟨by rfl, by decide, by decide, by decide, by decide, by decide, by decide, by decide, by decide,
    slot_has _ _ rfl (by decide) (by rfl) regS rfl (by decide)⟩

/-- Core 0 is idle, and CR 1 stands in its queue with its context in that slot. -/
def popS : State :=
  { slotS with
    cores := [], frameClk := 4096
    cp := { slotS.cp with crs := [(1, cr1 (.saved 0 0))] } }

/-- The state in which it has been chosen. -/
def popT : State :=
  match popS.choose 0 with
  | some x => x.2.2
  | none => popS

theorem popT_chosen : popS.choose 0 = some (1, cr1 (.saved 0 0), popT) := by
  have h : (popS.choose 0).map (fun x => (x.1, x.2.1)) = some (1, cr1 (.saved 0 0)) := by decide
  unfold popT
  cases hc : popS.choose 0 with
  | none => simp [hc] at h
  | some x => simp only [hc, Option.map_some, Option.some.injEq, Prod.mk.injEq] at h ⊢; simp [← h.1, ← h.2]

theorem ok_of {ε α : Type} {x : Except ε α} (h : x.toOption.isSome = true) : ∃ a, x = .ok a := by
  cases x with
  | error e => cases h
  | ok a => exact ⟨a, rfl⟩

theorem witness_ScheduleEvents_saved :
    popS.choose 0 = some (1, cr1 (.saved 0 0), popT) ∧ popS.cr? 1 = some (cr1 (.saved 0 0))
      ∧ (∃ r, popT.region? 1 = some r ∧ popT.SlotThere r 0 0)
      ∧ popS.cp.saved.find? (fun y => y.slot == 0 && y.cr == 1) = some slotX
      ∧ SlotHas (popT.updCr 1 fun c => { c with st := .running 0 }) 0 slotX
      ∧ (popS.core 0).status = .idle ∧ (popS.core 0).drained = true ∧ popS.cp.wq = [] :=
  ⟨popT_chosen, by decide, ⟨_, rfl, ok_of (by decide)⟩, by rfl, slot_has _ _ rfl (by decide) (by rfl) _ rfl (by decide), by decide, by decide, by decide⟩

/-- The CP can put an image into the first slot of a ring in which no CR stands. -/
theorem ring_takes (s : State) (i : CrImg) (r : Region) (h1 : 0 < 2 ^ r.qlog) (h2 : (s.cp.crs.any fun x => x.2.inRing) = false)
    (h3 : (s.walk r.num (r.qbase + (i.prio * 2 ^ r.qlog + 0 % 2 ^ r.qlog) * 32)).toOption.isSome = true)
    (h4 : (s.cpWr r.num (r.qbase + (i.prio * 2 ^ r.qlog + 0) * 32)
      ([i.w0, i.w1, i.w2, i.w3].flatMap fun w => leBytes 8 w.toNat)).toOption.isSome = true) : ∃ v, s.RingTakes v r i 0 := by
  obtain ⟨v, hv⟩ := ok_of h4
  refine ⟨v, h1, ?_, fun j h => absurd h (Nat.not_lt_zero j), ok_of h3, hv⟩
  rintro ⟨x, hx, -, -, -, h⟩
  have := List.any_eq_false.mp h2 x hx
  obtain h | h | ⟨m, a, h⟩ := h <;> simp [Cr.inRing, h] at this

theorem witness_LaunchAndUndercoatEvents_ring : ∃ v, (withQ lq2).RingTakes v reg1 ⟨0x40000, 0, 0, 0⟩ 0 :=
  ring_takes _ _ _ (by decide) (by decide) (by decide) (by decide +kernel)

/-- Core 0 has sent a SPAWN of that image to the CP. -/
def spawnS : State := inKern fun c => { c with sync := some { pa := 0, img := (memK.rdBytes 0x5000 32) } }

theorem witness_ContinuationWords_spawn :
    AtCp spawnS { pa := 0, img := (memK.rdBytes 0x5000 32) }
      ∧ ∃ v, ((spawnS.stallS .wait).reply 0 (.value 0)).RingTakes v reg1 ⟨0x40000, 0, 0, 0⟩ 0 :=
  ⟨by unfold AtCp; decide, ring_takes _ _ _ (by decide) (by decide) (by decide) (by decide +kernel)⟩

/-- A JOIN of core 0 stands at a block of count 1 whose successor is that image. -/
def join1 : JoinReq := { core := 0, va := 0x7000, pa := 0x7000, dom := 3, region := 1, tag := 0, byDone := false, cr := 0 }
def joinS : State := inKern id fun s =>
  { s with mem := (s.mem.wrN 0x7000 8 1).wrN 0x7020 8 0x40000, cp := { s.cp with joins := [join1] } }

theorem witness_ContinuationWords_join :
    joinS.homeReady 0 3 0x7000 64 = .ok () joinS ∧ joinS.room 3 0x7000 = true ∧ joinS.phNat 3 0x7000 8 = 1
      ∧ joinS.isPoisoned 0x7000 64 = false
      ∧ (let low := (({ joinS with cp := { joinS.cp with joins := [] } } : State).phWrite 3 0x7000 (le8 0)).markStale 0x7000 8
        (match low.crCheck 1 (CrImg.ofBytes (low.phRead 3 0x7020 32)) with
          | .ok n => n == 1
          | .error _ => false) = true
        ∧ ∃ v, (low.joinReply join1 none).RingTakes v reg1 ⟨0x40000, 0, 0, 0⟩ 0) :=
  ⟨by rfl, by decide, by decide, by decide, by decide,
    ring_takes _ _ _ (by decide) (by decide) (by decide) (by decide +kernel)⟩

theorem witness_VectorGatherScatterAndPrograms_chain_results :
    VeReady shC [] ∧ (∀ i, i ∈ [Instr.vadd 0 1 1 .rne, .vadd 3 0 1 .rne] → ChainableInt shC i) :=
  ⟨⟨by decide, fun _ _ => unguarded [shw 0x1FFFC0 16 0x0E, shw 0 16 0x0E, shw 64 1 0x0E, shw 128 16 0x0E] _ _ _,
    ⟨rfl, rfl, rfl, rfl, rfl, rfl, rfl⟩, by simp⟩, by
    intro i hi
    simp only [List.mem_cons, List.not_mem_nil, or_false] at hi
    obtain rfl | rfl := hi <;> exact ⟨_, _, _, _, rfl, by decide⟩⟩

/-- An engine's read of 8 bytes that has been sent, and a store that still waits at its source. -/
def ask1 : Ask := { sp := false, addr := 0, len := 8, wr := false, at_ := 0, lim := 0xEA60 }
def heldStore : Access := { gStore with atSrc := true }

theorem witness_RequestFailures_engine_and_source :
    (let s := { coreWith fun c => { c with ve := { c.ve with ask := some ask1 } } with frameClk := 0xEA60 };
      ((s.core 0).eng .ve).ask = some ask1 ∧ ask1.dead = false ∧ ask1.err = none ∧ ask1.at_ + ask1.lim ≤ s.frameClk)
      ∧ ({ ask1 with err := some .poison } : Ask).err = some .poison ∧ ask1.at_ + ask1.lim / 2 ≤ 0x7530
      ∧ gStore.at_ + gStore.lim ≤ (outAcc gStore 0xEA60).frameClk ∧ gStore.atSrc = false ∧ gStore.applied = false
      ∧ (({ gStore with applied := true } : Access).applied = true) ∧ ({ gLoad with retried := true } : Access).retried = true
      ∧ (outAcc heldStore 0).accHeld 0 heldStore = false ∧ (outAcc heldStore 0).accBlocked 0 0 heldStore = false
      ∧ heldStore.sent = false ∧ heldStore.err = none ∧ (outAcc heldStore 0).me.buf = [] := by decide

/-- Region 1 without a context slot. -/
def regN : Region := { reg1 with w := vset reg1.w 3 0x0000000000000010 }

theorem witness_PreemptionAndWaitLimit_no_slot :
    (let s := inKern (fun c => { c with status := .frozen, call := some .preempt }) fun s =>
        { s with cp := { s.cp with regions := [regN] } };
      s.me.status = .frozen ∧ s.me.call = some .preempt ∧ s.settled 0 = true ∧ s.region? s.me.region = some regN
        ∧ s.me.saving = none ∧ s.freeSlot regN = none) := by decide

/-- Region 1 with the default handling of an expired wait. -/
def regD : Region := { reg1 with w := vset reg1.w 0 0x00006F0F00000001 }

theorem witness_PreemptionAndWaitLimit_saves :
    ([FreezeWhy.preempt, .yield, .fault (flt .waitLimit)].all fun k =>
      let s := inKern (fun x => { x with status := .frozen, saving := some (0x100000, 7), call := some k }) fun s =>
        { s with cp := { s.cp with regions := [regD] } }
      s.settled 0 && s.me.call == some k && s.cpDrain.cp.wq.isEmpty && s.me.ve.due.isNone && s.defWait 0) = true := by decide

/-! ### The directory -/

/-- A tile of 128 bytes at PA 0x8000, declared by cores 1 and 2, changed by `f`. -/
def ent1 (f : DirEnt → DirEnt) : DirEnt :=
  f { dom := 2, pa := 0x8000, tile := 128, reach := .pod, st := .i, busy := 0, owner := none, sharers := [], acks := 0
      decl := [1, 2], rem := [], coarse := false, cur := none, queue := [], poisoned := false, ro := [] }

/-- A message from core 1 to the home about that tile. -/
def msg1 (k : MsgKind) : Msg := { kind := k, src := 1, dst := 88, dom := 2, pa := 0x8000, req := 1 }

/-- The machine with that entry and message, and core 1 changed by `g`. -/
def dirS (e : DirEnt) (m : Msg) (g : Core → Core := id) : State :=
  { State.reset with dir := [e], msgs := [m], cores := [(1, g { Core.reset with status := .running })] }

/-- The hypotheses of the home's statements hold. -/
def atHome (e : DirEnt) (m : Msg) : Bool :=
  decide ((dirS e m).arrives 0 m.kind = some m ∧ (dirS e m).entAt m.dom m.pa = some e)

theorem witness_DirectoryRequestsAtTheHome :
    (([.rs, .rx, .up, .gr, .gw] : List MsgKind).all fun k => (requestEvent k 0).isSome && atHome (ent1 id) (msg1 k)
        && atHome (ent1 fun e => { e with owner := some 2, st := .m }) (msg1 k)
        && atHome (ent1 fun e => { e with owner := some 1, st := .e }) (msg1 k)
        && atHome (ent1 fun e => { e with sharers := [1], st := .s }) (msg1 k)
        && atHome (ent1 fun e => { e with sharers := [2, 1], st := .s }) (msg1 k)
        && atHome (ent1 fun e => { e with busy := 1 }) (msg1 k) && atHome (ent1 fun e => { e with queue := [msg1 .rs] }) (msg1 k)) = true
      ∧ (dirS (ent1 id) (msg1 .rs)).tileHolders (ent1 id) = [] ∧ ((dirS (ent1 id) (msg1 .rs)).replicate (ent1 id) false).mayE = true
      ∧ (dirS (ent1 id) (msg1 .gw)).room 2 0x8000 = true ∧ 0x807F % 128 + 1 ≤ 128
      ∧ (let s := dirS (ent1 id) { msg1 .gw with tag := 5 } fun c => { c with inflight := [{ gStore with tag := 5 }] };
        (s.core 1).inflight.find? (fun x => x.tag == 5) = some { gStore with tag := 5 }
          ∧ ({ gStore with tag := 5 } : Access).atHome 0 = some 7) := by decide

theorem witness_DirectoryAnswersAtTheHome :
    (let e := ent1 fun e => { e with busy := 1, acks := 1, cur := some { msg1 .rs with src := 2 }, owner := some 1, st := .m };
      atHome e { msg1 .ack with grant := .s } = true ∧ atHome e { msg1 .ack with grant := .o } = true
        ∧ atHome { e with acks := 2 } (msg1 .ack) = true ∧ atHome { e with cur := some { msg1 .rx with src := 2 } } (msg1 .ack) = true)
      ∧ atHome (ent1 fun e => { e with busy := 2, acks := 1, cur := some (msg1 .up), sharers := [1] }) (msg1 .ack) = true
      ∧ atHome (ent1 fun e => { e with cur := some { msg1 .rs with src := 2 } }) (msg1 .gone) = true
      ∧ atHome (ent1 fun e => { e with owner := some 1, st := .e }) (msg1 .em) = true
      ∧ (let e := ent1 fun e => { e with owner := some 1, st := .o, sharers := [2], decl := [1] };
        e.holds 1 = true ∧ atHome e { msg1 .drop with bytes := List.replicate 128 1, mask := [0, 127], tag := 1 } = true
          ∧ e.decl.erase 1 = [] ∧ (ent1 id).decl.erase 1 ≠ []
          ∧ atHome e { msg1 .flush with bytes := List.replicate 128 1, mask := [127] } = true) := by decide

/-- Core 1's copy of the tile, at the end of its scratchpad. -/
def copy1 (st : TileSt) (mask : List Nat) : TileCopy :=
  { dom := 2, pa := 0x8000, off := 0x1FFF80, size := 128, st := st, mask := mask, inval := false, held := [] }

/-- A forward to core 1 for core 2. -/
def fwd1 (k : MsgKind) (g : TileSt) : Msg := { kind := k, src := 88, dst := 1, dom := 2, pa := 0x8000, req := 2, grant := g }

theorem witness_DirectoryForwardsAtACore :
    (([.fwd, .fwdInv, .inv, .recall] : List MsgKind).all fun k => (forwardEvent k 0).isSome &&
        ([copy1 .s [], copy1 .e [], copy1 .o [127], copy1 .m [0], copy1 .isd [], copy1 .imd []].all fun x =>
          decide ((dirS (ent1 id) (fwd1 k .s)).arrives 0 k = some (fwd1 k .s)
            ∧ ((dirS (ent1 id) (fwd1 k .s) fun c => { c with tiles := [x] }).core 1).tiles.find?
                (fun y => y.dom == 2 && y.pa == 0x8000) = some x))) = true
      ∧ (let m := { fwd1 .data .i with tag := 5, bytes := List.replicate 8 1 }
        let s := dirS (ent1 id) m fun c => { c with inflight := [gStore, { gLoad with tag := 5 }] }
        s.arrives 0 .data = some m ∧ (s.core 1).inflight[1]? = some { gLoad with tag := 5 } ∧ gStore.tag ≠ 5)
      ∧ (let m := { fwd1 .data .e with bytes := List.replicate 128 1 }
        let s := dirS (ent1 id) m fun c => { c with tiles := [copy1 .isd []], inflight := [gLoad] }
        s.arrives 0 .data = some m ∧ (s.core 1).tiles.find? (fun y => y.dom == 2 && y.pa == 0x8000) = some (copy1 .isd [])
          ∧ gLoad.sent = false) := by decide

/-- A device, numbered 1, whose only directory entry is `e`. -/
def replicaS (e : DirEnt) : State := { State.reset with dir := [e], fab := { FabState.reset with fabId := 1 } }

theorem witness_RemoteHoldersAndMigration :
    ([ent1 id, ent1 fun e => { e with sharers := [2], owner := some 1, st := .o }].all fun e =>
        decide ((replicaS e).podEnt 0x807F = some e ∧ (replicaS e).quiet e = true ∧ (replicaS e).entAt e.dom e.pa = some e
          ∧ (replicaS e).tileHolders e = [] ∧ e.decl ≠ [])) = true
      ∧ paDev 0x807F ≠ (replicaS (ent1 id)).fab.fabId ∧ (replicaS (ent1 id)).podEnt 0x8080 = none := by decide

/-- Device 5 holds the line at 0x8000 as `h` says; a back-invalidation to it has gone out at FRAME_CLK 0. -/
def heldS (hs : List (Nat × Bool)) (bis : List BiReq) : State :=
  { State.reset with snoop := if hs = [] then [] else [⟨0x8000, hs, []⟩], bis := bis, frameClk := 0xEA60 }

theorem witness_RemoteHoldersAndMigration_holders :
    HoldersAre (heldS [] []) 0x8000 [] ∧ HoldersAre (heldS [(5, true)] []) 0x8000 [(5, true)]
      ∧ HoldersAre (heldS [(6, false), (5, false)] []) 0x8000 [(6, false), (5, false)] ∧ 0x807F / 128 * 128 = 0x8000
      ∧ HoldersAre (heldS [(5, true)] [⟨0x8000, 5, true, some 0⟩]) 0x8000 [(5, true)] ∧ State.reset.dir = []
      ∧ 0 + (heldS [] []).dev.rsplim.toNat ≤ (heldS [] []).frameClk := by
  unfold HoldersAre; decide

theorem witness_RemoteHoldersAndMigration_line :
    (let l : LineSt := { dom := 3, line := 0x100, slice := nearSlice 87 + 1, lastCore := 87, run := 8, usedAt := 4096, movedAt := 0
                         rc := none, data := [], dirty := 0, excl := false }
     let s : State := { State.reset with lines := [l], frameClk := 4096 }
     s.lines = [l] ∧ s.migrates l = true) := by
  refine ⟨rfl, ?_⟩
  simp [State.migrates, State.reset, FabState.reset, paDev]

/-! ### The command processors' registers -/

/-- The machine after boot, with its mailbox and CP changed by `f` and `g`. -/
def host (f : DevState → DevState := id) (g : CpState → CpState := id) : State :=
  { inRegion id with
    cores := [], dev := f { DevState.reset with fwrun := true }, cp := g { (inRegion id).cp with crs := [] } }

/-- Arguments of a command. -/
def args (a b c d : Word) : DevState → DevState := fun x =>
  { x with arg := Vector.ofFn fun k : Fin 8 => ([a, b, c, d] : List Word).getD k.val 0 }

theorem witness_MailboxCommands :
    HostReaches (host id) ∧ (host id).dev.busy = false ∧ (host fun d => { d with busy := true }).dev.busy = true
      ∧ (([.init, .create, .destroy, .qopen, .qclose, .shoot, .memwr, .memrd, .attest, .enetq] : List MbxCmd).all fun c =>
          (host id).mbxAllows c) = true
      ∧ (host id).mbxAllows .recBoot = false ∧ (host fun d => { d with recovery := true, fwrun := false }).mbxAllows .recBoot = true
      ∧ (host id fun c => { c with inited := false }).mbxAllows .create = false
      ∧ (host (args 0x10000 0 0 0)).initCode = 0x09
      ∧ ({ host (args 0x10000 0 0 0) with mem := (mem1.wrN 0x10000 8 0x20000).wrN 0x10008 8 4 } : State).initCode = 0
      ∧ (host (args 1 0 0 0)).region? 1 = some reg1 ∧ (host id).region? 2 = none
      ∧ (host (args 0 4096 0 0)).hostRange 0 4096 = true ∧ (host (args 0 4097 0 0)).hostRange 0 4097 = false
      ∧ (host (args 0 4096 0 0)).hostReady 0 4096 = true ∧ (host id).dir = [] ∧ (host id).dev.leaf < 2 ^ 20
      ∧ (host (fun d => { d with busy := true }) fun c => { c with cmd := some .memrd }).cp.cmd = some .memrd
      ∧ (host id).cpDrain.cp.wq = [] ∧ ((host (args 0x10000 0 0 0)).cpGather [(0x10000, 256)]).1 = true := by
  unfold HostReaches; decide

/-- In recovery a MEMRD of the DEVSTAT image is accepted. -/
theorem witness_MailboxCommands_recovery :
    (host fun d => args (BitVec.ofNat 64 Config.devstatImage) 8 0 0 { d with recovery := true, fwrun := false }).mbxAllows .memrd
      = true := by
  have h : Config.devstatImage < 2 ^ 54 := Config.devstatPa.isLt
  have hm : Config.devstatImage % 18446744073709551616 = Config.devstatImage := Nat.mod_eq_of_lt (by omega)
  simp [State.mbxAllows, host, args, State.statRange, State.arg, vget, hm]

/-- A transmit and a receive queue of port 1, with one descriptor of 60 bytes each. -/
def ethq1 (rx : Bool) : EthQ :=
  { port := 1, rx := rx, num := 63, region := 1, va := 0xA000, ring := 0xB000, log2n := 4, prio := 7, mac := 2 ^ 48 - 1, cq := 0xC000
    head := 0, stopped := false, closing := false, wire := [] }

set_option maxRecDepth 20000 in
theorem witness_MailboxCommands_queues :
    (let q : LaunchQ := { lq2 with tail := 7 };
      (host (args 2 0 0 0) fun c => { c with lqs := [q] }).lq? 2 = some q ∧ q.tag = 0 ∧ q.pend = none ∧ q.tail ≤ q.head
        ∧ (host (args 2 0 0 0)).lq? 2 = none)
      ∧ ((host (args 1 0x10000 1 1)).shootRanges 1).all (host (args 1 0x10000 1 1)).rangeQuiet = true ∧ (host (args 1 0x10000 1 1)).shootDone = true
      ∧ (host id).ethFinished (ethq1 true) = true ∧ (host id).ethFinished { ethq1 false with wire := [(0, 60, 0)] } = false
      ∧ (host id).ethUnbindCode 1 63 1 true = none ∧ (host id).ethUnbindCode 1 63 2 true = some 0x08
      ∧ bitsOf 0x100 8 56 ≠ 0 ∧ bitsOf 0xFF 8 56 = 0 ∧ ¬ (4096 = 0 ∨ 4096 < 4096 ∨ 0x1200 + 8388608 < 0x800200 + 4096) := by decide +kernel

/-- The machine with a port of its own in a given state. -/
def portS (n : Nat) (p : Port) (clk : Nat := 0) : State :=
  { State.reset with frameClk := clk, fab := { FabState.reset with fabV := true, ports := [(n, p)] } }

set_option maxRecDepth 20000 in
theorem witness_HostRegisters :
    State.reset.hostCut = false ∧ ({ State.reset with fab := { FabState.reset with split := true } } : State).hostCut = true
      ∧ State.reset.portOwn 0 = true ∧ State.reset.portOwn 95 = false
      ∧ (portS 0 { Port.reset with st := .active, en := true }).port 0 = { Port.reset with st := .active, en := true }
      ∧ ((portS 0 { Port.reset with st := .train, kept := some 0 }).port 0).kept.isSome = true
      ∧ ((portS 0 { Port.reset with st := .quarantine, en := true }).port 0).st ∈ [PortSt.dark, .down, .quarantine]
      ∧ State.reset.dieReach 0 1 = true ∧ State.reset.fab.token = some 0 ∧ State.reset.fab.tokenMsg = none
      ∧ ({ State.reset with fab := { FabState.reset with tokenMsg := some (2, 1) } } : State).fab.tokenMsg = some (2, 1)
      ∧ (withQ lq2).lq? 2 = some lq2 ∧ State.reset.lq? 2 = none ∧ (withQ lq2).hostCut = false
      ∧ (withQ lq2).cp.wq = [] ∧ (withQ lq2).dir = [] ∧ (withQ lq2).snoop = [] ∧ (withQ lq2).cores = []
      ∧ (withQ lq2).routePa (88 + (withQ lq2).cpOf 2) (lq2.pa + 0x18) ≠ .hold
      ∧ (withQ lq2).routePa (88 + (withQ lq2).cpOf 2) (lq2.pa + 0x18) ≠ .none
      ∧ (withQ lq2).isPoisoned (lq2.pa + 0x18) 8 ((withQ lq2).cpOf 2) = false := by decide

/-! ### The fabric -/

/-- A port that moves flits. -/
def live (f : Port → Port := id) : Port :=
  f { Port.reset with st := .active, en := true, lanes := Vector.replicate 16 ⟨.active, 0, 0⟩ }

/-- Each kind of flit with its CRC, numbered 0. -/
def flit1 (kind : Nat) (req : Bool) : Flit := mkFlit kind 0 4095 2 0 0 0 0xFFFF req 0

set_option maxRecDepth 100000 in
theorem witness_FlitsAtAPort_crc : flCrcOk (flit1 1 false) = true ∧ flFtype (flit1 1 false) = 1 ∧ flSeq (flit1 1 false) = 0
    ∧ flCrcOk (flit1 1 false ^^^ 1#2048) = false := by decide +kernel

set_option maxRecDepth 100000 in
theorem witness_FlitsAtAPort_kinds :
    ([0, 3, 4, 5, 6, 7].all fun k => flCrcOk (flit1 k true) && flFtype (flit1 k true) == k) = true := by decide +kernel

theorem witness_FlitsAtAPort :
    (portS 0 (live id)).portOwn 0 = true ∧ ((portS 0 (live id)).port 0).flows = true ∧ (live id).mute = false
      ∧ (live fun p => { p with replay := [⟨7, 0, 1⟩, ⟨8, 0, 1⟩] }).place 8 = some 1
      ∧ (live fun p => { p with replay := [⟨7, 0, 1⟩] }).place 9 = none
      ∧ (live fun p => { p with stripeSeq := some 4090 }).stripeSeq = some 4090 ∧ seqLe 4090 1 = true
      ∧ (live fun p => { p with asked := some 0xFFFF }).asked = some 0xFFFF
      ∧ (portS 0 { Port.reset with st := .ident }).port 0 = { Port.reset with st := .ident } ∧ Port.reset.peerV = false := by decide

/-- A message of a code for PA 0x8000 of this device. -/
def fmsg (code : Nat) : FMsg :=
  { code := code, cls := 0, tc := 0, tag := 1, gen := 0, ddev := 0, ddie := 0, sdev := 3, sdie := 0, sport := 0, poison := false
    deadline := 100, pa := 0x8000, size := 128, err := 0, info := 0, bytes := List.replicate 128 1
    mask := List.replicate 128 true, port := 0, vc := 0, at_ := 0 }

/-- The machine with that message at its home. -/
def inboxS (code : Nat) (f : State → State := id) : State :=
  f { State.reset with fab := { FabState.reset with inbox := [fmsg code] } }

set_option maxRecDepth 20000 in
theorem witness_MessagesAtTheHome :
    ([1, 2, 3, 4, 5, 6, 8, 0x10, 0x11, 0x12, 0x13, 0x14].all fun c => decide ((inboxS c).fab.inbox[0]? = some (fmsg c))
        && !(fmsg c).spent 0 && paDev (fmsg c).pa == (inboxS c).fab.fabId && !(inboxS c).homeBusy 0x8000 128 true
        && (inboxS c).arrived (fmsg c) && ((inboxS c).remoteWaits 3 0x8000 (c != 0x10)).isNone) = true
      ∧ (inboxS 1 fun s => { s with fab := { s.fab with linkLost := vset s.fab.linkLost 1 4 |> (vset · 5 4) |> (vset · 9 2) } }).arrived
          { fmsg 1 with ddie := 2 } = false
      ∧ PlainLine (inboxS 6) (fmsg 6) 128
      ∧ (fmsg 1).spent 100000000000 = true
      ∧ (inboxS 1 fun s => { s with snoop := [⟨0x8000, [(5, true)], []⟩] }).homeBusy 0x8000 128 false = true
      ∧ PlainLine (inboxS 2) (fmsg 2) 128 ∧ PlainLine (inboxS 5) { fmsg 5 with size := 16 } 8
      ∧ (inboxS 2 fun s => { s with poison := [(0x807F, 1)] }).isPoisoned 0x8000 128 = true
      ∧ (let s : State := { State.reset with
          cp := { CpState.reset with posts := [⟨0x8000, 3, 0, 1000, .wait 1⟩] }
          fab := { FabState.reset with syncs := [(1000, fmsg 7)] } };
        (match s.homeReady 1000 3 0x8000 32 with
        | .ok _ u => u.cp.posts == s.cp.posts && u.fab.syncs == [(1000, fmsg 7)] && BitVec.ofNat 64 (u.phNat 3 0x8000 8) != 1#64
        | _ => false) = true)
      ∧ (let x : Path := ⟨3, 2, 0, 4, 0, 0, []⟩;
        ({ State.reset with fab := { FabState.reset with paths := [x] } } : State).fab.paths.find? (fun y => y.dst == 3 && y.vc == 2)
          = some x)
      ∧ (3, 2, 1) ∈ ({ State.reset with fab := { FabState.reset with dacks := [(3, 2, 1)] } } : State).fab.dacks := by
  unfold PlainLine; decide

theorem witness_LinkAndLaneEvents :
    (portS 0 (live fun p => { p with owe := some 0 })).portOwn 0 = true ∧ (live id).flows = true
      ∧ (live fun p => { p with replay := [⟨7, 0, 16⟩] }).replay ≠ [] ∧ 0 + 60000 ≤ (portS 0 (live id) 60000).frameClk
      ∧ (live fun p => { p with kept := some 0 }).kept = some 0 ∧ 0 + 600000 ≤ (portS 0 (live id) 600000).frameClk
      ∧ ({ Port.reset with en := true } : Port).st = .down ∧ (portS 0 (live id)).fab.fabV = true ∧ 7 < Port.reset.built 0
      ∧ ((live fun p => p.setLane 15 ⟨.prove, 7, 1⟩).lane 15) = ⟨.prove, 7, 1⟩ ∧ (live id).lane 15 = ⟨.active, 0, 0⟩
      ∧ ¬ 2 ^ 26 < 671 * 100000 ∧ 2 ^ 26 < 672 * 100000 ∧ ¬ 2 ^ 26 < 67 * 1000000 ∧ 2 ^ 26 < 68 * 1000000
      ∧ (live id).laneCount ≠ 0 ∧ ((live id).setLane 15 ⟨.dark, 0, 0⟩).laneCount ≠ 0
      ∧ ({ State.reset with frameClk := 1000 } : State).fab.checked + 1000 ≤ 1000
      ∧ (let s := { State.reset with frameClk := 6000, fab := { FabState.reset with apart := some 0 } };
        s.fab.apart = some 0 ∧ s.fab.split = false ∧ 0 + 6000 ≤ s.frameClk) := by decide

/-- Region 1 with those queues and the port up. -/
def ethS (f : EthQ → EthQ := id) (g : EthPort → EthPort := id) : State :=
  { host id with
    mem := ((mem1.wrN 0xA018 8 1).wrN 0xB000 8 0xD000).wrN 0xB008 8 60
    fab := { FabState.reset with
      eth := vset FabState.reset.eth 1 (g { EthPort.reset with up := true, en := true, pfcen := 0xFF })
      ethq := [f (ethq1 false), f (ethq1 true)] } }

/-- The shortest frame: priority 7, any destination. -/
def frame60 : List Byte := [1, 2, 3, 4, 5, 6, 0, 0, 0, 0, 0, 1, 0x81, 0, 0xE0, 0] ++ List.replicate 44 0

theorem witness_EthernetSteps :
    (ethS id).ethQ 1 63 false = some (ethq1 false) ∧ State.reset.ethQ 1 63 false = none
      ∧ ((match (ethS id).ethTail (ethq1 false) with
          | .ok t => decide (t = 1)
          | .error _ => false) && (match (ethS id).ethDesc (ethq1 false) 0 with
          | .ok x => decide (x = (0xD000, 60, true))
          | .error _ => false) && (match (ethS id).ethRd 1 0xD000 60 with
          | .ok b => b.length == 60
          | .error _ => false)) = true
      ∧ (match (ethS fun e => { e with va := 0x4000000 }).ethTail { ethq1 false with va := 0x4000000 } with
          | .ok _ => false
          | .error _ => true) = true
      ∧ ((ethS fun e => { e with wire := [(0, 60, 0)] }).ethQ 1 63 false).map (·.wire) = some [(0, 60, 0)] := by decide

theorem witness_EthernetSteps_receive :
    (ethS id).ethSteer 1 frame60 = some (ethq1 true) ∧ State.reset.ethSteer 1 frame60 = none ∧ frame60.length = 60
      ∧ ((ethS id).eth 1).up = true ∧ (ethq1 true).head < 1 ∧ ((ethS id).eth 1).held = []
      ∧ ((ethS id fun p => { p with held := [(63, frame60)] }).ethNext 1 [(63, frame60)]).map (·.2) = some frame60
      ∧ ((ethS id).eth 1).pfcen.getLsbD 7 = true ∧ (State.reset.eth 1).pfcen.getLsbD 7 = false
      ∧ (State.reset.eth 1).up ≠ true ∧ ((ethS id).eth 1).en = true := by decide

theorem witness_ResetPowerAndMonitors :
    (let s := { State.reset with frameClk := 600000, fab := { FabState.reset with mons := [(20, { Mon.reset with hot := some 0 })] } };
      (s.mon 20).hot = some 0 ∧ s.fab.stopped = false ∧ 0 + 600000 ≤ s.frameClk ∧ s.frameClk % 6000 = 0 ∧ s.fab.thrAt < s.frameClk)
      ∧ 439 % 1024 < 440 ∧ ¬ 440 % 1024 < 440 ∧ dieLinks[13]?.isSome = true ∧ dieLinks[14]? = none
      ∧ vget State.reset.fab.linkLost 0 13 = 0 := by decide

/-- Well-formed words of each section, one of them long. -/
theorem witness_DecodeOfEncode :
    (Instr.add 31 (.const 39) (.reg 31)).wf = true ∧ isLong (.addLong 3 (.reg 1) 0x8001) = true
      ∧ (Instr.addLong 3 (.reg 1) 0x8001).wf = true ∧ (Instr.vadd 15 0 15 .rz).wf = true ∧ (Instr.mma 15 15 15 3 0x67).wf = true
      ∧ (Instr.xcopy 0 (.reg 31)).wf = true ∧ (Instr.hrot 15 15 (.const 39)).wf = true
      ∧ alsoIn (.xcopy 0 (.reg 31)) = some .xsec ∧ alsoIn (.vadd 15 0 15 .rz) = some .vsec := by decide

theorem witness_EveryStepKeepsMemoryCanonical :
    State.reset.mem.wf = true ∧ nextIs (step { addBundle with agenda := [.cc 0] }) (fun t => t.mem.wf) = true
      ∧ nextIs (step { inKern id with agenda := [.ev (.qtail 0 0)] }) (fun t => t.mem.wf) = true := by decide
/-! ### Words of the opcode table, written out field by field from Tables 4-2 and 5-1 to 5-10 -/

/-- A word of a slot or section decodes to an instruction. -/
def reads (c : Sect) (w : Nat) (i : Instr) : Bool := decide ((decodeIn c w).toOption = some i)

theorem test_decode_s0 :
    (reads .s 0b000000_00000000000000000000000000 .nop
    && reads .s 0b000001_11010_1000110_1001001_0000000 (.add 26 (.const 6) (.const 9))
    && reads .s 0b000001_11111_0000111_0001010_0000001 (.sub 31 (.reg 7) (.reg 10))
    && reads .s 0b000001_00100_0001000_0001011_0000010 (.mul 4 (.reg 8) (.reg 11))
    && reads .s 0b000001_01001_1001001_1001100_0000011 (.mulh 9 (.const 9) (.const 12))
    && reads .s 0b000001_01110_0001010_0001101_0000100 (.mulhU 14 (.reg 10) (.reg 13))
    && reads .s 0b000001_10011_0001011_0001110_0000101 (.div 19 (.reg 11) (.reg 14))
    && reads .s 0b000001_11000_1001100_1001111_0000110 (.divU 24 (.const 12) (.const 15))
    && reads .s 0b000001_11101_0001101_0010000_0000111 (.rem 29 (.reg 13) (.reg 16))
    && reads .s 0b000001_00010_0001110_0010001_0001000 (.remU 2 (.reg 14) (.reg 17))
    && reads .s 0b000001_00111_1001111_1010010_0001001 (.and 7 (.const 15) (.const 18))
    && reads .s 0b000001_01100_0010000_0010011_0001010 (.or 12 (.reg 16) (.reg 19))
    && reads .s 0b000001_10001_0010001_0010100_0001011 (.xor 17 (.reg 17) (.reg 20))
    && reads .s 0b000001_10110_1010010_1010101_0001100 (.andn 22 (.const 18) (.const 21))
    && reads .s 0b000001_11011_0010011_0010110_0001101 (.shl 27 (.reg 19) (.reg 22))
    && reads .s 0b000001_00000_0010100_0010111_0001110 (.shr 0 (.reg 20) (.reg 23))
    && reads .s 0b000001_00101_1010101_1011000_0001111 (.sra 5 (.const 21) (.const 24))
    && reads .s 0b000001_01010_0010110_0011001_0010000 (.rot 10 (.reg 22) (.reg 25))
    && reads .s 0b000001_01111_0010111_0011010_0010001 (.min 15 (.reg 23) (.reg 26))
    && reads .s 0b000001_10100_1011000_1011011_0010010 (.minU 20 (.const 24) (.const 27))) = true := by decide

theorem test_decode_s1 :
    (reads .s 0b000001_11001_0011001_0011100_0010011 (.max 25 (.reg 25) (.reg 28))
    && reads .s 0b000001_11110_0011010_0011101_0010100 (.maxU 30 (.reg 26) (.reg 29))
    && reads .s 0b000001_00011_1011011_00000000010101 (.clz 3 (.const 27))
    && reads .s 0b000001_01000_0011100_00000000010110 (.popc 8 (.reg 28))
    && reads .s 0b000001_01101_0011101_0000000_0011_010 (.sel 13 (.reg 29) (.reg 0) 2)
    && reads .s 0b000010_10010_1011110_1100001_001_0000 (.fadd 18 (.const 30) (.const 33) .rz)
    && reads .s 0b000010_10111_0011111_0000010_010_0001 (.fsub 23 (.reg 31) (.reg 2) .ru)
    && reads .s 0b000010_11100_0000000_0000011_011_0010 (.fmul 28 (.reg 0) (.reg 3) .rd)
    && reads .s 0b000010_00001_1100001_1100100_100_0011 (.ffma 1 (.const 33) (.const 36) .sr)
    && reads .s 0b000010_00110_0000010_0000101_0000100 (.fmin 6 (.reg 2) (.reg 5))
    && reads .s 0b000010_01011_0000011_0000110_0000101 (.fmax 11 (.reg 3) (.reg 6))
    && reads .s 0b000010_10000_1100100_0000000_100_0110 (.fcvtI64F32 16 (.const 36) .sr)
    && reads .s 0b000010_10101_0000101_0000000_000_0111 (.fcvtF32I64 21 (.reg 5) .rne)
    && reads .s 0b000010_11010_0000110_0000000_001_1000 (.fcvtBf16F32 26 (.reg 6) .rz)
    && reads .s 0b000010_11111_1100111_0000000_010_1001 (.fcvtFp16F32 31 (.const 39) .ru)
    && reads .s 0b000010_00100_0001000_0000000_011_1010 (.fcvtE4m3F32 4 (.reg 8) .rd)
    && reads .s 0b000010_01001_0001001_0000000_100_1011 (.fcvtE5m2F32 9 (.reg 9) .sr)
    && reads .s 0b000010_01110_1000010_00000000001100 (.fcvtF32Bf16 14 (.const 2))
    && reads .s 0b000010_10011_0001011_00000000001101 (.fcvtF32Fp16 19 (.reg 11))
    && reads .s 0b000010_11000_0001100_00000000001110 (.fcvtF32E4m3 24 (.reg 12))) = true := by decide

theorem test_decode_s2 :
    (reads .s 0b000010_11101_1000101_00000000001111 (.fcvtF32E5m2 29 (.const 5))
    && reads .s 0b000011_00010_0001110_0010001_0000_100 (.cmp 2 (.reg 14) (.reg 17) .ltu)
    && reads .s 0b000011_00111_0001111_0010010_0001_101 (.fcmp 7 (.reg 15) (.reg 18) .gt)
    && reads .s 0b000100_01100_1001000_1001011_0_0_000_01 (.amoAdd 12 (.const 8) (.const 11) false .die)
    && reads .s 0b000100_10001_0010001_0010100_1_0_001_01 (.amoMin 17 (.reg 17) (.reg 20) true false .die)
    && reads .s 0b000100_10110_0010010_0010101_0_1_010_10 (.amoMax 22 (.reg 18) (.reg 21) false true .pkg)
    && reads .s 0b000100_11011_1001011_1001110_0_1_011_00 (.amoAnd 27 (.const 11) (.const 14) true .core)
    && reads .s 0b000100_00000_0010100_0010111_0_0_100_01 (.amoOr 0 (.reg 20) (.reg 23) false .die)
    && reads .s 0b000100_00101_0010101_0011000_0_1_101_10 (.amoXor 5 (.reg 21) (.reg 24) true .pkg)
    && reads .s 0b000100_01010_1001110_1010001_0_0_110_11 (.amoSwap 10 (.const 14) (.const 17) false .pod)
    && reads .s 0b000100_01111_0010111_0011010_0_1_111_00 (.cas 15 (.reg 23) (.reg 26) true .core)
    && reads .s 0b000101_000000000000000000000000_01 (.acq .die)
    && reads .s 0b000101_000000000000000000000001_10 (.rel .pkg)
    && reads .s 0b000101_11110_0000000000000000010_10 (.fence 30 .pkg)
    && reads .s 0b000101_00011_0011011_0011110_00011_01 (.waita 3 (.reg 27) (.reg 30) .die)
    && reads .s 0b000101_01000_1010100_1010111_0010000 (.waitq 8 (.const 20) (.const 23))
    && reads .s 0b000101_01101_0011101_0000000_0010001 (.sbarv 13 (.reg 29) (.reg 0))
    && reads .s 0b000101_10010_0011110_0000001_0010010 (.sbwait 18 (.reg 30) (.reg 1))
    && reads .s 0b000101_00000_1010100_1010111_0010011 (.ffill (.const 20) (.const 23))
    && reads .s 0b000101_11100_0000000_0000011_0010100 (.fget 28 (.reg 0) (.reg 3))) = true := by decide

theorem test_decode_s3 :
    (reads .s 0b000101_00000_0011110_0000001_0010101 (.fqpush (.reg 30) (.reg 1))
    && reads .s 0b000110_00000_1010111_00000000000000 (.spawn (.const 23))
    && reads .s 0b000110_00000_0000000_00000000000001 (.join (.reg 0))
    && reads .s 0b000110_00000000000000000000000010 .done
    && reads .s 0b000110_00000000000000000000000011 .yield
    && reads .s 0b000110_11010_0000110_0001001_0000100 (.wdecl 26 (.reg 6) (.reg 9))
    && reads .s 0b000110_00000_0000100_00000000000101 (.wclose (.reg 4))
    && reads .s 0b000110_00000_1011101_00000000000110 (.wflush (.const 29))
    && reads .s 0b000110_01001_0001001_0001100_0000111 (.wquery 9 (.reg 9) (.reg 12))
    && reads .s 0b000110_00000_0000111_0001010_0001000 (.chtail (.reg 7) (.reg 10))
    && reads .s 0b000111_00000_1100000_00000000000000 (.jmp (.const 32))
    && reads .s 0b000111_00000000000000000000000001 .ret
    && reads .s 0b000111_00000_0001010_0001101_0000010 (.brx (.reg 10) (.reg 13))
    && reads .s 0b000111_00000_1100011_00000000000011 (.trap (.const 35))
    && reads .s 0b000111_00000000000000000000000100 .eret
    && reads .s 0b000111_00000_0001101_0010000_0000101 (.tlbinv (.reg 13) (.reg 16))
    && reads .s 0b000111_10001_1000001_1000100_0000110 (.dhop 17 (.const 1) (.const 4))
    && reads .s 0b000111_10110_0010010_0010101_0000111 (.vdie 22 (.reg 18) (.reg 21))
    && reads .s 0b000111_00000_0010000_0010011_0001000 (.trc (.reg 16) (.reg 19))
    && reads .s 0b001000_00000_000000000_001000100000 (.srd 0 544)) = true := by decide

theorem test_decode_s4 :
    (reads .s 0b001001_00000_0010010_00_000010001010 (.swr (.reg 18) 138)
    && reads .s 0b001010_00000000000000_1010_01111001 (.waitc 10 121)
    && reads .s 0b001011_01111_1000111_00000000_001101 (.shlImm 15 (.const 7) 13)
    && reads .s 0b001011_10100_0011000_00000001_110010 (.shrImm 20 (.reg 24) 50)
    && reads .s 0b001011_11001_0011001_00000010_010111 (.sraImm 25 (.reg 25) 23)
    && reads .s 0b001011_11110_1001010_00000011_111100 (.rotImm 30 (.const 10) 60)
    && reads .s 0b001100_00011_0000000_00110100110010 (.movi 3 3378)
    && reads .s 0b001110_01000_0011100_00110111000110 (.addImm 8 (.reg 28) 3526)
    && reads .s 0b010000_01101_1001101_00110111101011 (.andImm 13 (.const 13) 3563)
    && reads .s 0b010010_10010_0011110_00111000010000 (.orImm 18 (.reg 30) 3600)
    && reads .s 0b010100_10111_0011111_00111000110101 (.xorImm 23 (.reg 31) 3637)
    && reads .s 0b010110_11100_1010000_00111001011010 (.lea 28 (.const 16) 3674)
    && reads .s 0b011000_00001_0000001_00_000010_010000 (.bfx 1 (.reg 1) 2 16)
    && reads .s 0b011001_00110_0000010_00_000110_010100 (.bfi 6 (.reg 2) 6 20)
    && reads .s 0b011010_01011_0000000_00111001011010 (.loop 11 3674)
    && reads .s 0b100_001_00111_0000111_00111101011101 (.cmpImm .ne 7 (.reg 7) 3933)
    && reads .s 0b110000_10101_00100_0111100010011_10_0 (.ld 21 4 3859 2 false)
    && reads .s 0b110001_11010_01001_0111100111000_11_1 (.ldU 26 9 3896 3 true)
    && reads .s 0b110010_11111_01110_0111101011101_00_0 (.st 31 14 3933 0 false)
    && reads .s 0b110011_00100_10011_0111110000010_00_0 (.pref 4 19 3970 false)) = true := by decide

theorem test_decode_s5 :
    (reads .s 0b110100_001_1_000_0000000111110100111 (.br 1 true 4007)
    && reads .s 0b110101_110_0_000_0000000111111001100 (.call 6 false 4044)) = true := by decide

theorem test_decode_v0 :
    (reads .v 0b000001_0011_0010_0001_0000_011_0000000 (.vadd 3 2 1 .rd)
    && reads .v 0b000001_1000_0111_0110_0000_100_0000001 (.vsub 8 7 6 .sr)
    && reads .v 0b000001_1101_1100_1011_0000_000_0000010 (.vmul 13 12 11 .rne)
    && reads .v 0b000001_0010_0001_0000_1111_100_0000011 (.vfma 2 1 0 15 .sr)
    && reads .v 0b000001_0111_0110_0101_0000_010_0000100 (.vmin 7 6 5 .ru)
    && reads .v 0b000001_1100_1011_1010_0000_011_0000101 (.vmax 12 11 10 .rd)
    && reads .v 0b000001_0001_0000_1111_0000_110_0000110 (.vand 1 0 15 6)
    && reads .v 0b000001_0110_0101_0100_0000_011_0000111 (.vor 6 5 4 3)
    && reads .v 0b000001_1011_1010_1001_0000_000_0001000 (.vxor 11 10 9 0)
    && reads .v 0b000001_0000_1111_1110_0000_101_0001001 (.vshl 0 15 14 5)
    && reads .v 0b000001_0101_0100_0011_0000_010_0001010 (.vshr 5 4 3 2)
    && reads .v 0b000001_1010_1001_1000_0111_010_0001011 (.vsel 10 9 8 7 .ru)
    && reads .v 0b000001_1111_1110_00000000_010_0001100 (.vabs 15 14 .ru)
    && reads .v 0b000001_0100_0011_00000000_011_0001101 (.vneg 4 3 .rd)
    && reads .v 0b000001_1001_1000_0111_0000_110_0010_010 (.vcmp 9 8 7 6 .lt)
    && reads .v 0b000010_1110_1101_0011101_0_011_0000000 (.vaddVs 14 13 (.reg 29) .rd)
    && reads .v 0b000010_0011_0010_1000110_0_100_0000001 (.vsubVs 3 2 (.const 6) .sr)
    && reads .v 0b000010_1000_0111_0011111_0_000_0000010 (.vmulVs 8 7 (.reg 31) .rne)
    && reads .v 0b000010_1101_1100_0000000_0_001_0000100 (.vminVs 13 12 (.reg 0) .rz)
    && reads .v 0b000010_0010_0001_1001001_0_010_0000101 (.vmaxVs 2 1 (.const 9) .ru)) = true := by decide

theorem test_decode_v1 :
    (reads .v 0b000010_0111_0110_0000010_0_100_0000110 (.vandVs 7 6 (.reg 2) 4)
    && reads .v 0b000010_1100_1011_0000011_0_001_0000111 (.vorVs 12 11 (.reg 3) 1)
    && reads .v 0b000010_0001_0000_1001100_0_110_0001000 (.vxorVs 1 0 (.const 12) 6)
    && reads .v 0b000010_0110_0101_0000101_0_011_0001001 (.vshlVs 6 5 (.reg 5) 3)
    && reads .v 0b000010_1011_1010_0000110_0_000_0001010 (.vshrVs 11 10 (.reg 6) 0)
    && reads .v 0b000010_0000_1111_1001111_0_101_0010_101 (.vcmpVs 0 15 (.const 15) 5 .geu)
    && reads .v 0b000011_0101_0100_00000000_001_0000000 (.vcvt 5 4 .rz)
    && reads .v 0b000011_1010_1001_1000_0000_000_0000001 (.vquant 10 9 8 false)
    && reads .v 0b000011_1111_1110_1101_0000_001_0000010 (.vdeq 15 14 13 .rz)
    && reads .v 0b000011_0100_0011_00000000_100_0001000 (.vexp2 4 3 .sr)
    && reads .v 0b000011_1001_1000_00000000_000_0001001 (.vlog2 9 8 .rne)
    && reads .v 0b000011_1110_1101_00000000_001_0001010 (.vrcp 14 13 .rz)
    && reads .v 0b000011_0011_0010_00000000_010_0001011 (.vrsqrt 3 2 .ru)
    && reads .v 0b000011_1000_0111_00000000_011_0001100 (.vtanh 8 7 .rd)
    && reads .v 0b000100_1101_1100_00000000_100_0000000 (.vrsum 13 12 .sr)
    && reads .v 0b000100_0010_0001_00000000_000_0000001 (.vrmax 2 1 .rne)
    && reads .v 0b000100_0111_0110_00000000_001_0000010 (.vamax 7 6 .rz)
    && reads .v 0b000100_1100_1011_00000000_010_0000011 (.vscan 12 11 .ru)
    && reads .v 0b000101_0001_0000_00000000_111_0000000 (.vgather 1 0 7)
    && reads .v 0b000101_0000_0110_0101_0000_100_0000001 (.vscatter 6 5 4)) = true := by decide

theorem test_decode_v2 :
    (reads .v 0b000101_1011_1010_00000000_001_0000010 (.vcopy 11 10 1)
    && reads .v 0b000110_0000_0000_0010100_0_110_0000000 (.shset 0 (.reg 20) 6)
    && reads .v 0b000110_0101_0000_0010101_0_010_0000001 (.vfill 5 (.reg 21) .ru)
    && reads .v 0b000110_1010_0000_1011110_0_000_0000010 (.viota 10 (.const 30) 0)
    && reads .v 0b001000_0100_0011_00000000_000_0001_011 (.vbulk 4 3 .rne .rsqrt)
    && reads .v 0b111110_00000000000000_010110111001 (.vrun 1465)
    && reads .vsec 0b000111_00000000000000000000000_111 (.vchain 7)
    && reads .vsec 0b111111_00000000000000000000000000 .vend) = true := by decide

theorem test_decode_x0 :
    (reads .x 0b100000_00000000000000000000000000 .meNop
    && reads .x 0b000001_011_0011011_0000000000000000 (.xcopy 3 (.reg 27))
    && reads .x 0b000001_000_1100100_1100111_000000001 (.xtile 0 (.const 36) (.const 39))
    && reads .x 0b000001_101_0011101_0000000_000000010 (.xmeta 5 (.reg 29) (.reg 0))
    && reads .x 0b000001_010_0011110_0000001_000000011 (.xgather 2 (.reg 30) (.reg 1))
    && reads .x 0b000001_111_1100111_1000010_000000100 (.xfill 7 (.const 39) (.const 2))
    && reads .x 0b000001_100_0000000_0000011_000000101 (.xred 4 (.reg 0) (.reg 3))
    && reads .x 0b000010_001_0000001_0000100_11_0000000 (.xsig 1 (.reg 1) (.reg 4) .pod)
    && reads .x 0b000010_110_1000010_1000101_00_0000001 (.xbar 6 (.const 2) (.const 5) .core)
    && reads .x 0b000010_011_0000011_0000110_000000010 (.xwrap 3 (.reg 3) (.reg 6))
    && reads .x 0b000010_000_0000100_0000000000000011 (.xrcnt 0 (.reg 4))
    && reads .x 0b000011_101_1000101_0000000000000000 (.xjob 5 (.const 5))
    && reads .x 0b000011_010_0000110_0001001_000000001 (.xfoot 2 (.reg 6) (.reg 9))
    && reads .x 0b000011_111_0000111_0001010_01_0000010 (.xchain 7 (.reg 7) (.reg 10) .die)
    && reads .x 0b011110_100_00000000000_100001010011 (.xrun 4 2131)
    && reads .x 0b100001_1110_1101_1100_10_1000101_00000 (.mma 14 13 12 2 69)
    && reads .x 0b100001_0011_0010_0001_10_1000101_00001 (.mmas 3 2 1 2 69)
    && reads .x 0b100010_1000_0000000000_1100111_00000 (.mzero 8 103)
    && reads .x 0b100010_1101_1100_000000_1111011_00001 (.mnarrow 13 12 123)
    && reads .x 0b100010_0010_0001_000000_0100000_00010 (.mtrans 2 1 32)) = true := by decide

theorem test_decode_x1 :
    (reads .x 0b100011_0010_0000000001_0001111_00000 (.mown 2 (.reg 15))
    && reads .x 0b100011_0011_0000000001_0010000_00001 (.mrel 3 (.reg 16))
    && reads .x 0b100011_00000000000000_0110001_00010 (.msync 49)
    && reads .x 0b111110_00000000000000_100101010110 (.mrun 2390)
    && reads .xsec 0b011111_00000000000000000000000000 .xend
    && reads .msec 0b111111_00000000000000000000000000 .mend) = true := by decide

theorem test_decode_h0 :
    (reads .h 0b000001_00000_01111_1101001111110_00_0 (.hld 0 15 6782 false)
    && reads .h 0b000010_00101_10100_1101010100011_00_1 (.hst 5 20 6819 true)
    && reads .h 0b000011_01010_1001_1000_0000000000000 (.hxor 10 9 8)
    && reads .h 0b000011_01111_1110_0000_1011010_000001 (.hrot 15 14 (.const 26))
    && reads .h 0b000100_00100_0011_101100010010_00000 (.hrotImm 4 3 2834)
    && reads .h 0b000011_00001_1000_0000_0011100_000010 (.hacc 1 8 (.reg 28))
    && reads .h 0b000011_01110_0001_00000000000000011 (.hthr 14 1)
    && reads .h 0b000011_00011_000000000000000000100 (.hclr 3)
    && reads .h 0b000011_01000_0111_0110_0000000000101 (.hpop 8 7 6)
    && reads .h 0b000011_01101_00000000_1011101_000110 (.hrnd 13 (.const 29))
    && reads .h 0b000011_00000_0010_00000000000000111 (.htie 2)
    && reads .h 0b000011_0000000000000_0011100_001000 (.htieSeed (.reg 28))
    && reads .h 0b000011_00000000000000000000001001 .htieZero
    && reads .h 0b000011_00001_000000000000000001010 (.hclrW4 1)
    && reads .h 0b000011_00010_000000000000000001011 (.hclrW8 2)
    && reads .h 0b000101_00000_1011_0000_1100011_000000 (.hamw 11 (.const 35))
    && reads .h 0b000101_10000_1111_0000_0000111_000001 (.hamq 16 15 (.reg 7))
    && reads .h 0b000101_00000_0101_0000_0000101_000010 (.hamk 5 (.reg 5))
    && reads .h 0b000101_0000000000000_1100011_000011 (.hamd (.const 35))) = true := by decide

theorem test_decode_long :
    ((decodeLong 0b001101_00011_0000000_00000000000001 0xFFFFFFFF).toOption = some (.moviLong 3 0x3FFFFFFFC001)
    ∧ (decodeLong 0b010001_11111_1000001_10000000000000 0x80000000).toOption = some (.andLong 31 (.const 1) 0x200000002000)
    ∧ (decodeLong 0b010011_00001_0000010_11111111111111 0).toOption = some (.orLong 1 (.reg 2) 0x3FFF)
    ∧ (decodeLong 0b010101_00001_0000010_00000000000000 1).toOption = some (.xorLong 1 (.reg 2) 0x4000)
    ∧ (decodeLong 0b010111_00001_0000010_00000000000011 2).toOption = some (.leaLong 1 (.reg 2) 0x8003)
    ∧ (decodeLong 0b101101_00111_0000010_00000000000011 2).toOption = some (.cmpLong .geu 7 (.reg 2) 0x8003)
    ∧ (decodeLong 0b101101_01000_0000010_00000000000011 2).toOption = none) := by decide

/-- Table 10-7: the number of each register whose SWR has a row of its own. -/
theorem test_decode_swr :
    (reads .s 0b001001_00000_0000001_00_000000000010 (.fstat (.reg 1))
    && reads .s 0b001001_00000_0000001_00_000000000101 (.rngs .cc (.reg 1))
    && reads .s 0b001001_00000_0000001_00_000000000111 (.rngs .me (.reg 1))
    && reads .s 0b001001_00000_0000001_00_000001001000 (.wmarm (.reg 1))
    && reads .s 0b001001_00000_0000001_00_000010010011 (.chOrg 0 (.reg 1))
    && reads .s 0b001001_00000_0000001_00_000101110011 (.chOrg 7 (.reg 1))
    && reads .s 0b001001_00000_0000001_00_000110000000 (.tiesw 0 (.reg 1))
    && reads .s 0b001001_00000_0000001_00_000110111111 (.tiesw 63 (.reg 1))) = true := by decide

/-- R97-R102: reserved bits, reserved operations and operand codes are refused, each by its name. -/
theorem test_decode_refusals :
    (let bad := fun (c : Sect) (w : Nat) (e : DecErr) => match decodeIn c w with
      | .ok _ => false
      | .error x => x == e
    bad .s 0b000001_00011_0000001_0000010_0010101 .insn && bad .s 0b001001_00000_0000001_00_000000001001 .operand
      && bad .s 0b000001_00011_0100000_0000010_0000000 .operand && bad .v 0b000111_00000000000000000000000_011 .insn
      && bad .xsec 0b000001_001_0000100_0000000_00_0000000 .insn && bad .s 0b111110_00000000000000000000000000 .insn
      && bad .x 0b100011_0000_0000000001_0001111_00000 .operand && bad .h 0b000011_10000_1001_1000_0000000000000 .operand
      && bad .s 0b001101_00011_0000000_00000000000001 .insn) = true := by decide
/-! ### One step on a small state: expected values by hand from the rules cited -/

/-- Register `r` after instruction `i` on a state. -/
def regAfter (i : Instr) (s : State) (r : Nat) : Option Word :=
  match exec i s with
  | .next t => some (t.me.reg r)
  | _ => none

/-- The fault that an instruction has called for. -/
def faultOf (i : Instr) (s : State) : Option Cause :=
  match exec i s with
  | .next t =>
    match t.me.call with
    | some (.fault r) => some r.cause
    | _ => none
  | _ => none

/-- R124: addition wraps modulo 2^64; a destination that is also a source. -/
theorem test_add_wraps : regAfter (.add 1 (.reg 1) (.reg 2)) (regsOf 0xFFFFFFFFFFFFFFFF 2) 1 = some 1 := by decide +kernel

/-- R102: a write to s0 is discarded. -/
theorem test_add_to_s0 : regAfter (.add 0 (.reg 1) (.reg 2)) (regsOf 1 2) 0 = some 0 := by decide +kernel

/-- Table 6-2: a - b, not b - a. -/
theorem test_sub : regAfter (.sub 3 (.reg 1) (.reg 2)) (regsOf 1 3) 3 = some 0xFFFFFFFFFFFFFFFE := by decide +kernel

/-- R125: the most negative number by -1, and by 0. -/
theorem test_div_most_negative :
    regAfter (.div 3 (.reg 1) (.reg 2)) (regsOf 0x8000000000000000 0xFFFFFFFFFFFFFFFF) 3 = some 0x8000000000000000
      ∧ regAfter (.rem 3 (.reg 1) (.reg 2)) (regsOf 0x8000000000000000 0xFFFFFFFFFFFFFFFF) 3 = some 0
      ∧ regAfter (.div 3 (.reg 1) (.reg 2)) (regsOf 5 0) 3 = some 0xFFFFFFFFFFFFFFFF
      ∧ regAfter (.rem 3 (.reg 1) (.reg 2)) (regsOf 5 0) 3 = some 5 := by decide +kernel

/-- R124: a count is b[5:0]; SRA keeps the sign. -/
theorem test_shift_counts :
    regAfter (.shl 3 (.reg 1) (.reg 2)) (regsOf 1 65) 3 = some 2
      ∧ regAfter (.sra 3 (.reg 1) (.reg 2)) (regsOf 0x8000000000000000 63) 3 = some 0xFFFFFFFFFFFFFFFF
      ∧ regAfter (.shr 3 (.reg 1) (.reg 2)) (regsOf 0x8000000000000000 63) 3 = some 1 := by decide +kernel

/-- R128: BFX zero-extends, and BFI keeps the other bits. -/
theorem test_bit_fields :
    regAfter (.bfx 3 (.reg 1) 3 4) (regsOf 0xABCD 0) 3 = some 0xC
      ∧ regAfter (.bfi 2 (.reg 1) 3 4) (regsOf 0xABCD 0xFFFF) 2 = some 0xFFDF := by decide +kernel

/-- R129: signed and unsigned less-than differ; p0 keeps reading true. -/
theorem test_cmp :
    (match exec (.cmp 2 (.reg 1) (.reg 2) .lt) (regsOf 0xFFFFFFFFFFFFFFFF 1), exec (.cmp 2 (.reg 1) (.reg 2) .ltu) (regsOf 0xFFFFFFFFFFFFFFFF 1),
        exec (.cmp 0 (.reg 1) (.reg 2) .ltu) (regsOf 0xFFFFFFFFFFFFFFFF 1) with
      | .next t, .next u, .next v => t.me.pred 2 && !(u.me.pred 2) && v.me.pred 0
      | _, _, _ => false) = true := by decide +kernel

/-- R126: LEA faults when a bit above 55 is set, and sd is unchanged. -/
theorem test_lea_out_of_range :
    faultOf (.lea 3 (.reg 1) 1) (regsOf (2 ^ 56 - 1) 0) = some .addrRange
      ∧ regAfter (.lea 3 (.reg 1) 1) (regsOf (2 ^ 56 - 1) 0) 3 = some 0 := by decide +kernel

/-- R122: alignment is checked before the range. -/
theorem test_load_misaligned : faultOf (.ld 5 1 0 3 false) (regsOf (2 ^ 56 + 4) 0) = some .align := by decide +kernel

/-- A load of eight bytes from the scratchpad's end, little-endian (R70): the last byte is the most significant. -/
theorem test_scratchpad_load :
    (match exec (.loadCompletion 0 0) (coreWith fun c =>
        { c with inflight := [{ spLoad with kind := .load 5 true, addr := 2 ^ 21 - 8, size := 8 }], ld := 1
                 spad := c.spad.wr (2 ^ 21 - 1) 0x80 }) with
      | .next t => decide (t.me.reg 5 = 0x8000000000000000 ∧ t.me.ld = 0)
      | _ => false) = true := by decide +kernel

/-- Tables 5-4 and 6-4: a taken branch counts from its own bundle; a branch outside the memory faults at its bundle. -/
theorem test_branch :
    (match exec (.br 0 false 5) (coreWith fun c => { c with pc := 10 }) with
      | .next t => t.me.pc
      | _ => 0) = 15 ∧ faultOf (.br 0 false 1) (coreWith fun c => { c with pc := 8191 }) = some .illegalInsn := by decide +kernel

/-- R62: round to nearest even: 16,777,216 + 1 in F32 is a tie, and stays even. -/
theorem test_fadd_ties_to_even :
    regAfter (.fadd 3 (.reg 1) (.reg 2) .rne) (regsOf 0x4B800000 0x3F800000) 3 = some 0x4B800000 := by decide +kernel

/-- R47: infinity less infinity is the default NaN, and sets the invalid flag of the CC. -/
theorem test_fsub_invalid :
    regAfter (.fsub 3 (.reg 1) (.reg 2) .rne) (regsOf 0x7F800000 0x7F800000) 3 = some 0x7FC00000 := by decide +kernel

/-- R318: an event that is not due changes nothing. -/
theorem test_event_not_due : exec (.pageFaultSave 0) (coreWith id) = .next (coreWith id) := by rfl

/-- R29, R294: a pop starts the CR on the idle core, and of cores that went idle in one cycle the lowest chooses first. -/
theorem test_pop :
    (match exec (.crPop 0) (queued1 id) with
      | .next t => decide ((t.core 0).status = .running ∧ (t.core 0).cr = some 1 ∧ (t.core 0).region = 1)
      | _ => false) = true ∧ (queued1 id).turn 1 = false := by decide +kernel

/-- R339: a window with more than 2^26 / 10^5 errors makes the lane LEAVING and the port DEGRADED, and asks for the set
without it (the worked example after P7). -/
theorem test_ber_window :
    (match exec (.berWindow 0 7 672) (portS 0 (live id)), exec (.berWindow 0 7 671) (portS 0 (live id)) with
      | .next t, .next u => decide (((t.port 0).lane 7).st = .leaving ∧ ((u.port 0).lane 7).st = .active
          ∧ (t.port 0).st = .degraded)
      | _, _ => false) = true := by decide +kernel

/-- R333: under 12 lanes, LANES 0xFFF0, beats 0, 11 and 12 go to lanes 4, 15 and 4. -/
theorem test_beat_lanes : [0, 11, 12].map (beatLane 0xFFF0) = [some 4, some 15, some 4] := by decide

/-- Table 16-4: an MMA of one block of 16 cycles that is frozen at SCHED_CLK 240, due at 264, owes 64 cycles (R284). -/
theorem test_mma_restarts_after_freeze :
    (((meState 0x211 32 []).upd fun c =>
      { c with sched := 240, fmtHeld := some 0x211 }).mmaStop false 0 0 1 0 0 264).me.me.due = some 304 := by
  decide +kernel

/-- R286: a doorbell write sets TAIL. -/
theorem test_qtail :
    (match exec (.qtail 2 9) (withQ lq2) with
      | .next t => (t.lq? 2).map (·.tail)
      | _ => none) = some 9 := by decide +kernel

/-! ### WellFormed refuses a term for each of its checks -/

theorem test_wf_refuses :
    ([Instr.add 0 (.const 40) (.reg 0), .sub 0 (.reg 0) (.const 40), .clz 0 (.const 63), .sel 0 (.const 40) (.reg 0) 0,
      .cmp 0 (.reg 0) (.const 40) .eq, .fcvtF32Bf16 0 (.const 40), .amoAdd 0 (.const 40) (.reg 0) false .die,
      .cas 0 (.reg 0) (.const 40) false .die, .waita 0 (.const 40) (.reg 0) .die, .waitq 0 (.const 40) (.reg 0),
      .ffill (.const 40) (.reg 0), .spawn (.const 40), .srd 0 0x009, .swr (.reg 0) 0x009, .swr (.reg 0) 0x002,
      .swr (.const 40) 0x220, .wmarm (.const 40), .waitc 0 0, .shlImm 0 (.const 40) 0, .addImm 0 (.const 40) 0,
      .addLong 0 (.const 40) 0, .bfx 0 (.reg 0) 63 1, .bfi 0 (.const 40) 0 0, .cmpImm .eq 0 (.const 40) 0,
      .cmpLong .eq 0 (.const 40) 0, .shset 0 (.const 40) 0, .xcopy 0 (.const 40), .xtile 0 (.reg 0) (.const 40),
      .xsig 0 (.const 40) (.reg 0) .die, .mma 0 0 0 1 0x20, .mma 0 0 0 1 0x68, .mown 0 (.reg 0), .mown 4 (.reg 0), .mrel 1 (.const 40),
      .hrot 0 0 (.const 40), .htieSeed (.const 40)].any Instr.wf) = false := by decide +kernel

theorem test_wf_refuses_events :
    ([Instr.bundleIssue 88, .loadCompletion 88 0, .jobCard 88 0, .sbarHomeStep (2 ^ 56), .null 95 0, .reconf 95, .en 95 true,
      .laneLock 0 16, .berWindow 0 16 0, .ethTxPoll 2 0, .ethTxPoll 0 64, .ethLinkChange 2 true, .ethPause 0 8 true, .pclr 21,
      .monitorSample 21 0 0 0 0, .dieLinkModuleFailure 14].any Instr.wf) = false := by decide +kernel

theorem test_wf_accepts :
    ([Instr.add 31 (.const 39) (.reg 31), .bfx 0 (.reg 0) 63 0, .srd 0 0x220, .mma 0 0 0 1 0x67, .mma 0 0 0 0 0x68, .mown 3 (.reg 0),
      .bundleIssue 87, .laneLock 94 15, .ethTxPoll 1 63, .pclr 20, .dieLinkModuleFailure 13].all Instr.wf) = true := by decide +kernel

/-! ### The tools -/

/- The worked example of 04_formats_and_assembly. -/
set_option maxRecDepth 100000 in
theorem test_asm_worked_example :
    (Asm.assemble [".section bundle", ".entry 0, start", "start: MOVI s7, 0x0123_4567_89AB ; long", "ADD s5, s5, 1",
        "DONE", ".end"]).map (fun o => (o.bundle, o.entries)) =
      some ([0x048D159E000000000000000034E009AB, 0x04A16480, 0x18000002], [(0, 0)]) := by decide

/- R107: a float literal in an integer position. -/
set_option maxRecDepth 100000 in
theorem test_asm_float_in_integer_position : Asm.assemble [".section bundle", "ADD s5, s5, 0.5", ".end"] = none := by
  decide

/- A sample word of 07_vector_instructions and R160; the bytes are FP32 of -2.25 and 0.01. -/
set_option maxRecDepth 100000 in
theorem test_asm_engine_section :
    (Asm.assemble [".section vsec", "VMUL sh5, sh5, 0.5", "VEND", ".section data, 64", ".const.F32 -2.25, 1e-2",
        ".end"]).map (fun o => (o.vsec, o.data)) =
      some ([0x09574002, 0xFC000000], [0, 0, 0x10, 0xC0, 0x0A, 0xD7, 0x23, 0x3C]) := by decide

/- The CR image of Table 15-1. -/
set_option maxRecDepth 100000 in
theorem test_asm_cr_image :
    (Asm.assemble [".cr 0x4000002000, CODE=0x4000020000, REGION=12", ".end"]).map (fun o => o.loads) =
      some [(0x4000002000, [0x4000020000, 0, 0, 0x000C000000000000])] := by decide

/- The chalk line of R247's example. -/
theorem test_packets_of_the_freeze_example :
    readPacket 0x0000000604000003 = .bundle 0 0x40 3 false 0 ∧ readPacket 0x0000000000A00004 = .entry 0 10 false false 0
      ∧ readPacket 0x0000008204100003 = .bundle 0 0x41 1 false 2
      ∧ readPacket 0x0000000001000094 = .entry 9 0 true false 0 ∧ corrupted [0xC] = true := by decide

end Sys2Proof.Tests
end

/-! SUPPORT. What the command processor's writes leave as it is once they are performed (R77, R86, R321), and the write that
nothing stands in the way of. -/

namespace Sys2Proof.Machine

/-! ## What performing a write may change -/

/-- The state `s` with everything that performing a write may change taken from `t`: memory and its copies, the tiles of the
directory and of the cores, the back-invalidations, and the CP's own record of its writes. -/
def State.performedAs (s t : State) : State :=
  { s with
    mem := t.mem, dir := t.dir, lines := t.lines, bis := t.bis, cores := t.cores, draws := t.draws
    cp := { s.cp with ucs := t.cp.ucs, wq := t.cp.wq, gens := t.cp.gens, tags := t.cp.tags } }

/-- Between `s` and `t` writes have been performed, and nothing else has happened. -/
def State.Performs (s t : State) : Prop := t = s.performedAs t

namespace State.Performs

theorem refl (s : State) : s.Performs s := rfl

theorem trans {s t u : State} (h : s.Performs t) (k : t.Performs u) : s.Performs u := by
  have e := congrArg (fun x => State.performedAs x u) (show t = s.performedAs t from h)
  exact Eq.trans k e

theorem foldl {α : Type} {f : State → α → State} (h : ∀ (s : State) (x : α), s.Performs (f s x)) (l : List α)
    (s : State) :
    s.Performs (l.foldl f s) := by
  induction l generalizing s with
  | nil => rfl
  | cons x r ih => exact (h s x).trans (ih _)

theorem lqs {s t : State} (h : s.Performs t) : t.cp.lqs = s.cp.lqs := by
  have e := congrArg (fun x => x.cp.lqs) (show t = s.performedAs t from h)
  exact e

/-- The CP's record of its writes is part of it. -/
theorem recorded (s : State) (wq : List CpWrite) (gens : List (Nat × Nat)) (tags : Vector Nat 2) :
    s.Performs { s with cp := { s.cp with wq := wq, gens := gens, tags := tags } } := rfl

theorem dev {s t : State} (h : s.Performs t) : t.dev = s.dev := by
  have e := congrArg State.dev (show t = s.performedAs t from h)
  exact e

/-! ## The lines of the L2 -/

theorem evict (s : State) (dom line : Nat) : s.Performs (s.evict dom line) := by
  unfold State.evict
  split <;> rfl

theorem way (s : State) (slice line : Nat) : s.Performs (s.way slice line) := by
  unfold State.way
  split
  · rfl
  · dsimp only
    split
    · exact trans (t := s.draw.2) rfl (evict ..)
    · rfl

theorem fill (s : State) (dom line : Nat) : s.Performs (s.fill dom line) := by
  unfold State.fill
  split
  · rfl
  · exact (way s _ _).trans rfl

theorem wrLine (s : State) (dom pa : Nat) (bs : List Byte) : s.Performs (s.wrLine dom pa bs) :=
  (fill s dom (pa / 128)).trans rfl

theorem wrLines (dom : Nat) (l : List (Nat × Nat)) (bs : List Byte) (s : State) : s.Performs (wrLines dom l bs s) := by
  induction l generalizing bs s with
  | nil => rfl
  | cons x r ih => exact (wrLine s _ _ _).trans (ih _ _)

theorem phWrite (s : State) (dom pa : Nat) (bs : List Byte) : s.Performs (s.phWrite dom pa bs) := wrLines _ _ _ _

theorem dropCopy (s : State) (dom pa n : Nat) : s.Performs (s.dropCopy dom pa n) := foldl (fun _ _ => evict ..) _ _

theorem touchLine (s : State) (core dom pa : Nat) (wr : Bool) : s.Performs (s.touchLine core dom pa wr) := by
  refine (fill s dom (pa / 128)).trans ?_
  unfold State.touchLine
  dsimp only
  split
  · rfl
  · split_ifs <;> rfl

theorem touch (s : State) (core dom pa n : Nat) (wr : Bool) : s.Performs (s.touch core dom pa n wr) :=
  foldl (fun _ _ => touchLine ..) _ _

theorem markStale (s : State) (pa n : Nat) : s.Performs (s.markStale pa n) := by
  unfold State.markStale
  split <;> rfl

/-! ## Windows and remote holders -/

theorem sendBis (s : State) (pa : Nat) (hs : List (Nat × Bool)) : s.Performs (s.sendBis pa hs) := rfl

theorem setCopy (s : State) (n : Nat) (e : DirEnt) (st : TileSt) : s.Performs (s.setCopy n e st) := rfl

theorem askLine (s : State) (pa n : Nat) (wr : Bool) : s.Performs (s.askLine pa n wr) :=
  foldl (fun _ _ => sendBis ..) _ _

theorem recallTo (s : State) (dom pa : Nat) (bytes : List Byte) (mask : List Nat) :
    s.Performs (s.recallTo dom pa bytes mask) :=
  foldl (fun _ _ => phWrite ..) _ _

theorem gwNow (s : State) (e : DirEnt) : s.Performs (s.gwNow e) :=
  ((recallTo s _ _ _ _).trans (foldl (fun _ _ => setCopy ..) _ _)).trans rfl

/-! ## Writes of cores that have stopped at a narrower scope -/

theorem performHead (s : State) (n : Nat) : s.Performs (s.performHead n) := by
  unfold State.performHead
  split
  · rfl
  · split
    · exact askLine ..
    · exact trans (t := s.updCore n _) rfl (((phWrite ..).trans (touch ..)).trans (markStale ..))

theorem performFirst (n k : Nat) (s : State) : s.Performs (performFirst n k s) := by
  induction k generalizing s with
  | zero => rfl
  | succ k ih => exact (performHead s n).trans (ih _)

theorem expose (s : State) (c die dom pa n : Nat) (own : Bool) : s.Performs (s.expose c die dom pa n own) :=
  foldl (fun _ _ => performFirst ..) _ _

end State.Performs

/-! ## The command processor's writes -/

/-- What an attempt leaves, whether it succeeds or waits, comes of performing writes. -/
def Try.Performs {α : Type} (s : State) : Try α → Prop
  | .ok _ t => s.Performs t
  | .wait t => s.Performs t
  | .err _ => True

theorem Try.Performs.after {α : Type} {s t : State} (h : s.Performs t) {x : Try α} (k : x.Performs t) : x.Performs s := by
  cases x with
  | ok a u => exact State.Performs.trans h k
  | wait u => exact State.Performs.trans h k
  | err e => trivial

theorem Try.Performs.bind {α β : Type} {s : State} {x : Try α} {f : α → State → Try β} (h : x.Performs s)
    (k : ∀ a t, (f a t).Performs t) : (x.bind f).Performs s := by
  cases x with
  | ok a t => exact (k a t).after h
  | wait t => exact h
  | err e => trivial

theorem State.cpRecall_performs (es : List DirEnt) (s : State) : (State.cpRecall es s).Performs s := by
  induction es generalizing s with
  | nil => exact .refl s
  | cons e r ih =>
    unfold State.cpRecall
    split_ifs
    · exact .refl s
    · exact .sendBis ..
    · exact (ih _).after (.gwNow s e)

theorem State.cpApply_performs (s : State) (w : CpWrite) : (s.cpApply w).Performs s := by
  unfold State.cpApply
  dsimp only
  split
  · exact .refl s
  · split
    · exact .refl s
    · refine .bind (s.cpRecall_performs _) fun _ t => ?_
      split
      · exact .askLine ..
      · refine Try.Performs.after (.expose t 88 w.die w.dom w.pa w.bytes.length false) ?_
        split
        · exact .refl _
        · refine State.Performs.trans ?_ (.markStale ..)
          split
          · exact ((State.Performs.dropCopy ..).trans (.dropCopy ..)).trans rfl
          · split <;> exact .phWrite ..

theorem cpDrainN_performs (f : Nat) (s : State) : s.Performs (cpDrainN f s) := by
  induction f generalizing s with
  | zero => rfl
  | succ f ih =>
    unfold cpDrainN
    split
    · rfl
    · rename_i w r _
      have apply := s.cpApply_performs w
      dsimp only
      split
      · exact (State.Performs.recorded s r _ _).trans (ih _)
      · split
        · rename_i t h
          split at h
          · cases h
          · rw [h] at apply
            exact (State.Performs.trans apply (.recorded t r _ _)).trans (ih _)
        · rename_i t h
          split at h
          · cases h; rfl
          · rw [h] at apply
            exact State.Performs.trans apply (.recorded t _ _ _)
        · rfl

theorem State.cpDrain_performs (s : State) : s.Performs s.cpDrain := cpDrainN_performs _ s

theorem State.cpSend_performs (s : State) (die dom pa : Nat) (bs : List Byte) (phys : Bool) :
    s.Performs (s.cpSend die dom pa bs phys) :=
  (State.Performs.recorded s _ _ _).trans (State.cpDrain_performs _)

theorem State.paWr_performs (s : State) (pa : Nat) (bs : List Byte) : s.Performs (s.paWr pa bs) := s.cpSend_performs ..

/-! ## A write that nothing stands in the way of -/

/-- Nothing stands in the way of a physical write of the CP: its own earlier writes are performed, no window, remote holder or
core's write is there, the place is reached, and it is not poisoned. -/
structure State.PaClear (s : State) (pa n : Nat) : Prop where
  wq : s.cp.wq = []
  dir : s.dir = []
  snoop : s.snoop = []
  buf : ∀ c, c ∈ s.cores → c.2.buf = []
  notHeld : s.routePa (88 + s.cpOf 2) pa ≠ .hold
  routed : s.routePa (88 + s.cpOf 2) pa ≠ .none
  sound : s.isPoisoned pa n (s.cpOf 2) = false

@[simp] theorem State.evict_cores (s : State) (dom line : Nat) : (s.evict dom line).cores = s.cores := by
  unfold State.evict
  split <;> rfl

@[simp] theorem State.dropCopy_cores (s : State) (dom pa n : Nat) : (s.dropCopy dom pa n).cores = s.cores := by
  unfold State.dropCopy
  generalize s.lines.filter _ = ls
  induction ls generalizing s with
  | nil => rfl
  | cons l r ih => exact (ih _).trans (s.evict_cores dom l.line)

@[simp] theorem State.markStale_mem (s : State) (pa n : Nat) : (s.markStale pa n).mem = s.mem := by
  unfold State.markStale
  split <;> rfl

@[simp] theorem State.markStale_cores (s : State) (pa n : Nat) : (s.markStale pa n).cores = s.cores := by
  unfold State.markStale
  split <;> rfl

/-- With no core's write under way there is nothing to expose. -/
theorem State.expose_of_no_buf {s : State} (h : ∀ c, c ∈ s.cores → c.2.buf = []) (c die dom pa n : Nat) (own : Bool) :
    s.expose c die dom pa n own = s := by
  have none : (s.cores.filter fun p => !p.2.buf.isEmpty) = [] :=
    List.filter_eq_nil_iff.2 fun p hp => by simp [h p hp]
  simp [State.expose, none]

theorem State.exposed_of_no_buf {s : State} (h : ∀ c, c ∈ s.cores → c.2.buf = []) (c die dom pa n : Nat) (own : Bool) :
    s.exposed c die dom pa n own = true :=
  List.all_eq_true.2 fun p hp => by simp [h p hp]

/-- The state in which memory and the pod's copy take such a write. -/
def State.paPut (s : State) (pa : Nat) (bs : List Byte) : State :=
  let t := (s.dropCopy 2 pa bs.length).dropCopy 3 pa bs.length
  { t with mem := t.mem.wrBytes pa bs }.markStale pa bs.length

theorem State.cpApply_of_clear {s : State} {w : CpWrite} (hphys : w.phys = true) (hdir : s.dir = []) (hsnoop : s.snoop = [])
    (hbuf : ∀ c, c ∈ s.cores → c.2.buf = []) (hhold : s.routePa (88 + w.die) w.pa ≠ .hold)
    (hnone : s.routePa (88 + w.die) w.pa ≠ .none) (hsound : s.isPoisoned w.pa w.bytes.length w.die = false) :
    s.cpApply w = .ok () (s.paPut w.pa w.bytes) := by
  have lineFree : s.lineBlocks w.pa w.bytes.length true = false := by simp [State.lineBlocks, hsnoop]
  simp [State.cpApply, hhold, hnone, hsound, hdir, State.cpRecall, Try.bind, lineFree, State.expose_of_no_buf hbuf,
    State.exposed_of_no_buf hbuf, hphys, State.paPut]

/-- The physical write that the CP with the token sends, and the state in which it is the only one to be performed. -/
def State.paWrite (s : State) (pa : Nat) (bs : List Byte) : CpWrite :=
  { die := s.cpOf 2, dom := 2, pa := pa, bytes := bs, phys := true, tag := vget s.cp.tags 0 (s.cpOf 2)
    gen := tabGet 0 s.cp.gens (4096 * s.cpOf 2 + vget s.cp.tags 0 (s.cpOf 2)), at_ := none }

def State.paQueued (s : State) (pa : Nat) (bs : List Byte) : State :=
  { s with cp := { s.cp with
    wq := [s.paWrite pa bs], tags := vset s.cp.tags (s.cpOf 2) (((s.paWrite pa bs).tag + 1) % 4096) } }

theorem State.paWr_eq {s : State} (hwq : s.cp.wq = []) (pa : Nat) (bs : List Byte) :
    s.paWr pa bs = (s.paQueued pa bs).cpDrain := by
  simp [State.paWr, State.cpSend, State.paQueued, State.paWrite, hwq]

/-- Memory holds the bytes at once, and no core notices. -/
theorem State.paWr_of_clear {s : State} {pa : Nat} {bs : List Byte} (h : s.PaClear pa bs.length) :
    (∀ j, j < bs.length → (s.paWr pa bs).mem.rd (pa + j) = bs.getD j 0) ∧ (s.paWr pa bs).cores = s.cores := by
  obtain ⟨hwq, hdir, hsnoop, hbuf, hhold, hnone, hsound⟩ := h
  have applied : (s.paQueued pa bs).cpApply (s.paWrite pa bs) = .ok () ((s.paQueued pa bs).paPut pa bs) :=
    State.cpApply_of_clear (w := s.paWrite pa bs) rfl hdir hsnoop hbuf hhold hnone hsound
  have done : s.paWr pa bs =
      { (s.paQueued pa bs).paPut pa bs with cp := { ((s.paQueued pa bs).paPut pa bs).cp with wq := [] } } := by
    rw [State.paWr_eq hwq, State.cpDrain]
    show cpDrainN 1 (s.paQueued pa bs) = _
    simp [cpDrainN, show (s.paQueued pa bs).cp.wq = [s.paWrite pa bs] from rfl,
      show (s.paWrite pa bs).at_ = none from rfl, applied]
  rw [done]
  exact ⟨fun j hj => by simp [State.paPut, Memory.rd_wrBytes, hj], by simp [State.paPut, State.paQueued]⟩

end Sys2Proof.Machine

/-! SUPPORT. Laws of the host's register writes: which operation stands at an offset of BAR0 (R14), what a change of a launch
queue, of a port or of the wiring leaves of the others (R286, R345, R350). -/

namespace Sys2Proof.Machine

/-! ## The meanings of these events -/

theorem exec_registerWrite_eq (off : Nat) (v : Word) (s : State) :
    exec (.registerWrite off v) s = execRegisterWrite off v s := rfl
theorem exec_qtail_eq (q : Nat) (v : Word) (s : State) : exec (.qtail q v) s = execQtail q v s := rfl
theorem exec_fdomf_eq (k : Nat) (v : Word) (s : State) : exec (.fdomf k v) s = execFdomf k v s := rfl
theorem exec_mbxStat_eq (v : Word) (s : State) : exec (.mbxStat v) s = execMbxStat v s := rfl
theorem exec_clear_eq (s : State) : exec .clear s = execClear s := rfl
theorem exec_pclr_eq (d : Nat) (s : State) : exec (.pclr d) s = execPclr d s := rfl
theorem exec_clr_eq (d : Nat) (s : State) : exec (.clr d) s = execClr d s := rfl
theorem exec_fabId_eq (v : Word) (s : State) : exec (.fabId v) s = execFabId v s := rfl
theorem exec_en_eq (n : Nat) (on : Bool) (s : State) : exec (.en n on) s = execEn n on s := rfl
theorem exec_reconf_eq (n : Nat) (s : State) : exec (.reconf n) s = execReconf n s := rfl
theorem exec_relock_eq (n : Nat) (s : State) : exec (.relock n) s = execRelock n s := rfl
theorem exec_tokenMove_eq (s : State) : exec .tokenMove s = execTokenMove s := rfl
theorem exec_tokenOffer_eq (s : State) :
    exec .tokenOffer s = s.tokenStep 0 fun t f => { f with tokenMsg := some (1, t) } := rfl
theorem exec_tokenAccept_eq (s : State) :
    exec .tokenAccept s = s.tokenStep 1 fun t f => { f with token := none, tokenMsg := some (2, t) } := rfl
theorem exec_tokenCommit_eq (s : State) :
    exec .tokenCommit s = s.tokenStep 2 fun t f => { f with token := some t, tokenMsg := none } := rfl

/-! ## Launch queues -/

/-- A change that keeps a queue's number changes what that number finds, and no other. -/
theorem State.lq?_updLq (s : State) (q : Nat) (f : LaunchQ → LaunchQ) (hf : ∀ x, (f x).num = x.num) (p : Nat) :
    (s.updLq q f).lq? p = if p = q then (s.lq? p).map f else s.lq? p := by
  simp only [State.updLq, State.lq?]
  induction s.cp.lqs with
  | nil => simp [listUpd1]
  | cons x r ih =>
    by_cases hx : x.num = q
    · subst hx
      by_cases hp : p = x.num
      · subst hp; simp [listUpd1, hf]
      · simp [listUpd1, hf, hp, Ne.symm hp]
    · simp only [listUpd1, beq_iff_eq, hx, if_false, List.find?_cons]
      cases hp : x.num == p with
      | false => exact ih
      | true => rw [if_neg fun e => hx ((beq_iff_eq.1 hp).trans e)]

theorem State.lq?_of_performs {s t : State} (h : s.Performs t) (q : Nat) : t.lq? q = s.lq? q := by
  simp [State.lq?, h.lqs]

/-- A queue's tail is set. -/
def State.tailed (s : State) (q : Nat) (v : Word) : State := s.updLq q fun x => { x with tail := v.toNat }

theorem State.lq?_tailed (s : State) (q : Nat) (v : Word) (p : Nat) : (s.tailed q v).lq? p =
    if p = q then (s.lq? p).map fun x => { x with tail := v.toNat } else s.lq? p :=
  s.lq?_updLq q (fun x => { x with tail := v.toNat }) (fun _ => rfl) p

/-! ## Ports -/

theorem tabSet_tabSet_same {α : Type} (l : List (Nat × α)) (n : Nat) (v w : α) :
    tabSet (tabSet l n v) n w = tabSet l n w := by
  induction l with
  | nil => simp [tabSet]
  | cons x r ih =>
    obtain ⟨k, y⟩ := x
    by_cases hk : k = n
    · simp [tabSet, hk]
    · by_cases hlt : n < k
      · simp [tabSet, hk, hlt]
      · simp [tabSet, hk, hlt, ih]

/-- A port of its own stands under its own number, and is the port of an existing number. -/
theorem State.portOwn_iff (s : State) (n : Nat) : s.portOwn n = true ↔ n < 95 ∧ s.portNo n = n := by
  simp [State.portOwn]

/-- The ports whose bond decides under which number port `n` stands have lower numbers. -/
theorem State.portNo_setPort_own {s : State} {n : Nat} (h : s.portNo n = n) (p : Port) : (s.setPort n p).portNo n = n := by
  have below : tabGet Port.reset (tabSet s.fab.ports n p) (n - 1) = tabGet Port.reset s.fab.ports (n - 1) ∨ n % 2 = 0 := by
    rcases Nat.eq_zero_or_pos n with rfl | hn
    · exact .inr rfl
    · exact .inl (tabGet_tabSet_ne _ _ _ (by omega))
  have old := h
  unfold State.portNo at h ⊢
  simp only [State.setPort, old]
  rcases below with below | even
  · rw [below]; exact h
  · rw [if_neg (by omega)]

theorem State.portOwn_setPort {s : State} {n : Nat} (h : s.portOwn n = true) (p : Port) :
    (s.setPort n p).portOwn n = true := by
  obtain ⟨hn, hno⟩ := (s.portOwn_iff n).1 h
  exact (State.portOwn_iff _ n).2 ⟨hn, State.portNo_setPort_own hno p⟩

theorem State.setPort_own {s : State} {n : Nat} (h : s.portOwn n = true) (p : Port) :
    s.setPort n p = { s with fab := { s.fab with ports := tabSet s.fab.ports n p } } := by
  unfold State.setPort
  rw [((s.portOwn_iff n).1 h).2]

theorem State.port_setPort_own {s : State} {n : Nat} (h : s.portOwn n = true) (p : Port) : (s.setPort n p).port n = p := by
  have hno := ((s.portOwn_iff n).1 h).2
  rw [State.port, State.portNo_setPort_own hno, State.setPort_own h]
  exact tabGet_tabSet_same ..

theorem State.setPort_setPort_own {s : State} {n : Nat} (h : s.portOwn n = true) (p q : Port) :
    (s.setPort n p).setPort n q = s.setPort n q := by
  rw [State.setPort_own (State.portOwn_setPort h p), State.setPort_own h p, State.setPort_own h q]
  simp only [tabSet_tabSet_same]

/-! ## The wiring of the local ports (R345) -/

/-- Port E`q` is wired to its peer in the group of device `d`. -/
def State.wire (d : Nat) (s : State) (q : Nat) : State :=
  s.setPort (64 + q)
    { s.port (64 + q) with peerDev := d / 32 * 32 + (d % 32 + q + 1) % 32, peerPort := 64 + (30 - q), peerV := true }

theorem State.portNo_of_ge {s : State} {n : Nat} (h : 64 ≤ n) : s.portNo n = n := by
  unfold State.portNo
  rw [if_neg (by omega)]

theorem State.wire_ports (d : Nat) (s : State) (q : Nat) :
    (s.wire d q).fab.ports = tabSet s.fab.ports (64 + q)
      { s.port (64 + q) with peerDev := d / 32 * 32 + (d % 32 + q + 1) % 32, peerPort := 64 + (30 - q), peerV := true } := by
  simp [State.wire, State.setPort, State.portNo_of_ge (Nat.le_add_right 64 q)]

/-- Wiring changes nothing but the ports. -/
theorem State.wires_frame (d : Nat) (l : List Nat) (s : State) :
    { l.foldl (State.wire d) s with fab := { (l.foldl (State.wire d) s).fab with ports := s.fab.ports } } = s := by
  induction l generalizing s with
  | nil => rfl
  | cons q r ih =>
    exact congrArg (fun x : State => { x with fab := { x.fab with ports := s.fab.ports } }) (ih (s.wire d q))

/-- The entries of the table of ports once the first `k` local ports are wired. -/
theorem State.tabGet_wires (d : Nat) (s : State) (p : Port) (k n : Nat) :
    tabGet p ((List.range k).foldl (State.wire d) s).fab.ports n =
      if 64 ≤ n ∧ n < 64 + k then
        { s.port n with peerDev := d / 32 * 32 + (d % 32 + (n - 64) + 1) % 32, peerPort := 64 + (30 - (n - 64)), peerV := true }
      else tabGet p s.fab.ports n := by
  induction k generalizing p n with
  | zero => rw [if_neg (by omega)]; rfl
  | succ k ih =>
    rw [List.range_succ, List.foldl_append, List.foldl_cons, List.foldl_nil, State.wire_ports]
    by_cases hn : n = 64 + k
    · subst hn
      have unwired : ((List.range k).foldl (State.wire d) s).port (64 + k) = s.port (64 + k) := by
        simp only [State.port, State.portNo_of_ge (Nat.le_add_right 64 k), ih]
        rw [if_neg (by omega)]
      rw [tabGet_tabSet_same, if_pos (by omega), unwired, Nat.add_sub_cancel_left]
    · rw [tabGet_tabSet_ne _ _ _ hn, ih]
      exact if_congr (by omega) rfl rfl

theorem State.port_wires_local (d : Nat) (s : State) {k q : Nat} (h : q < k) :
    ((List.range k).foldl (State.wire d) s).port (64 + q) =
      { s.port (64 + q) with peerDev := d / 32 * 32 + (d % 32 + q + 1) % 32, peerPort := 64 + (30 - q), peerV := true } := by
  conv_lhs => unfold State.port
  rw [State.portNo_of_ge (Nat.le_add_right 64 q), State.tabGet_wires, if_pos (by omega), Nat.add_sub_cancel_left]

theorem State.port_wires_global (d : Nat) (s : State) (k : Nat) {n : Nat} (h : n < 64) :
    ((List.range k).foldl (State.wire d) s).port n = s.port n := by
  have bond : tabGet Port.reset ((List.range k).foldl (State.wire d) s).fab.ports (n - 1) =
      tabGet Port.reset s.fab.ports (n - 1) := by
    rw [State.tabGet_wires, if_neg (by omega)]
  have same : ((List.range k).foldl (State.wire d) s).portNo n = s.portNo n := by
    simp only [State.portNo, bond]
  have low : s.portNo n < 64 := by
    unfold State.portNo
    split <;> omega
  unfold State.port
  rw [same, State.tabGet_wires, if_neg (by omega)]

/-- The device takes an identity, and its first `k` local ports are wired by it. -/
def State.named (s : State) (d : Nat) (valid : Bool) : State := { s with fab := { s.fab with fabId := d, fabV := valid } }

def State.rewired (s : State) (d : Nat) (valid : Bool) (k : Nat) : State :=
  (List.range k).foldl (State.wire d) (s.named d valid)

theorem execFabId_eq (v : Word) (s : State) : execFabId v s = .next (s.rewired (fld v 0 14) (fld v 14 1 == 1) 31) := rfl

section
variable (s : State) (d : Nat) (valid : Bool) (k : Nat)

theorem State.rewired_fabId : (s.rewired d valid k).fab.fabId = d :=
  congrArg (fun x : State => x.fab.fabId) (State.wires_frame d (List.range k) (s.named d valid))

theorem State.rewired_fabV : (s.rewired d valid k).fab.fabV = valid :=
  congrArg (fun x : State => x.fab.fabV) (State.wires_frame d (List.range k) (s.named d valid))

theorem State.rewired_frame :
    { s.rewired d valid k with
      fab := { (s.rewired d valid k).fab with ports := s.fab.ports, fabId := s.fab.fabId, fabV := s.fab.fabV } } = s :=
  congrArg (fun x : State => { x with fab := { x.fab with fabId := s.fab.fabId, fabV := s.fab.fabV } })
    (State.wires_frame d (List.range k) (s.named d valid))

theorem State.port_rewired_local {q : Nat} (h : q < k) : (s.rewired d valid k).port (64 + q) =
    { s.port (64 + q) with peerDev := d / 32 * 32 + (d % 32 + q + 1) % 32, peerPort := 64 + (30 - q), peerV := true } :=
  State.port_wires_local d _ h

theorem State.port_rewired_global {n : Nat} (h : n < 64) : (s.rewired d valid k).port n = s.port n :=
  State.port_wires_global d _ k h

end

/-! ## Offsets of BAR0 (R14) -/

section
variable {s : State} (hcut : s.hostCut = false) {off : Nat} (v : Word)
include hcut

theorem registerWrite_low (h8 : off % 8 = 0) (h : off < 0x1000) : exec (.registerWrite off v) s = writeLow off v s := by
  rw [exec_registerWrite_eq]
  simp [execRegisterWrite, hcut, h8, h]

theorem registerWrite_data {k : Nat} (hk : k < 512) : exec (.registerWrite (0x1000 + 8 * k) v) s =
    .next { s with dev := { s.dev with data := s.dev.data.wrBytes (8 * k) (le8 v.toNat) } } := by
  rw [exec_registerWrite_eq]
  have h8 : (0x1000 + 8 * k) % 8 = 0 := by omega
  have hlt : 0x1000 + 8 * k < 0x2000 := by omega
  simp [execRegisterWrite, hcut, h8, hlt]

theorem registerWrite_qtail {q : Nat} (hq : q < 64) :
    exec (.registerWrite (0x2000 + 8 * q) v) s = exec (.qtail q v) s := by
  rw [exec_registerWrite_eq, exec_qtail_eq]
  have h8 : (0x2000 + 8 * q) % 8 = 0 := by omega
  have hlow : ¬ 0x2000 + 8 * q < 0x1000 := by omega
  have hdata : ¬ 0x2000 + 8 * q < 0x2000 := by omega
  have hlt : 0x2000 + 8 * q < 0x2200 := by omega
  simp [execRegisterWrite, hcut, h8, hlow, hlt]

theorem registerWrite_mon {d r : Nat} (hd : d < 21) (hr : r < 0x20) (h8 : r % 8 = 0) (h : off = 0x3000 + 0x20 * d + r) :
    exec (.registerWrite off v) s = writeMon d r v s := by
  rw [exec_registerWrite_eq]
  have hdie : (off - 0x3000) / 0x20 = d := by omega
  have hreg : off % 0x20 = r := by omega
  unfold execRegisterWrite
  rw [if_neg (by simp [hcut]; omega), if_neg (by omega), if_neg (by omega), if_neg (by omega), if_pos (by omega), hdie, hreg]

theorem registerWrite_high (h8 : off % 8 = 0) (hlo : 0x3600 ≤ off) (hhi : off < 0x4000) :
    exec (.registerWrite off v) s = writeHigh off v s := by
  rw [exec_registerWrite_eq, execRegisterWrite]
  rw [if_neg (by simp [hcut]; omega), if_neg (by omega), if_neg (by omega), if_neg (by omega), if_neg (by omega),
    if_pos (by omega)]

theorem registerWrite_port {n r : Nat} (hn : n < 95) (hr : r < 0x40) (h8 : r % 8 = 0) (h : off = 0x4000 + 0x40 * n + r) :
    exec (.registerWrite off v) s = writePort n r v s := by
  rw [exec_registerWrite_eq]
  have hport : (off - 0x4000) / 0x40 = n := by omega
  have hreg : off % 0x40 = r := by omega
  unfold execRegisterWrite
  rw [if_neg (by simp [hcut]; omega), if_neg (by omega), if_neg (by omega), if_neg (by omega), if_neg (by omega),
    if_neg (by omega), if_pos (by omega), hport, hreg]

theorem registerWrite_eth {x r : Nat} (hx : x < 2) (hr : r < 0x40) (h8 : r % 8 = 0) (h : off = 0x5800 + 0x40 * x + r) :
    exec (.registerWrite off v) s = writeEth x r v s := by
  rw [exec_registerWrite_eq]
  have hport : (off - 0x5800) / 0x40 = x := by omega
  have hreg : off % 0x40 = r := by omega
  unfold execRegisterWrite
  rw [if_neg (by simp [hcut]; omega), if_neg (by omega), if_neg (by omega), if_neg (by omega), if_neg (by omega),
    if_neg (by omega), if_neg (by omega), if_pos (by omega), hport, hreg]

/-- No register stands there. -/
theorem registerWrite_unlisted (h : off % 8 ≠ 0 ∨ 0x5880 ≤ off ∨ (0x2200 ≤ off ∧ off < 0x3000)) :
    exec (.registerWrite off v) s = .next s := by
  rw [exec_registerWrite_eq, execRegisterWrite]
  by_cases h8 : off % 8 = 0
  · rw [if_neg (by simp [hcut, h8]), if_neg (by omega), if_neg (by omega), if_neg (by omega), if_neg (by omega),
      if_neg (by omega), if_neg (by omega), if_neg (by omega)]
  · rw [if_pos (by simp [h8])]

end

/-! ## The command register (Table 18-8) -/

/-- The operation code of a mailbox command. -/
def MbxCmd.opcode : MbxCmd → Nat
  | .init => 1
  | .create => 2
  | .destroy => 3
  | .qopen => 4
  | .qclose => 5
  | .shoot => 6
  | .memwr => 7
  | .memrd => 8
  | .attest => 9
  | .recChunk => 10
  | .recBoot => 11
  | .enetq => 12

theorem opcode_of_listed : ∀ x ∈ [(1, MbxCmd.init), (2, .create), (3, .destroy), (4, .qopen), (5, .qclose), (6, .shoot),
    (7, .memwr), (8, .memrd), (9, .attest), (10, .recChunk), (11, .recBoot), (12, .enetq)], x.1 = x.2.opcode := by
  simp [MbxCmd.opcode]

theorem execMbxCmd_opcode (c : MbxCmd) (s : State) : execMbxCmd c.opcode s = exec (commandEvent c) s := by
  cases c <;> rfl

/-! ## EN and PORT_CTL (R338, Table 19-11) -/

/-- A port that is as after reset but for the two limits of a PORT_CTL word. -/
def Port.limited (n : Nat) (v : Word) : Port := { Port.resetOf n with tc0lim := fld v 4 4, darklim := fld v 8 24 }

theorem Port.limited_st (n : Nat) (v : Word) : (Port.limited n v).st = .down := by
  unfold Port.limited Port.resetOf
  split <;> rfl

/-- Such a port is not enabled. -/
theorem Port.limited_off (n : Nat) (v : Word) : { Port.limited n v with en := false } = Port.limited n v := by
  unfold Port.limited Port.resetOf
  split <;> rfl

/-- The fields that PORT_CTL sets at once, with BOND 0. -/
theorem Port.limited_of_fields (n : Nat) {v : Word} (hbond : fld v 1 1 = 0) :
    { Port.resetOf n with
      bond := decide (n < 64) && n % 2 == 0 && fld v 1 1 == 1, tc0lim := fld v 4 4, darklim := fld v 8 24 } =
      Port.limited n v := by
  rw [hbond, show ((0 : Nat) == 1) = false from rfl, Bool.and_false]
  unfold Port.limited Port.resetOf
  split <;> rfl

section
variable {s : State} {n : Nat} (hown : s.portOwn n = true)
include hown

theorem execEn_true : execEn n true s = .next (s.setPort n { s.port n with en := true }) := by
  simp [execEn, hown]

theorem execEn_false_down (h : (s.port n).st = .down) :
    execEn n false s = .next (s.setPort n { s.port n with en := false }) := by
  simp [execEn, hown, State.port_setPort_own, h]

theorem execEn_false_up (h : (s.port n).st ≠ .down) :
    execEn n false s = .next ((s.setPort n { s.port n with en := false, reconf := false }).toDown n) := by
  simp [execEn, hown, State.port_setPort_own, State.setPort_setPort_own, h]

/-- With EN, BOND, RECONF and RELOCK 0, a port that nothing has touched since reset takes the two limits. -/
theorem writePortCtl_of_reset {v : Word} (hreset : s.port n = .resetOf n) (hv : fld v 0 4 = 0) :
    writePortCtl n v s = .next (s.setPort n (.limited n v)) := by
  have bits : fld v 0 1 = 0 ∧ fld v 1 1 = 0 ∧ fld v 2 1 = 0 ∧ fld v 3 1 = 0 := by
    simp only [fld, bitsOf] at hv ⊢; omega
  obtain ⟨hen, hbond, hreconf, hrelock⟩ := bits
  have off : execEn n false (s.setPort n (.limited n v)) = .next (s.setPort n (.limited n v)) := by
    rw [execEn_false_down (State.portOwn_setPort hown _) (by rw [State.port_setPort_own hown]; exact Port.limited_st n v),
      State.port_setPort_own hown, State.setPort_setPort_own hown, Port.limited_off]
  unfold writePortCtl
  rw [hown, hreset]
  dsimp only
  rw [Port.limited_of_fields n hbond, ← State.setPort_own hown, hen, hreconf, hrelock]
  exact congrArg (fun r => andThen r fun t => andThen (.next t) fun t => .next t) off

end

end Sys2Proof.Machine

/-! SUPPORT. The host's register writes and the registers that act (Table 18-7, Table 19-11, Table 21-3). -/

namespace Sys2Proof.Machine

/-! ## A host that is cut off (R348) -/

theorem exec_hostCut {s : State} (h : s.hostCut = true) (v : Word) (off q k : Nat) :
    ∀ i ∈ [Instr.registerWrite off v, .qtail q v, .fdomf k v, .mbxStat v, .clear, .pclr k, .clr k], exec i s = .next s := by
  simp only [List.forall_mem_cons, List.not_mem_nil, false_implies, implies_true, and_true]
  refine ⟨?_, ?_, ?_, ?_, ?_, ?_, ?_⟩
  · simp [exec_registerWrite_eq, execRegisterWrite, h]
  · simp [exec_qtail_eq, execQtail, h]
  · simp [exec_fdomf_eq, execFdomf, h]
  · simp [exec_mbxStat_eq, execMbxStat, h]
  · simp [exec_clear_eq, execClear, h]
  · simp [exec_pclr_eq, execPclr, h]
  · simp [exec_clr_eq, execClr, h]

/-! ## What each register write does (Table 18-7, Table 19-11, Table 21-3) -/

section
variable {s : State} (hcut : s.hostCut = false) (v : Word)
include hcut

theorem exec_clear : exec .clear s = .next { s with cp := { s.cp with pred := [], nextw := 0 } } := by
  simp [exec_clear_eq, execClear, hcut]

/-- PRED_CTL: two fields, and CLEAR when its bit is one. -/
theorem writePredCtl_eq : writePredCtl v s =
    .next (if fld v 14 1 = 1 then
      { s with cp := { s.cp with predEn := fld v 0 1 == 1, pdist := fld v 1 13, pred := [], nextw := 0 } }
    else { s with cp := { s.cp with predEn := fld v 0 1 == 1, pdist := fld v 1 13 } }) := by
  unfold writePredCtl
  dsimp only
  split
  · exact exec_clear (s := { s with cp := { s.cp with predEn := fld v 0 1 == 1, pdist := fld v 1 13 } }) hcut
  · rfl

theorem registerWrite_fdomf {k : Nat} (hk : k < 4) : SameAs (.registerWrite (0x10 + 8 * k) v) (.fdomf k v) s := by
  refine (registerWrite_low hcut v (by omega) (by omega)).trans ?_
  have hword : (0x10 + 8 * k - 0x10) / 8 = k := by omega
  unfold writeLow
  rw [if_neg (by omega), if_pos (by omega), hword, exec_fdomf_eq]

theorem registerWrite_arg {k : Nat} (hk : k < 8) : exec (.registerWrite (0x110 + 8 * k) v) s =
    .next { s with dev := { s.dev with arg := vset s.dev.arg k v } } := by
  refine (registerWrite_low hcut v (by omega) (by omega)).trans ?_
  have hword : (0x110 + 8 * k - 0x110) / 8 = k := by omega
  unfold writeLow
  rw [if_neg (by omega), if_neg (by omega), if_neg (by omega), if_neg (by omega), if_neg (by omega), if_neg (by omega),
    if_pos (by omega), hword]

theorem registerWrite_cmd (c : MbxCmd) (h : fld v 0 8 = c.opcode) :
    SameAs (.registerWrite 0x100 v) (commandEvent c) s := by
  refine (registerWrite_low hcut v rfl (by omega)).trans ?_
  rw [← execMbxCmd_opcode, ← h]
  rfl

/-- PCLR and CLR of a die's monitor stand at their bits of two registers. -/
theorem registerWrite_mons {d : Nat} (hd : d < 21) :
    exec (.registerWrite (0x3000 + 0x20 * d) v) s = (if fld v 20 1 = 1 then exec (.pclr d) s else .next s)
      ∧ exec (.registerWrite (0x3008 + 0x20 * d) v) s = (if fld v 40 1 = 1 then exec (.clr d) s else .next s) := by
  rw [registerWrite_mon hcut v hd (r := 0) (by omega) rfl (by omega),
    registerWrite_mon hcut v hd (r := 8) (by omega) rfl (by omega)]
  constructor
  · simp [writeMon, exec_pclr_eq]
  · simp [writeMon, exec_clr_eq]

/-- RT_DATA changes the candidate that RT_SEL selects. -/
theorem registerWrite_route :
    let k := bitsOf s.fab.rtSel.toNat 0 9 * 8 + bitsOf s.fab.rtSel.toNat 9 3
    ∃ t, exec (.registerWrite 0x3818 v) s = .next t ∧ tabGet 0 t.fab.routes k = fld v 0 17
      ∧ (∀ j, j ≠ k → tabGet 0 t.fab.routes j = tabGet 0 s.fab.routes j)
      ∧ { t with fab := { t.fab with routes := s.fab.routes } } = s :=
  ⟨_, registerWrite_high hcut v rfl (by omega) (by omega), tabGet_tabSet_same .., fun _ h => tabGet_tabSet_ne _ _ _ h, rfl⟩

theorem registerWrite_peer {n : Nat} (hn : n < 95) (hown : s.portOwn n = true) :
    exec (.registerWrite (0x4010 + 0x40 * n) v) s = .next (s.setPort n
      { s.port n with peerDev := fld v 0 14, peerPort := fld v 14 7, peerV := fld v 21 1 == 1 }) := by
  rw [registerWrite_port hcut v hn (r := 0x10) (by omega) rfl (by omega)]
  simp [writePort, hown]

theorem registerWrite_ctl {n : Nat} (hn : n < 95) (hown : s.portOwn n = true) (hreset : s.port n = .resetOf n)
    (hv : fld v 0 4 = 0) : exec (.registerWrite (0x4008 + 0x40 * n) v) s = .next (s.setPort n
      { Port.resetOf n with tc0lim := fld v 4 4, darklim := fld v 8 24 }) :=
  (registerWrite_port hcut v hn (r := 0x08) (by omega) rfl (by omega)).trans (writePortCtl_of_reset hown hreset hv)

theorem registerWrite_mac {x : Nat} (hx : x < 2) : exec (.registerWrite (0x5810 + 0x40 * x) v) s =
    .next (s.updEth x fun p => { p with mac := BitVec.ofNat 48 (fld v 0 48) }) :=
  registerWrite_eth hcut v hx (r := 0x10) (by omega) rfl (by omega)

theorem registerWrite_ethCtl {x : Nat} (hx : x < 2) (hen : fld v 0 1 = 1) : exec (.registerWrite (0x5808 + 0x40 * x) v) s =
    .next (s.updEth x fun p => { p with en := true, pfcen := BitVec.ofNat 8 (fld v 1 8) }) := by
  rw [registerWrite_eth hcut v hx (r := 0x08) (by omega) rfl (by omega)]
  simp [writeEth, hen]

/-- Below 0x1000 and from 0x3600 on, the register at a given offset is found by evaluation. -/
theorem registerWrites : RegisterWrites s v := by
  refine ⟨fun k hk => registerWrite_fdomf hcut v hk, registerWrite_low hcut v rfl (by omega), ?predCtl,
    registerWrite_low hcut v rfl (by omega), ?cmd, registerWrite_low hcut v rfl (by omega),
    fun k hk => registerWrite_arg hcut v hk, fun k hk => registerWrite_data hcut v hk,
    fun q hq => registerWrite_qtail hcut v hq, fun d hd => registerWrite_mons hcut v hd,
    registerWrite_high hcut v rfl (by omega) (by omega), registerWrite_high hcut v rfl (by omega) (by omega),
    registerWrite_high hcut v rfl (by omega) (by omega), registerWrite_high hcut v rfl (by omega) (by omega),
    registerWrite_high hcut v rfl (by omega) (by omega), registerWrite_high hcut v rfl (by omega) (by omega),
    registerWrite_route hcut v, fun n hn hown => registerWrite_peer hcut v hn hown,
    fun n hn hown hreset hv => registerWrite_ctl hcut v hn hown hreset hv, fun x hx => registerWrite_mac hcut v hx,
    fun x hx hen => registerWrite_ethCtl hcut v hx hen, fun off h => registerWrite_unlisted hcut v h⟩
  case predCtl => exact (registerWrite_low hcut v rfl (by omega)).trans (writePredCtl_eq hcut v)
  case cmd =>
    intro c op hc hop
    exact registerWrite_cmd hcut v c (hop.trans (opcode_of_listed (op, c) hc))

/-! ## Registers that act at once -/

theorem exec_qtail {q : Nat} {x : LaunchQ} (hx : s.lq? q = some x) :
    ∃ t, exec (.qtail q v) s = .next t ∧ t.lq? q = some { x with tail := v.toNat }
      ∧ (∀ p, p ≠ q → t.lq? p = s.lq? p) ∧ t.dev = s.dev
      ∧ (s.cp.wq = [] → s.dir = [] → s.snoop = [] → (∀ c, c ∈ s.cores → c.2.buf = []) →
          s.routePa (88 + s.cpOf 2) (x.pa + 0x18) ≠ .hold → s.routePa (88 + s.cpOf 2) (x.pa + 0x18) ≠ .none →
          s.isPoisoned (x.pa + 0x18) 8 (s.cpOf 2) = false →
          (∀ j, j < 8 → t.mem.rd (x.pa + 0x18 + j) = (le8 v.toNat).getD j 0) ∧ t.cores = s.cores) := by
  have written : (s.tailed q v).Performs ((s.tailed q v).paWr (x.pa + 0x18) (le8 v.toNat)) := State.paWr_performs ..
  refine ⟨(s.tailed q v).paWr (x.pa + 0x18) (le8 v.toNat), ?_, ?_, ?_, written.dev, ?_⟩
  · simp [exec_qtail_eq, execQtail, hcut, hx, State.tailed]
  · rw [State.lq?_of_performs written, State.lq?_tailed, if_pos rfl, hx]; rfl
  · intro p hp
    rw [State.lq?_of_performs written, State.lq?_tailed, if_neg hp]
  · intro hwq hdir hsnoop hbuf hhold hnone hsound
    exact State.paWr_of_clear (bs := le8 v.toNat) ⟨hwq, hdir, hsnoop, hbuf, hhold, hnone, hsound⟩

theorem exec_qtail_none {q : Nat} (hq : s.lq? q = none) : exec (.qtail q v) s = .next s := by
  simp [exec_qtail_eq, execQtail, hcut, hq]

theorem exec_fdomf {k : Nat} (hk : k < 4) :
    ∃ t, exec (.fdomf k v) s = .next t ∧ vget t.dev.fdomf 0 k = vget s.dev.fdomf 0 k &&& ~~~v
      ∧ (∀ j, j ≠ k → vget t.dev.fdomf 0 j = vget s.dev.fdomf 0 j)
      ∧ { t with dev := { t.dev with fdomf := s.dev.fdomf } } = s := by
  refine ⟨{ s with dev := { s.dev with fdomf := vset s.dev.fdomf k (vget s.dev.fdomf 0 k &&& ~~~v) } }, ?_,
    vget_vset_same _ _ _ hk, fun _ hj => vget_vset_ne _ _ _ hj, rfl⟩
  simp [exec_fdomf_eq, execFdomf, hcut]

theorem exec_mbxStat :
    exec (.mbxStat v) s = .next { s with dev := { s.dev with ovr := if v.getLsbD 1 then false else s.dev.ovr } } := by
  have ovr : (s.dev.ovr && !v.getLsbD 1) = if v.getLsbD 1 then false else s.dev.ovr := by
    cases v.getLsbD 1 <;> simp
  rw [exec_mbxStat_eq, execMbxStat, hcut, ovr]
  rfl

theorem exec_pclr_clr {d : Nat} (hd : d < 21) :
    ∃ t u, OnlyFab (.pclr d) s t (fun f => { f with mons := s.fab.mons })
      ∧ t.mon d = { s.mon d with tpeak := (s.mon d).temp } ∧ (∀ e, e ≠ d → t.mon e = s.mon e)
      ∧ OnlyFab (.clr d) s u (fun f => { f with mons := s.fab.mons })
      ∧ u.mon d = { s.mon d with vmin := 0xFFF, droops := 0 } ∧ (∀ e, e ≠ d → u.mon e = s.mon e) := by
  refine ⟨s.updMon d fun m => { m with tpeak := m.temp }, s.updMon d fun m => { m with vmin := 0xFFF, droops := 0 },
    ⟨?_, rfl⟩, tabGet_tabSet_same .., fun _ he => tabGet_tabSet_ne _ _ _ he,
    ⟨?_, rfl⟩, tabGet_tabSet_same .., fun _ he => tabGet_tabSet_ne _ _ _ he⟩
  · simp [exec_pclr_eq, execPclr, hcut, hd]
  · simp [exec_clr_eq, execClr, hcut, hd]

end

/-! ## The fabric's registers (R338, R339, R345, R347) -/

theorem exec_fabId (s : State) (v : Word) :
    ∃ t, OnlyFab (.fabId v) s t (fun f => { f with ports := s.fab.ports, fabId := s.fab.fabId, fabV := s.fab.fabV })
      ∧ t.fab.fabId = fld v 0 14 ∧ t.fab.fabV = (fld v 14 1 == 1) ∧ (∀ n, n < 64 → t.port n = s.port n)
      ∧ ∀ q, q < 31 → t.port (64 + q) = { s.port (64 + q) with
          peerDev := fld v 0 14 / 32 * 32 + (fld v 0 14 % 32 + q + 1) % 32, peerPort := 64 + (30 - q), peerV := true } := by
  simp only [OnlyFab, exec_fabId_eq, execFabId_eq]
  exact ⟨_, ⟨rfl, State.rewired_frame ..⟩, State.rewired_fabId .., State.rewired_fabV ..,
    fun n hn => State.port_rewired_global _ _ _ _ hn, fun q hq => State.port_rewired_local _ _ _ _ hq⟩

theorem exec_port_absent {s : State} {n : Nat} (h : s.portOwn n = false) :
    exec (.en n true) s = .next s ∧ exec (.en n false) s = .next s ∧ exec (.reconf n) s = .next s
      ∧ exec (.relock n) s = .next s := by
  refine ⟨?_, ?_, ?_, ?_⟩
  · simp [exec_en_eq, execEn, h]
  · simp [exec_en_eq, execEn, h]
  · simp [exec_reconf_eq, execReconf, h]
  · simp [exec_relock_eq, execRelock, h]

section
variable {s : State} {n : Nat} (hown : s.portOwn n = true)
include hown

/-- RECONF starts a drain, waits for the end of TRAIN, or does nothing. -/
theorem exec_reconf :
    ((s.port n).st = .active ∨ (s.port n).st = .degraded → exec (.reconf n) s = .next (s.startDrain n))
      ∧ ((s.port n).st = .train → (s.port n).kept.isSome = true →
          exec (.reconf n) s = .next (s.setPort n { s.port n with reconf := true }))
      ∧ ((s.port n).st ∉ [PortSt.active, .degraded, .train] → exec (.reconf n) s = .next s) := by
  refine ⟨fun h => ?_, fun h hk => ?_, fun h => ?_⟩
  · simp [exec_reconf_eq, execReconf, hown, h]
  · simp [exec_reconf_eq, execReconf, hown, h, hk]
  · simp only [List.mem_cons, List.not_mem_nil, or_false, not_or] at h
    simp [exec_reconf_eq, execReconf, hown, h]

/-- RELOCK gives failed lanes new attempts, and trains a port that has an identity, is enabled and stands still. -/
theorem exec_relock :
    let u := s.setPort n
      { s.port n with lanes := (s.port n).lanes.map fun l => if l.st = .failed then ⟨.train, 0, 0⟩ else l }
    ((s.port n).st ∉ [PortSt.dark, .down, .quarantine] ∨ (s.port n).en = false ∨ s.fab.fabV = false →
        exec (.relock n) s = .next u)
      ∧ ((s.port n).st ∈ [PortSt.dark, .down, .quarantine] → (s.port n).en = true → s.fab.fabV = true →
        exec (.relock n) s = .next (u.toTrain n)) := by
  intro u
  have still : ((s.port n).st == .dark || (s.port n).st == .down || (s.port n).st == .quarantine) =
      decide ((s.port n).st ∈ [PortSt.dark, .down, .quarantine]) := by
    cases (s.port n).st <;> rfl
  have eq : exec (.relock n) s =
      if decide ((s.port n).st ∈ [PortSt.dark, .down, .quarantine]) && (s.port n).en && s.fab.fabV then
        .next (u.toTrain n)
      else .next u := by
    rw [exec_relock_eq, execRelock, hown, ← still]
    rfl
  rw [eq]
  constructor
  · rintro (h | h | h) <;> simp [h]
  · intro hst hen hv
    simp [hst, hen, hv]

end

/-! ## The arbitration token (R349) -/

theorem exec_token_whole {s : State} (hreach : s.dieReach 0 1 = true) (hsplit : s.fab.split = false) :
    (∀ h, s.fab.token = some h → s.fab.tokenMsg = none →
        exec .tokenMove s = .next { s with fab := { s.fab with tokenMsg := some (0, 1 - h) } })
      ∧ (∀ h, s.fab.tokenMsg = some (0, h) → exec .tokenOffer s = .next { s with fab := { s.fab with tokenMsg := some (1, h) } })
      ∧ (∀ h, s.fab.tokenMsg = some (1, h) →
        exec .tokenAccept s = .next { s with fab := { s.fab with token := none, tokenMsg := some (2, h) } })
      ∧ ∀ h, s.fab.tokenMsg = some (2, h) →
        exec .tokenCommit s = .next { s with fab := { s.fab with token := some h, tokenMsg := none } } := by
  have reached : ∀ (k h : Nat) (f : Nat → FabState → FabState), s.fab.tokenMsg = some (k, h) →
      s.tokenStep k f = .next { s with fab := f h s.fab } := fun k h f hm => by simp [State.tokenStep, hm, hreach, hsplit]
  refine ⟨fun h ht hm => ?_, fun h hm => (exec_tokenOffer_eq s).trans (reached 0 h _ hm),
    fun h hm => (exec_tokenAccept_eq s).trans (reached 1 h _ hm), fun h hm => (exec_tokenCommit_eq s).trans (reached 2 h _ hm)⟩
  simp [exec_tokenMove_eq, execTokenMove, ht, hm, hreach, hsplit]

theorem exec_token_split {s : State} (hsplit : s.fab.split = true) :
    ∀ i ∈ [Instr.tokenMove, .tokenOffer, .tokenAccept, .tokenCommit], exec i s = .next s := by
  have lost : ∀ (k : Nat) (f : Nat → FabState → FabState), s.tokenStep k f = .next s := fun k f => by
    unfold State.tokenStep
    split <;> simp [hsplit]
  simp only [List.forall_mem_cons, List.not_mem_nil, false_implies, implies_true, and_true]
  refine ⟨?_, (exec_tokenOffer_eq s).trans (lost 0 _), (exec_tokenAccept_eq s).trans (lost 1 _),
    (exec_tokenCommit_eq s).trans (lost 2 _)⟩
  rw [exec_tokenMove_eq, execTokenMove]
  split <;> simp [hsplit]

/-! ## The two statements -/

/-- Settles O51: each clause is what one register or one event of the host does. -/
theorem hostRegisters : Obligations.HostRegisters := by
  unfold Obligations.HostRegisters
  intro s v
  refine ⟨fun hcut off q k => exec_hostCut hcut v off q k, fun hcut => ⟨registerWrites hcut v, ?_⟩, exec_fabId s v,
    fun n h => exec_port_absent h, fun n hown => ?_, fun hreach hsplit => exec_token_whole hreach hsplit,
    fun hsplit => exec_token_split hsplit⟩
  · exact ⟨fun q x hx => exec_qtail hcut v hx, fun q hq => exec_qtail_none hcut v hq, fun k hk => exec_fdomf hcut v hk,
      exec_mbxStat hcut v, exec_clear hcut, fun d hd => exec_pclr_clr hcut hd⟩
  · obtain ⟨drains, waits, idle⟩ := exec_reconf hown
    rw [exec_en_eq, exec_en_eq]
    exact ⟨execEn_true hown, execEn_false_down hown, execEn_false_up hown, drains, waits, idle, exec_relock hown⟩

/-- A port after reset has the limits of Table 19-11 and is not enabled. -/
theorem Port.resetOf_limits (n : Nat) :
    (Port.resetOf n).tc0lim = 2 ∧ (Port.resetOf n).darklim = 0x16E4 ∧ (Port.resetOf n).en = false := by
  unfold Port.resetOf
  split <;> exact ⟨rfl, rfl, rfl⟩

/-- Settles O59: the reset state is written out field by field, and lists no port. -/
theorem resetMemoryIsCanonical : Obligations.ResetMemoryIsCanonical := by
  unfold Obligations.ResetMemoryIsCanonical
  refine ⟨Memory.wf_empty, rfl, Memory.wf_empty, Memory.wf_empty, rfl, rfl, rfl, rfl, rfl, rfl, rfl, rfl, rfl, rfl, rfl, rfl,
    rfl, rfl, rfl, rfl, rfl, rfl, rfl, rfl, fun n => Port.resetOf_limits _⟩

end Sys2Proof.Machine

/-! SUPPORT. What a decoder yields has a word (R103): no slot and no code section holds an event of the machine. -/

namespace Sys2Proof

/-- A decoder yields only instructions that have a word in some slot or code section (R103). -/
def Dec.Words (d : Dec) : Prop := ∀ i, d = .ok i → (homeSect i).isSome = true

namespace Dec.Words

/-! ## The rules of the fields (R97-R102, R112) -/

theorem ok {i : Instr} (h : (homeSect i).isSome = true) : Words (.ok i) := fun _ e => Except.ok.inj e ▸ h

theorem error (e : DecErr) : Words (.error e) := fun _ h => nomatch h

theorem need (c : Bool) {d : Dec} (h : d.Words) : Words (need c d) := by
  cases c
  · exact error _
  · exact h

theorem needOp (c : Bool) {d : Dec} (h : d.Words) : Words (needOp c d) := by
  cases c
  · exact error _
  · exact h

section
variable (f : Nat)

theorem isrc {k : Src → Dec} (h : ∀ a, (k a).Words) : Words (isrc f k) := by
  unfold Dec.isrc
  split_ifs
  exacts [h _, error _, h _, error _]

theorem fsrc {k : Src → Dec} (h : ∀ a, (k a).Words) : Words (fsrc f k) := by
  unfold Dec.fsrc
  split_ifs
  exacts [h _, error _, h _]

theorem rmode {k : RMode → Dec} (h : ∀ m, (k m).Words) : Words (rmode f k) := by
  unfold Dec.rmode
  split
  case h_6 => exact error _
  all_goals exact h _

theorem scope {k : Scope → Dec} (h : ∀ s, (k s).Words) : Words (scope f k) := by
  unfold Dec.scope
  split
  case h_5 => exact error _
  all_goals exact h _

theorem cond {k : Cond → Dec} (h : ∀ c, (k c).Words) : Words (cond f k) := by
  unfold Dec.cond
  split
  case h_9 => exact error _
  all_goals exact h _

theorem fcond {k : FCond → Dec} (h : ∀ c, (k c).Words) : Words (fcond f k) := by
  unfold Dec.fcond
  split
  case h_9 => exact error _
  all_goals exact h _

theorem trans {k : Trans → Dec} (h : ∀ t, (k t).Words) : Words (trans f k) := by
  unfold Dec.trans
  split
  case h_6 => exact error _
  all_goals exact h _

theorem hv5 {k : BitVec 4 → Dec} (h : ∀ d, (k d).Words) : Words (hv5 f k) := needOp _ (h _)

theorem ba {k : BitVec 2 → Dec} (h : ∀ d, (k d).Words) : Words (ba f k) := needOp _ (h _)

theorem preg {k : BitVec 3 → Dec} (h : ∀ p, (k p).Words) : Words (preg f k) := needOp _ (h _)

end

/-! ## The formats (Table 4-2) -/

section
variable (w : Nat)

theorem r3 {k : BitVec 5 → Src → Src → Instr} (h : ∀ d a b, (homeSect (k d a b)).isSome = true) : Words (r3 w k) :=
  isrc _ fun _ => isrc _ fun _ => ok (h _ _ _)

theorem r3f {k : BitVec 5 → Src → Src → Instr} (h : ∀ d a b, (homeSect (k d a b)).isSome = true) : Words (r3f w k) :=
  fsrc _ fun _ => fsrc _ fun _ => ok (h _ _ _)

theorem r2 {k : BitVec 5 → Src → Instr} (h : ∀ d a, (homeSect (k d a)).isSome = true) : Words (r2 w k) :=
  need _ (isrc _ fun _ => ok (h _ _))

theorem r2f {k : BitVec 5 → Src → Instr} (h : ∀ d a, (homeSect (k d a)).isSome = true) : Words (r2f w k) :=
  need _ (fsrc _ fun _ => ok (h _ _))

theorem rab {k : Src → Src → Instr} (h : ∀ a b, (homeSect (k a b)).isSome = true) : Words (rab w k) :=
  need _ (isrc _ fun _ => isrc _ fun _ => ok (h _ _))

theorem ra {k : Src → Instr} (h : ∀ a, (homeSect (k a)).isSome = true) : Words (ra w k) :=
  need _ (isrc _ fun _ => ok (h _))

theorem r0 {i : Instr} (h : (homeSect i).isSome = true) : Words (r0 w i) := need _ (ok h)

theorem i3 {k : BitVec 5 → Src → BitVec 14 → Instr} (h : ∀ d a v, (homeSect (k d a v)).isSome = true) : Words (i3 w k) :=
  isrc _ fun _ => ok (h _ _ _)

theorem v3 {k : BitVec 4 → BitVec 4 → BitVec 4 → Dec} (h : ∀ d a b, (k d a b).Words) : Words (v3 w k) := need _ (h _ _ _)

theorem v2 {k : BitVec 4 → BitVec 4 → Dec} (h : ∀ d a, (k d a).Words) : Words (v2 w k) := need _ (h _ _)

theorem v3r {k : BitVec 4 → BitVec 4 → BitVec 4 → RMode → Instr} (h : ∀ d a b m, (homeSect (k d a b m)).isSome = true) :
    Words (v3r w k) :=
  rmode _ fun _ => v3 w fun _ _ _ => ok (h _ _ _ _)

theorem v3i {k : BitVec 4 → BitVec 4 → BitVec 4 → BitVec 3 → Instr} (h : ∀ d a b m, (homeSect (k d a b m)).isSome = true) :
    Words (v3i w k) :=
  v3 w fun _ _ _ => ok (h _ _ _ _)

theorem v2r {k : BitVec 4 → BitVec 4 → RMode → Instr} (h : ∀ d a m, (homeSect (k d a m)).isSome = true) : Words (v2r w k) :=
  rmode _ fun _ => v2 w fun _ _ => ok (h _ _ _)

theorem v4r {k : BitVec 4 → BitVec 4 → BitVec 4 → BitVec 4 → RMode → Instr}
    (h : ∀ d a b c m, (homeSect (k d a b c m)).isSome = true) : Words (v4r w k) :=
  rmode _ fun _ => ok (h _ _ _ _ _)

theorem vs3 {k : BitVec 4 → BitVec 4 → Src → Dec} (h : ∀ d a q, (k d a q).Words) : Words (vs3 w k) :=
  need _ (fsrc _ fun _ => h _ _ _)

theorem vs3r {k : BitVec 4 → BitVec 4 → Src → RMode → Instr} (h : ∀ d a q m, (homeSect (k d a q m)).isSome = true) :
    Words (vs3r w k) :=
  rmode _ fun _ => vs3 w fun _ _ _ => ok (h _ _ _ _)

theorem vs3i {k : BitVec 4 → BitVec 4 → Src → BitVec 3 → Instr} (h : ∀ d a q m, (homeSect (k d a q m)).isSome = true) :
    Words (vs3i w k) :=
  vs3 w fun _ _ _ => ok (h _ _ _ _)

theorem xt2 {k : BitVec 3 → Src → Src → Instr} (h : ∀ c a b, (homeSect (k c a b)).isSome = true) : Words (xt2 w k) :=
  need _ (isrc _ fun _ => isrc _ fun _ => ok (h _ _ _))

theorem xt1 {k : BitVec 3 → Src → Instr} (h : ∀ c a, (homeSect (k c a)).isSome = true) : Words (xt1 w k) :=
  need _ (isrc _ fun _ => ok (h _ _))

theorem xts {k : BitVec 3 → Src → Src → Scope → Instr} (h : ∀ c a b s, (homeSect (k c a b s)).isSome = true) :
    Words (xts w k) :=
  scope _ fun _ => isrc _ fun _ => isrc _ fun _ => ok (h _ _ _ _)

/-! ## The S slot (Tables 5-1 to 5-6) -/

theorem decodeInt : Words (decodeInt w) := by
  unfold Sys2Proof.decodeInt
  split
  case h_22 | h_23 => exact r2 w fun _ _ => rfl
  case h_24 => exact need _ (r3 w fun _ _ _ => rfl)
  all_goals exact r3 w fun _ _ _ => rfl

theorem decodeFp : Words (decodeFp w) := rmode _ fun rm => by
  split
  case h_5 | h_6 => exact need _ (r3f w fun _ _ _ => rfl)
  case h_1 | h_2 | h_3 | h_4 => exact r3f w fun _ _ _ => rfl
  case h_8 => exact r2 w fun _ _ => rfl
  case h_7 | h_9 | h_10 | h_11 | h_12 => exact r2f w fun _ _ => rfl
  all_goals exact need _ (r2 w fun _ _ => rfl)

theorem decodeCmp : Words (decodeCmp w) := by
  refine need _ ?_
  split_ifs
  · exact cond _ fun _ => preg _ fun _ => isrc _ fun _ => isrc _ fun _ => ok rfl
  · exact fcond _ fun _ => preg _ fun _ => fsrc _ fun _ => fsrc _ fun _ => ok rfl

theorem decodeAmo : Words (decodeAmo w) := by
  unfold Sys2Proof.decodeAmo
  refine scope _ fun _ => ?_
  split
  case h_2 | h_3 => exact r3 w fun _ _ _ => rfl
  all_goals exact need _ (r3 w fun _ _ _ => rfl)

theorem decodeOrder : Words (decodeOrder w) := by
  unfold Sys2Proof.decodeOrder
  split
  case h_1 | h_2 => exact scope _ fun _ => r0 w rfl
  case h_3 => exact scope _ fun _ => need _ (ok rfl)
  case h_4 => exact scope _ fun _ => r3 w fun _ _ _ => rfl
  case h_5 =>
    split
    case h_4 => exact rab w fun _ _ => rfl
    all_goals exact r3 w fun _ _ _ => rfl
  case h_6 =>
    split
    exacts [r3 w fun _ _ _ => rfl, rab w fun _ _ => rfl, error _]
  case h_7 => exact error _

theorem decodeCont : Words (decodeCont w) := by
  unfold Sys2Proof.decodeCont
  split
  case h_1 | h_2 | h_6 | h_7 => exact ra w fun _ => rfl
  case h_3 | h_4 => exact r0 w rfl
  case h_5 | h_8 => exact r3 w fun _ _ _ => rfl
  case h_9 => exact rab w fun _ _ => rfl
  case h_10 => exact error _

theorem decodeCtl : Words (decodeCtl w) := by
  unfold Sys2Proof.decodeCtl
  split
  case h_1 | h_4 => exact ra w fun _ => rfl
  case h_2 | h_5 => exact r0 w rfl
  case h_3 | h_6 | h_9 => exact rab w fun _ _ => rfl
  case h_7 | h_8 => exact r3 w fun _ _ _ => rfl
  case h_10 => exact error _

theorem swrOf (n : Nat) (a : Src) : (homeSect (swrOf n a)).isSome = true := by
  unfold Sys2Proof.swrOf
  split_ifs <;> rfl

theorem decodeS : Words (decodeS w) := by
  unfold Sys2Proof.decodeS
  split
  case h_2 => exact decodeInt w
  case h_3 => exact decodeFp w
  case h_4 => exact decodeCmp w
  case h_5 => exact decodeAmo w
  case h_6 => exact decodeOrder w
  case h_7 => exact decodeCont w
  case h_8 => exact decodeCtl w
  case h_9 => exact need _ (needOp _ (ok rfl))
  case h_10 => exact need _ (isrc _ fun a => needOp _ (ok (swrOf _ a)))
  case h_12 =>
    refine need _ (isrc _ fun _ => ?_)
    split <;> exact ok rfl
  case h_14 | h_15 | h_16 | h_17 | h_18 => exact i3 w fun _ _ _ => rfl
  case h_19 | h_20 => exact need _ (isrc _ fun _ => ok rfl)
  case h_22 | h_23 | h_24 | h_25 | h_26 | h_27 | h_28 | h_29 => exact preg _ fun _ => isrc _ fun _ => ok rfl
  case h_30 | h_31 | h_32 => exact ok rfl
  case h_36 => exact error _
  all_goals exact need _ (ok rfl)

theorem decodeLong (h : Nat) : Words (decodeLong w h) := by
  unfold Sys2Proof.decodeLong
  dsimp only
  split
  case h_1 => exact need _ (ok rfl)
  case h_2 | h_3 | h_4 | h_5 | h_6 => exact isrc _ fun _ => ok rfl
  case h_15 => exact error _
  all_goals exact preg _ fun _ => isrc _ fun _ => ok rfl

/-! ## The V slot and its section (Tables 5-7 and 5-8) -/

theorem decodeVelt : Words (decodeVelt w) := by
  unfold Sys2Proof.decodeVelt
  split
  case h_1 | h_2 | h_3 | h_5 | h_6 => exact v3r w fun _ _ _ _ => rfl
  case h_4 | h_12 => exact v4r w fun _ _ _ _ _ => rfl
  case h_13 | h_14 => exact v2r w fun _ _ _ => rfl
  case h_15 => exact need _ (cond _ fun _ => v3i w fun _ _ _ _ => rfl)
  all_goals exact v3i w fun _ _ _ _ => rfl

theorem decodeVs : Words (decodeVs w) := by
  unfold Sys2Proof.decodeVs
  split
  case h_1 | h_2 | h_3 | h_4 | h_5 => exact vs3r w fun _ _ _ _ => rfl
  case h_11 => exact need _ (cond _ fun _ => vs3i w fun _ _ _ _ => rfl)
  all_goals exact vs3i w fun _ _ _ _ => rfl

theorem decodeVrest : Words (decodeVrest w) := by
  unfold Sys2Proof.decodeVrest
  split
  case h_1 =>
    split
    case h_2 => exact need _ (v3 w fun _ _ _ => ok rfl)
    case h_3 => exact v3r w fun _ _ _ _ => rfl
    case h_9 => exact error _
    all_goals exact v2r w fun _ _ _ => rfl
  case h_2 =>
    split
    case h_5 => exact error _
    all_goals exact v2r w fun _ _ _ => rfl
  case h_3 =>
    split
    exacts [v2 w fun _ _ => ok rfl, need _ (ok rfl), v2 w fun _ _ => ok rfl, error _]
  case h_4 =>
    refine need _ ?_
    split
    exacts [isrc _ fun _ => ok rfl, rmode _ fun _ => fsrc _ fun _ => ok rfl, fsrc _ fun _ => ok rfl, error _]
  case h_5 => exact trans _ fun _ => v2r w fun _ _ _ => rfl
  case h_6 => exact error _

theorem decodeV (sec : Bool) : Words (decodeV sec w) := by
  unfold Sys2Proof.decodeV
  split
  case h_2 => exact decodeVelt w
  case h_3 => exact decodeVs w
  case h_7 => exact decodeVrest w
  all_goals exact need _ (ok rfl)

/-! ## The X slot and its sections (Table 5-9) -/

theorem decodeXT (sec : Bool) : Words (decodeXT sec w) := by
  refine need _ ?_
  split
  case h_2 =>
    split
    exacts [xt1 w fun _ _ => rfl, xt2 w fun _ _ _ => rfl, xt2 w fun _ _ _ => rfl, xt2 w fun _ _ _ => rfl,
      xt2 w fun _ _ _ => rfl, xt2 w fun _ _ _ => rfl, error _]
  case h_3 =>
    split
    exacts [xts w fun _ _ _ _ => rfl, xts w fun _ _ _ _ => rfl, xt2 w fun _ _ _ => rfl, xt1 w fun _ _ => rfl, error _]
  case h_4 =>
    split
    exacts [xt1 w fun _ _ => rfl, xt2 w fun _ _ _ => rfl, xts w fun _ _ _ _ => rfl, error _]
  case h_7 => exact error _
  all_goals exact need _ (ok rfl)

theorem decodeXM (sec : Bool) : Words (decodeXM sec w) := by
  unfold Sys2Proof.decodeXM
  split
  case h_2 =>
    split
    exacts [needOp _ (ok rfl), needOp _ (ok rfl), error _]
  case h_3 =>
    split
    exacts [need _ (ok rfl), need _ (ok rfl), need _ (ok rfl), error _]
  case h_4 =>
    split
    exacts [need _ (needOp _ (isrc _ fun _ => ok rfl)), need _ (needOp _ (isrc _ fun _ => ok rfl)), need _ (ok rfl), error _]
  case h_7 => exact error _
  all_goals exact need _ (ok rfl)

theorem decodeX : Words (decodeX w) := by
  unfold Sys2Proof.decodeX
  split_ifs
  exacts [decodeXM w false, decodeXT w false]

/-! ## The H slot (Table 5-10) -/

theorem decodeHvec : Words (decodeHvec w) := by
  unfold Sys2Proof.decodeHvec
  dsimp only
  split
  case h_1 | h_5 => exact need _ (hv5 _ fun _ => ok rfl)
  case h_2 | h_7 => exact need _ (hv5 _ fun _ => isrc _ fun _ => ok rfl)
  case h_3 => exact need _ (ba _ fun _ => isrc _ fun _ => ok rfl)
  case h_4 => exact need _ (hv5 _ fun _ => ba _ fun _ => ok rfl)
  case h_6 | h_8 | h_10 => exact need _ (ok rfl)
  case h_9 => exact need _ (isrc _ fun _ => ok rfl)
  case h_11 | h_12 => exact need _ (ba _ fun _ => ok rfl)
  case h_13 => exact error _

theorem decodeHam : Words (decodeHam w) := by
  unfold Sys2Proof.decodeHam
  dsimp only
  split
  case h_5 => exact error _
  all_goals exact need _ (isrc _ fun _ => ok rfl)

theorem decodeH : Words (decodeH w) := by
  unfold Sys2Proof.decodeH
  split
  case h_1 => exact need _ (ok rfl)
  case h_4 => exact decodeHvec w
  case h_6 => exact decodeHam w
  case h_7 => exact error _
  all_goals exact need _ (hv5 _ fun _ => ok rfl)

/-- The decoder of every slot and section (R103). -/
theorem decodeIn (c : Sect) : Words (decodeIn c w) := by
  cases c with
  | s => exact decodeS w
  | v => exact decodeV w false
  | x => exact decodeX w
  | h => exact decodeH w
  | vsec => exact decodeV w true
  | xsec => exact decodeXT w true
  | msec => exact decodeXM w true

end

end Dec.Words

namespace Machine

/-- What an engine executes has a word. -/
theorem homeSect_of_unitInstr {c : Core} {u : Unit8} {i : Instr} (h : c.unitInstr u = .ok i) : (homeSect i).isSome = true := by
  cases u with
  | ve => exact Dec.Words.decodeIn _ _ i h
  | me => exact Dec.Words.decodeIn _ _ i h
  | hu => exact Dec.Words.decodeIn _ .h i h
  | ch k => exact Dec.Words.decodeIn _ _ i h

/-- The S word of a bundle has a word. -/
theorem homeSect_of_bundle {c : Core} {b : Bundle} (h : c.bundle = .ok b) : (homeSect b.s).isSome = true := by
  have words : ∀ ws wh, Dec.Words (if isLongOp (bitsOf ws 26 6) then decodeLong ws wh else decodeIn .s ws) := by
    intro ws wh
    split_ifs
    exacts [Dec.Words.decodeLong _ _, Dec.Words.decodeIn _ _]
  unfold Core.bundle decodeBundle at h
  dsimp only at h
  split at h
  · cases h
  next i hs =>
    repeat' split at h
    all_goals cases h
    all_goals exact words _ _ i hs

end Machine

end Sys2Proof

/-! SUPPORT. The issue of a bundle and the moves of an engine, one law for each way they can go (R18-R27), and the two
statements about them. -/

namespace Sys2Proof.Machine

/-! ## The meanings of these events -/

theorem exec_bundleIssue_eq (n : Nat) (s : State) : exec (.bundleIssue n) s = execBundleIssue n s := rfl
theorem exec_macroEntryCompletion_eq (n : Nat) (k : Unit8) (s : State) :
    exec (.macroEntryCompletion n k) s = execMacroEntryCompletion n k s := rfl
theorem exec_nop_eq (s : State) : exec .nop s = .next (s.issueS 1 id) := rfl

/-! ## A chalk line that does not run (R243) -/

section
variable {s : State} {n : Nat}

theorem State.chalk_of_inactive (h : (s.core n).trace.active = false) (f : Nat → Nat → Trace → Trace) : s.chalk n f = s := by
  simp [State.chalk, h]

theorem State.chalkT_of_inactive (h : (s.core n).trace.active = false) (typ fields : Nat) (more : List Word) :
    s.chalkT n typ fields more = s := State.chalk_of_inactive h _

theorem State.chalkEntry_of_inactive (h : (s.core n).trace.active = false) (obs : Nat) (done run : Bool) (entry : Nat) :
    s.chalkEntry n obs done run entry = s := State.chalkT_of_inactive h _ _ _

theorem State.chalkBundle_of_inactive (h : s.me.trace.active = false) (b : Bundle) : s.chalkBundle b = s :=
  State.chalkT_of_inactive h _ _ _

end

/-! ## The engines of a core -/

section
variable (c : Core)

@[simp] theorem Core.eng_setEng_same (k : Unit8) (e : Engine) : (c.setEng k e).eng k = e := by
  cases k with
  | ch j => simp [Core.setEng, Core.eng, vget_vset_same _ _ _ j.isLt]
  | ve => rfl
  | me => rfl
  | hu => rfl

theorem Core.eng_setEng_ne {j k : Unit8} (h : j ≠ k) (e : Engine) : (c.setEng k e).eng j = c.eng j := by
  cases k with
  | ch a =>
    cases j with
    | ch b =>
      have ne : b.toNat ≠ a.toNat := fun t => h (congrArg Unit8.ch (BitVec.eq_of_toNat_eq t))
      simp [Core.setEng, Core.eng, vget_vset_ne _ _ _ ne]
    | ve => rfl
    | me => rfl
    | hu => rfl
  | ve | me | hu => cases j <;> simp_all [Core.setEng, Core.eng]

/-- The engines of `c` are put back. -/
def Core.withEngines (x c : Core) : Core := { x with ve := c.ve, me := c.me, hu := c.hu, ch := c.ch }

theorem Core.setEng_frame (k : Unit8) (e : Engine) : (c.setEng k e).withEngines c = c := by
  cases k <;> rfl

/-- A change of a channel that leaves its engine leaves every engine. -/
theorem Core.eng_vset_ch {k : BitVec 3} {h : Channel} (eng : h.eng = (vget c.ch .zero k.toNat).eng) (u : Unit8) :
    ({ c with ch := vset c.ch k.toNat h } : Core).eng u = c.eng u := by
  cases u with
  | ch j =>
    by_cases e : j = k
    · subst e
      simp [Core.eng, vget_vset_same _ _ _ j.isLt, eng]
    · have ne : j.toNat ≠ k.toNat := fun t => e (BitVec.eq_of_toNat_eq t)
      simp [Core.eng, vget_vset_ne _ _ _ ne]
  | ve => rfl
  | me => rfl
  | hu => rfl

/-! ## The words that go out (R21, R27) -/

section
variable (regs : Vector Word 32) (ent : Nat)

theorem Core.enq_frame (x : Unit8 × Nat) : (c.enq regs ent x).withEngines c = c := c.setEng_frame _ _

theorem Core.queue_enq (x : Unit8 × Nat) (k : Unit8) : ((c.enq regs ent x).eng k).queue =
    (c.eng k).queue ++ if x.1 == k then [{ word := x.2, regs := regs, ent := ent }] else [] := by
  unfold Core.enq
  by_cases h : x.1 = k
  · subst h; simp
  · simp [Core.eng_setEng_ne _ (Ne.symm h), h]

theorem Core.foldl_enq_frame (l : List (Unit8 × Nat)) : (l.foldl (fun c x => c.enq regs ent x) c).withEngines c = c := by
  induction l generalizing c with
  | nil => rfl
  | cons x l ih =>
    have e := congrArg (fun z => Core.withEngines z c) (ih (c.enq regs ent x))
    exact Eq.trans e (c.enq_frame regs ent x)

/-- Each engine's queue ends with the words sent to it. -/
theorem Core.queue_foldl_enq (l : List (Unit8 × Nat)) (k : Unit8) : ((l.foldl (fun c x => c.enq regs ent x) c).eng k).queue =
    (c.eng k).queue ++ (l.filter fun x => x.1 == k).map fun x => { word := x.2, regs := regs, ent := ent } := by
  induction l generalizing c with
  | nil => simp
  | cons x l ih =>
    rw [List.foldl_cons, ih, Core.queue_enq, List.filter_cons]
    split <;> simp

theorem Core.chainIssue_frame (x : Instr) : (c.chainIssue regs x).withEngines c = c := by
  unfold Core.chainIssue
  split <;> rfl

theorem Core.eng_chainIssue (x : Instr) (u : Unit8) : (c.chainIssue regs x).eng u = c.eng u := by
  unfold Core.chainIssue
  split
  · refine c.eng_vset_ch ?_ u
    rfl
  · rfl

/-- The V, X and H words in their engines' queues, with the registers that they capture. -/
def Core.queueWords (b : Bundle) : Core := (b.sends.foldl (fun c x => c.enq regs ent x) c).chainIssue regs b.x

theorem Core.queueWords_frame (b : Bundle) : (c.queueWords regs ent b).withEngines c = c := by
  have e := congrArg (fun z => Core.withEngines z c) (Core.chainIssue_frame (b.sends.foldl (fun c x => c.enq regs ent x) c) regs b.x)
  exact Eq.trans e (c.foldl_enq_frame regs ent b.sends)

theorem Core.queue_queueWords (b : Bundle) (k : Unit8) : ((c.queueWords regs ent b).eng k).queue =
    (c.eng k).queue ++ (b.sends.filter fun x => x.1 == k).map fun x => { word := x.2, regs := regs, ent := ent } := by
  rw [Core.queueWords, Core.eng_chainIssue, Core.queue_foldl_enq]

@[simp] theorem Core.eng_setPend (r : Nat) (v : Bool) (k : Unit8) : (c.setPend r v).eng k = c.eng k := by
  unfold Core.setPend
  split <;> rfl

/-- The counters, the notes of the issue and the register that the HU is to write are put back. -/
def Core.withIssue (x c : Core) : Core :=
  { x with ld := c.ld, st := c.st, cp := c.cp, tl := c.tl, issued := c.issued, tried := c.tried, inflight := c.inflight
           pend := c.pend }

/-- Besides the engines, the words that go out change the counters, the notes of the issue and the mark of the register that
the HU is to write (R21, R27). -/
theorem Core.sendWords_frame (b : Bundle) : ((c.sendWords b regs ent).withEngines c).withIssue c = c := by
  have e := congrArg (fun z => Core.withIssue z c) (c.queueWords_frame regs ent b)
  refine Eq.trans ?_ e
  unfold Core.sendWords
  dsimp only
  split
  · unfold Core.setPend
    split <;> rfl
  · rfl

@[simp] theorem Core.sendWords_pc (b : Bundle) : (c.sendWords b regs ent).pc = c.pc :=
  (congrArg Core.pc (c.sendWords_frame regs ent b) :)
@[simp] theorem Core.sendWords_nextIssue (b : Bundle) : (c.sendWords b regs ent).nextIssue = c.nextIssue :=
  (congrArg Core.nextIssue (c.sendWords_frame regs ent b) :)
@[simp] theorem Core.sendWords_regs (b : Bundle) : (c.sendWords b regs ent).regs = c.regs :=
  (congrArg Core.regs (c.sendWords_frame regs ent b) :)
@[simp] theorem Core.sendWords_spad (b : Bundle) : (c.sendWords b regs ent).spad = c.spad :=
  (congrArg Core.spad (c.sendWords_frame regs ent b) :)

theorem Core.queue_sendWords (b : Bundle) (k : Unit8) : ((c.sendWords b regs ent).eng k).queue =
    (c.eng k).queue ++ (b.sends.filter fun x => x.1 == k).map fun x => { word := x.2, regs := regs, ent := ent } := by
  refine Eq.trans ?_ (c.queue_queueWords regs ent b k)
  unfold Core.sendWords
  dsimp only
  split
  · rw [Core.eng_setPend]
    cases k <;> rfl
  · cases k <;> rfl

/-- The counters rise by the words counted (R27, Table 1-3). -/
theorem Core.counts_sendWords (b : Bundle) :
    (c.sendWords b regs ent).ld = c.ld + b.counts.1 ∧ (c.sendWords b regs ent).st = c.st + b.counts.2.1
      ∧ (c.sendWords b regs ent).cp = c.cp + b.counts.2.2.1 ∧ (c.sendWords b regs ent).tl = c.tl + b.counts.2.2.2
      ∧ (c.sendWords b regs ent).tried = true := by
  have kept := c.queueWords_frame regs ent b
  have ld : (c.queueWords regs ent b).ld = c.ld := (congrArg Core.ld kept :)
  have st : (c.queueWords regs ent b).st = c.st := (congrArg Core.st kept :)
  have cp : (c.queueWords regs ent b).cp = c.cp := (congrArg Core.cp kept :)
  have tl : (c.queueWords regs ent b).tl = c.tl := (congrArg Core.tl kept :)
  rw [← ld, ← st, ← cp, ← tl]
  unfold Core.sendWords
  dsimp only
  split
  · simp [Core.queueWords]
  · exact ⟨rfl, rfl, rfl, rfl, rfl⟩

end

end

/-! ## A bundle that can be tried (R20) -/

/-- A running core whose bundle decodes tries it. -/
theorem execBundleIssue_of_canTry {s : State} {n : Nat} {b : Bundle} (h : CanTry ({ s with cur := n } : State).me b) :
    execBundleIssue n s = match ({ s with cur := n } : State).me.held b with
      | some why => .next (({ s with cur := n } : State).stallS why)
      | none => ({ s with cur := n } : State).issueBundle b := by
  obtain ⟨⟨running, untried, loaded⟩, time, pc, word⟩ := h
  simp only [execBundleIssue]
  generalize ({ s with cur := n } : State) = u at *
  simp [running, untried, loaded, Nat.not_lt.2 time, Nat.not_le.2 pc, word] <;> rfl

/-- With nothing to trace and an H word that its check lets pass, the S word of a bundle runs once, and the other words go
out when it has issued (R20, R21). -/
theorem State.issueBundle_eq {s t : State} {b : Bundle} (word : (homeSect b.s).isSome = true)
    (quiet : s.me.trace.active = false) (hcheck : s.me.hCheck b.h = none)
    (ran : exec b.s (s.upd fun c => { c with issued := false }) = .next t) :
    (t.me.issued = true → t.me.countFull b = false →
        s.issueBundle b = .next (t.upd fun x => x.sendWords b s.me.regs s.me.pc))
      ∧ (t.me.issued = false → s.issueBundle b = .next t) := by
  have untraced : (s.upd fun c => { c with issued := false }).chalkBundle b = s.upd fun c => { c with issued := false } :=
    State.chalkBundle_of_inactive (by simp [quiet]) b
  have run : runWord b.s (s.upd fun c => { c with issued := false }) = .next t := (runWord_eq_exec _ _ word).trans ran
  have hcheck' : Core.hCheck { s.me with issued := false } b.h = none := hcheck
  constructor
  · intro issued room
    simp [State.issueBundle, run, andThen, hcheck', issued, room, untraced]
  · intro issued
    simp [State.issueBundle, run, andThen, hcheck', issued, untraced]

/-- A core whose S word has gone: control at `pc`, and the next bundle after the interval `k` (R18, Table 11-1). -/
def Core.gone (c : Core) (pc k : Nat) : Core :=
  { c with pc := pc, nextIssue := c.sched + k, issued := true, stall := .none, waitAt := none, sync := none, qHead := none }

theorem State.me_issueAt (s : State) (pc k : Nat) (f : Core → Core) : (s.issueAt pc k f).me = (f s.me).gone pc k :=
  State.me_upd s _

theorem Core.eng_gone (c : Core) (pc k : Nat) (u : Unit8) : (c.gone pc k).eng u = c.eng u := by cases u <;> rfl

/-- A bundle with nothing in its S slot sends its words, and control goes on. -/
theorem State.issueBundle_nop {s : State} {b : Bundle} (nop : b.s = .nop) (quiet : s.me.trace.active = false)
    (hcheck : s.me.hCheck b.h = none) (room : s.me.countFull b = false) :
    ∃ t, s.issueBundle b = .next t ∧ { t with cores := s.cores } = s ∧ (∀ m, m ≠ s.cur → t.core m = s.core m)
      ∧ t.me = (s.me.gone (s.me.pc + 1) 1).sendWords b s.me.regs s.me.pc := by
  let u := s.upd fun c => { c with issued := false }
  let t := u.issueS 1 id
  have me : t.me = s.me.gone (s.me.pc + 1) 1 := by
    simp only [t, u, State.issueS, State.me_issueAt, State.me_upd]
    rfl
  have issue := State.issueBundle_eq (t := t) (by rw [nop]; rfl) quiet hcheck (by rw [nop, exec_nop_eq])
  refine ⟨_, issue.1 (by rw [me]; rfl) (by rw [me]; exact room), rfl, fun m hm => ?_, by rw [State.me_upd, me]⟩
  exact ((State.core_upd_ne t _ hm).trans (State.core_upd_ne u _ hm)).trans (State.core_upd_ne s _ hm)

/-! ## A bundle that does not decode (R97) -/

/-- A fault of a slot's word, on a running core that runs no undercoat launch, calls for a freeze (R122). -/
theorem State.slotFault_running {s : State} (running : s.me.status = .running) (noUc : s.me.uc = none) (cause : Cause)
    (slot : Nat) (addr info0 : Word) (wr : Bool) :
    (s.slotFault cause slot addr info0 wr).me =
        { s.me with
          status := .freezing
          call := some (.fault { cause := cause, obs := 3, slot := slot, wr := wr, addr := addr, info0 := info0, rpc := s.me.pc })
          frozenAt := s.frameClk }
      ∧ Elsewhere s.cur s (s.slotFault cause slot addr info0 wr) := by
  have fault : s.slotFault cause slot addr info0 wr = s.ccFault cause (addr := addr) (info0 := info0) (slot := slot) (wr := wr) := by
    simp [State.slotFault, noUc]
  rw [fault]
  exact State.raise_running s s.cur
    { cause := cause, obs := 3, slot := slot, wr := wr, addr := addr, info0 := info0, rpc := s.me.pc } running

/-- The cause that a word calls for which does not decode (R97). -/
def DecErr.cause : DecErr → Cause
  | .insn => .illegalInsn
  | .operand => .illegalOperand

theorem execBundleIssue_of_error {s : State} {n k w : Nat} {e : DecErr}
    (running : ({ s with cur := n } : State).me.status = .running) (untried : ({ s with cur := n } : State).me.tried = false)
    (loaded : ({ s with cur := n } : State).me.loading = .done)
    (time : ({ s with cur := n } : State).me.nextIssue ≤ ({ s with cur := n } : State).me.sched)
    (pc : ({ s with cur := n } : State).me.pc < 8192) (word : ({ s with cur := n } : State).me.bundle = .error (e, k, w)) :
    execBundleIssue n s = .next (({ s with cur := n } : State).slotFault (DecErr.cause e) k 0 (w64 w) false) := by
  simp only [execBundleIssue]
  generalize ({ s with cur := n } : State) = u at *
  cases e <;> simp [running, untried, loaded, Nat.not_lt.2 time, Nat.not_le.2 pc, word, DecErr.cause]

/-! ## The completion of an entry (R27) -/

section
variable (c : Core) (k : Unit8) (w : Nat)

theorem Core.eng_entryDone (j : Unit8) : (c.entryDone k w).eng j = c.eng j := by
  cases k with
  | hu =>
    unfold Core.entryDone
    dsimp only
    split <;> cases j <;> rfl
  | ve => cases j <;> rfl
  | me => cases j <;> rfl
  | ch i => cases j <;> rfl

/-- The counters after an entry, by the engine that it was in (R27, Table 1-3). -/
theorem Core.entryDone_counts :
    (k = .ve ∨ k = .me → c.entryDone k w = { c with tl := c.tl - 1 })
      ∧ (∀ j, k = .ch j → c.entryDone k w = { c with cp := c.cp - 1 })
      ∧ (k = .hu → { c.entryDone k w with ld := c.ld, st := c.st } = c) := by
  refine ⟨?_, ?_, ?_⟩
  · rintro (rfl | rfl) <;> rfl
  · rintro j rfl
    rfl
  · rintro rfl
    unfold Core.entryDone
    dsimp only
    split <;> rfl

/-- What the channel keeps after an entry is beside its engine. -/
theorem Core.eng_chanDone (j : Unit8) : (c.chanDone k w).eng j = c.eng j := by
  cases k with
  | ch i =>
    refine Eq.trans ?_ (c.eng_vset_ch (k := i) (h := { vget c.ch .zero i.toNat with
      chainOut := match decodeX w with
        | .ok (.xchain ..) => false
        | _ => (vget c.ch .zero i.toNat).chainOut
      tracked := false, copied := false }) rfl j)
    cases j <;> rfl
  | ve => rfl
  | me => rfl
  | hu => rfl

theorem Core.chanDone_frame : { c.chanDone k w with ch := c.ch, tracker := c.tracker } = c := by cases k <;> rfl

end

theorem Core.entryDone_frame (c : Core) (k : Unit8) (w : Nat) :
    { c.entryDone k w with tl := c.tl, cp := c.cp, ld := c.ld, st := c.st } = c := by
  cases k with
  | hu =>
    unfold Core.entryDone
    dsimp only
    split <;> rfl
  | ve => rfl
  | me => rfl
  | ch i => rfl

/-- The engines, the tracker, FSTAT and the flags of the cycle are put back. -/
def Core.withMacros (x c : Core) : Core :=
  { x.withEngines c with tracker := c.tracker, fstat := c.fstat, posted := c.posted }

/-- What is equal when those are put back. -/
theorem Core.rest_of_withMacros {x y c : Core} (h : x.withMacros c = y) :
    (x.regs = y.regs ∧ x.spad = y.spad ∧ x.trace = y.trace) ∧ x.tl = y.tl ∧ x.cp = y.cp ∧ x.ld = y.ld ∧ x.st = y.st := by
  subst h
  exact ⟨⟨rfl, rfl, rfl⟩, rfl, rfl, rfl, rfl⟩

section
variable (c : Core) (k : Unit8)

theorem Core.withMacros_setEng (e : Engine) (d : Core) : (c.setEng k e).withMacros d = c.withMacros d := by cases k <;> rfl

theorem Core.withMacros_post (f : BitVec 64) (d : Core) : (c.post f).withMacros d = c.withMacros d := rfl

theorem Core.withMacros_chanDone (w : Nat) (d : Core) : (c.chanDone k w).withMacros d = c.withMacros d := by cases k <;> rfl

theorem Core.withMacros_entryDone (w : Nat) : (c.entryDone k w).withMacros c = c.entryDone k w := by
  cases k with
  | hu =>
    unfold Core.entryDone
    dsimp only
    split <;> rfl
  | ve => rfl
  | me => rfl
  | ch i => rfl

theorem Core.eng_post (f : BitVec 64) (j : Unit8) : (c.post f).eng j = c.eng j := by cases j <;> rfl

variable (x : Entry)

/-- The entry's engine is empty but for its queue, and the others are as they were. -/
theorem Core.eng_complete (j : Unit8) : (c.complete k x).eng j = if j = k then (c.eng k).idle else c.eng j := by
  unfold Core.complete
  split_ifs with h
  · rw [h, Core.eng_setEng_same]
  · rw [Core.eng_setEng_ne _ h, Core.eng_post, Core.eng_chanDone, Core.eng_entryDone]

/-- Besides the counters, the completion changes the engines, the tracker and the flags. -/
theorem Core.complete_frame : (c.complete k x).withMacros c = c.entryDone k x.word := by
  unfold Core.complete
  rw [Core.withMacros_setEng, Core.withMacros_post, Core.withMacros_chanDone, Core.withMacros_entryDone]

theorem Core.fstat_complete : (c.complete k x).fstat = c.fstat ||| (c.eng k).flags := by
  have setEng : ∀ (d : Core) (e : Engine), (d.setEng k e).fstat = d.fstat := fun d e => (congrArg Core.fstat (d.setEng_frame k e) :)
  have chanDone : ∀ d : Core, (d.chanDone k x.word).fstat = d.fstat := fun d => (congrArg Core.fstat (d.chanDone_frame k x.word) :)
  have entryDone : (c.entryDone k x.word).fstat = c.fstat := (congrArg Core.fstat (c.entryDone_frame k x.word) :)
  unfold Core.complete
  rw [setEng, Core.post_fstat, chanDone, entryDone]

end

/-- A finished entry of a running core that is not traced is completed, and nothing but the core is changed. -/
theorem execMacroEntryCompletion_of_finished {s : State} {n : Nat} {k : Unit8} {x : Entry}
    (taken : ((s.core n).eng k).cur = some x) (finished : ((s.core n).eng k).finished = true)
    (running : (s.core n).status = .running) (quiet : (s.core n).trace.active = false) :
    execMacroEntryCompletion n k s = .next (s.updCore n fun c => c.complete k x) := by
  obtain ⟨⟨-, -, trace⟩, -⟩ := Core.rest_of_withMacros ((s.core n).complete_frame k x)
  have untouched : ((s.core n).entryDone k x.word).trace = (s.core n).trace :=
    (congrArg Core.trace ((s.core n).entryDone_frame k x.word) :)
  have quiet' : ((s.updCore n fun c => c.complete k x).core n).trace.active = false := by
    rw [State.core_updCore_same, trace, untouched, quiet]
  simp only [execMacroEntryCompletion, taken, finished, running, beq_self_eq_true, Bool.true_or, Bool.true_and, if_true]
  rw [State.chalkEntry_of_inactive quiet']

/-! ## A word of an engine that is due (R22, R25) -/

/-- The engine `k` of the current core, which runs, has a word in progress that is due: it decodes to `i`, which is no NOP. -/
structure State.HasDue (s : State) (k : Unit8) (i : Instr) : Prop where
  running : s.me.status = .running
  unfinished : (s.eng k).finished = false
  due : ∃ d, (s.eng k).due = some d ∧ d ≤ s.me.sched
  noCard : s.me.chainOf k = none
  word : s.me.unitInstr k = .ok i
  acts : i ≠ .nop

theorem State.unitMove_of_due {s : State} {n : Nat} {k : Unit8} {i : Instr} (h : (s.onUnit n k).HasDue k i) :
    s.unitMove n k = (s.onUnit n k).unitRun k i := by
  obtain ⟨running, unfinished, ⟨d, due, time⟩, noCard, word, -⟩ := h
  simp only [State.unitMove]
  generalize s.onUnit n k = u at *
  simp [running, unfinished, due, Nat.not_lt.2 time, noCard, word]

/-- The word takes effect, and the end of the body with it when it is done. -/
theorem State.unitRun_of_due {s t : State} {k : Unit8} {i : Instr} (h : s.HasDue k i) (ran : exec i s = .next t)
    (stays : t.me.status ≠ .idle) (taken : (t.eng k).cur.isSome) (noCard : t.me.chainOf k = none) :
    s.unitRun k i = if (t.eng k).due.isSome then .next t else t.unitEnd k := by
  have run : runUnit k i s = .next t := by
    unfold runUnit
    split
    · exact absurd rfl h.acts
    · exact (runWord_eq_exec _ _ (homeSect_of_unitInstr h.word)).trans ran
  have goesOn : ¬ (t.me.status = .idle ∨ (t.eng k).cur.isNone) := by
    simp [stays, Option.isSome_iff_ne_none.1 taken]
  simp only [State.unitRun, run, andThen, goesOn, noCard, if_false]

/-! ## The two statements -/

/-- The next item of the agenda moves. -/
theorem step_of_agenda {s : State} {m : Move} {r : List Move} (h : s.agenda = m :: r) :
    step s = State.move { s with agenda := r } m := by simp [step, h]

/-- Settles O38: a step is the head of the agenda; a bundle's S word runs as `exec` gives it because what the decoder
yields has a word. -/
theorem stepRunsTheDecodedInstruction : Obligations.StepRunsTheDecodedInstruction := by
  unfold Obligations.StepRunsTheDecodedInstruction
  refine ⟨fun s i r agenda => step_of_agenda agenda, ?_, ?_⟩
  · intro s t n r b u c agenda tries held quiet hcheck ran
    have moved : step s = u.issueBundle b := by
      rw [step_of_agenda agenda]
      refine (execBundleIssue_of_canTry (s := { s with agenda := r }) tries).trans ?_
      rw [show u.me.held b = none from held]
    rw [moved]
    exact State.issueBundle_eq (homeSect_of_bundle tries.word) quiet hcheck ran
  · intro s t n k r i d u agenda running unfinished due time noCard word acts ran stays taken noCard'
    have ready : u.HasDue k i := ⟨running, unfinished, ⟨d, due, time⟩, noCard, word, acts⟩
    have moved : step s = if (t.eng k).due.isSome then .next t else t.unitEnd k := by
      rw [step_of_agenda agenda]
      exact (State.unitMove_of_due ready).trans (State.unitRun_of_due ready ran stays taken noCard')
    rw [moved]
    exact ⟨fun h => if_pos h, fun h => by simp [h]⟩

/-- Settles O40: the issue of a bundle without an S word, a bundle that is held, a word that does not decode, and the end of
an entry. -/
theorem bundleIssueAndEntryCompletion : Obligations.BundleIssueAndEntryCompletion := by
  unfold Obligations.BundleIssueAndEntryCompletion
  refine ⟨?_, ?_, ?_⟩
  · intro s n b u c tries
    have tried := (exec_bundleIssue_eq n s).trans (execBundleIssue_of_canTry tries)
    refine ⟨fun free quiet nop room hcheck _ => ?_, fun why held => ?_⟩
    · rw [show u.me.held b = none from free] at tried
      obtain ⟨t, ran, rest, cores, me⟩ := State.issueBundle_nop (s := u) nop quiet hcheck room
      obtain ⟨ld, st, cp, tl, noted⟩ := Core.counts_sendWords (c.gone (c.pc + 1) 1) c.regs c.pc b
      have queues := Core.queue_sendWords (c.gone (c.pc + 1) 1) c.regs c.pc b
      simp only [Core.eng_gone] at queues
      refine ⟨t, tried.trans ran, ?_⟩
      rw [me]
      exact ⟨Core.sendWords_pc .., Core.sendWords_nextIssue .., Core.sendWords_regs .., Core.sendWords_spad .., noted,
        queues, ld, st, cp, tl, congrArg (fun x => { x with cur := s.cur }) rest, cores⟩
    · rw [show u.me.held b = some why from held] at tried
      exact tried
  · intro s n k w e u c running untried loaded time pc noUc word
    obtain ⟨me, elsewhere⟩ := State.slotFault_running (s := u) running noUc (DecErr.cause e) k 0 (w64 w) false
    have issue := (exec_bundleIssue_eq n s).trans (execBundleIssue_of_error running untried loaded time pc word)
    refine ⟨_, _, issue, by rw [me], ?_, rfl, rfl, rfl, by rw [me], by rw [me], elsewhere⟩
    cases e <;> rfl
  · intro s n k x c taken finished running quiet
    obtain ⟨⟨regs, spad, -⟩, tl, cp, ld, st⟩ := Core.rest_of_withMacros (c.complete_frame k x)
    obtain ⟨ofMe, ofCh, ofHu⟩ := c.entryDone_counts k x.word
    have rest := c.entryDone_frame k x.word
    have completed := (exec_macroEntryCompletion_eq n k s).trans (execMacroEntryCompletion_of_finished taken finished running quiet)
    refine ⟨_, completed, ?_⟩
    rw [State.core_updCore_same, show s.core n = c from rfl, regs, spad, tl, cp, ld, st]
    refine ⟨c.eng_complete k x, c.fstat_complete k x, (congrArg Core.regs rest :), (congrArg Core.spad rest :), fun h => ?_,
      fun j h => ?_, fun h => ⟨(congrArg Core.tl (ofHu h) :), (congrArg Core.cp (ofHu h) :)⟩, Elsewhere.updCore s n _⟩
    · rw [ofMe h]
      exact ⟨rfl, rfl, rfl, rfl⟩
    · rw [ofCh j h]
      exact ⟨rfl, rfl, rfl, rfl⟩

end Sys2Proof.Machine

/-! SUPPORT. The words of the ME that steer its program: the run word, the end of the body, the barrier and the NOP
(R22-R25, R182, R183). -/

namespace Sys2Proof.Machine

/-! ## The meanings of these words -/

theorem exec_mrun_eq (e : BitVec 12) (s : State) : exec (.mrun e) s = .next (s.enterProg .me e.toNat) := rfl
theorem exec_mend_eq (s : State) : exec .mend s = .next (s.endBody .me s.me.meActive.loops) := rfl
theorem exec_msync_eq (q : BitVec 7) (s : State) : exec (.msync q) s = .next (s.meDone 0) := rfl
theorem exec_meNop_eq (s : State) : exec .meNop s = .next (s.unitDone .me) := rfl

/-! ## The nest (R24, R25) -/

/-- The next index vector has as many levels as the one before. -/
theorem length_of_nextIdx {trips idx l : List Nat} (h : nextIdx trips idx = some l) : l.length = idx.length := by
  induction idx generalizing trips l with
  | nil => simp [nextIdx] at h
  | cons i r ih =>
    cases trips with
    | nil => simp [nextIdx] at h
    | cons t ts =>
      simp only [nextIdx] at h
      split at h
      · cases h; rfl
      · obtain ⟨m, next, rfl⟩ := Option.map_eq_some_iff.1 h
        simp [ih next]

/-- A list of six is the vector of its elements. -/
theorem toList_ofFn_getD {l : List Nat} (h : l.length = 6) :
    (Vector.ofFn fun k : Fin 6 => l.getD k.val 0).toList = l := by
  refine List.ext_getElem (by simp [h]) fun k hk hl => ?_
  simp [hl]

/-! ## The engine's step -/

theorem Engine.stepped_eq (e : Engine) (fl : BitVec 64) : (if e.inProg then e.nextWord fl else e.finish fl) = e.stepped fl := by
  unfold Engine.stepped Engine.nextWord Engine.finish
  dsimp only
  rfl

section
variable (s : State)

/-- The step in progress of the ME is done. -/
theorem State.unitDone_me (fl : BitVec 64) : s.unitDone .me fl = s.updEng s.cur .me fun e => e.stepped fl := by
  unfold State.unitDone
  simp only [Engine.stepped_eq]

/-- A change of the ME of the current core changes nothing else. -/
theorem State.updEng_me (f : Engine → Engine) :
    { s.updEng s.cur .me f with cores := s.cores } = s
      ∧ (∀ n, n ≠ s.cur → (s.updEng s.cur .me f).core n = s.core n)
      ∧ (s.updEng s.cur .me f).me = { s.me with me := f s.me.me } :=
  ⟨rfl, fun _ h => State.core_updCore_ne s _ h, State.me_upd s _⟩

/-- The last body of a nest ends the run word. -/
theorem State.endBody_me_last {loops : Vector Word 6} (last : nextIdx (loops.toList.map tripOf) s.me.me.idx.toList = none) :
    s.endBody .me loops = s.updEng s.cur .me fun e => e.finish 0 := by
  have last' : nextIdx (loops.toList.map tripOf) (s.eng .me).idx.toList = none := last
  simp only [State.endBody, last']

/-- Another body goes back to the entry with the next index vector. -/
theorem State.endBody_me_next {loops : Vector Word 6} {x : Entry} {l : List Nat} (taken : s.me.me.cur = some x)
    (next : nextIdx (loops.toList.map tripOf) s.me.me.idx.toList = some l) :
    s.endBody .me loops = s.updEng s.cur .me fun e =>
      { e with upc := bitsOf x.word 0 12, idx := Vector.ofFn fun k : Fin 6 => l.getD k.val 0, due := none, elem := 0 } := by
  have taken' : (s.eng .me).cur = some x := taken
  have next' : nextIdx (loops.toList.map tripOf) (s.eng .me).idx.toList = some l := next
  simp only [State.endBody, taken', next']

/-- A step of the ME that leaves its arrays is done. -/
theorem State.meDone_spec (fl : BitVec 64) : MeDone s (s.meDone fl) fl id ∧ (s.meDone fl).arrays = s.arrays := by
  let t := s.upd fun c => { c with fmtHeld := none, meProg := Vector.replicate 4 0, meFlags := 0 }
  obtain ⟨rest, cores, me⟩ := t.updEng_me fun e => e.stepped fl
  have done : s.meDone fl = t.updEng t.cur .me fun e => e.stepped fl := t.unitDone_me fl
  have tme : t.me = { s.me with fmtHeld := none, meProg := Vector.replicate 4 0, meFlags := 0 } := State.me_upd s _
  rw [done]
  refine ⟨?_, rfl⟩
  unfold MeDone
  rw [me, tme]
  exact ⟨rfl, rfl, rfl, rfl, rfl, fun n hn => (cores n hn).trans (State.core_upd_ne s _ hn), rfl⟩

end

/-- Settles O28: each word changes the ME of the current core alone. -/
theorem matrixProgramSteps : Obligations.MatrixProgramSteps := by
  unfold Obligations.MatrixProgramSteps
  intro s e q c trips
  refine ⟨⟨_, exec_mrun_eq e s, s.updEng_me _⟩, fun x taken => ?_, ⟨_, exec_msync_eq q s, s.meDone_spec 0⟩,
    ⟨_, exec_meNop_eq s, ?_⟩⟩
  · cases step : nextIdx trips c.me.idx.toList with
    | none =>
      obtain ⟨rest, cores, me⟩ := s.updEng_me fun e => e.finish 0
      rw [exec_mend_eq, s.endBody_me_last step]
      refine ⟨_, rfl, rest, cores, ?_⟩
      rw [me]
      exact ⟨rfl, fun _ => rfl, nofun⟩
    | some l =>
      obtain ⟨rest, cores, me⟩ := s.updEng_me fun e =>
        { e with upc := bitsOf x.word 0 12, idx := Vector.ofFn fun k : Fin 6 => l.getD k.val 0, due := none, elem := 0 }
      rw [exec_mend_eq, s.endBody_me_next taken step]
      refine ⟨_, rfl, rest, cores, ?_⟩
      rw [me]
      have six : l.length = 6 := (length_of_nextIdx step).trans (by simp)
      refine ⟨rfl, nofun, fun m h => ?_⟩
      cases h
      exact ⟨rfl, rfl, toList_ofFn_getD six⟩
  · obtain ⟨rest, cores, me⟩ := s.updEng_me fun e => e.stepped 0
    rw [State.unitDone_me, me]
    exact ⟨rfl, rfl, cores, rest⟩

end Sys2Proof.Machine

/-! SUPPORT. The integer words of the S slot (R124-R129): the values that the model computes are those of Tables 5-4 and 6-2,
and the statements about these words. -/

namespace Sys2Proof.Machine

/-! ## Products, quotients and remainders (R125) -/

/-- The high half of the 128-bit product of two signed values. -/
theorem word_mulh_eq (x y : Word) :
    BitVec.ofInt 64 (x.toInt * y.toInt / 2 ^ 64) = ((x.signExtend 128 * y.signExtend 128) >>> 64).setWidth 64 := by
  have wide : x.signExtend 128 * y.signExtend 128 = BitVec.ofInt 128 (x.toInt * y.toInt) := by
    rw [BitVec.ofInt_mul, ← BitVec.signExtend, ← BitVec.signExtend]
  rw [wide]
  apply BitVec.eq_of_toNat_eq
  simp only [BitVec.toNat_ofInt, BitVec.toNat_setWidth, BitVec.toNat_ushiftRight, Nat.shiftRight_eq_div_pow]
  omega

/-- The high half of the 128-bit product of two unsigned values. -/
theorem word_mulhU_eq (x y : Word) :
    w64 (x.toNat * y.toNat / 2 ^ 64) = ((x.setWidth 128 * y.setWidth 128) >>> 64).setWidth 64 := by
  have fits : x.toNat * y.toNat < 2 ^ 128 :=
    (Nat.mul_lt_mul'' x.isLt y.isLt).trans_le (by norm_num)
  apply BitVec.eq_of_toNat_eq
  have hx : x.toNat < 2 ^ 128 := x.isLt.trans (by norm_num)
  have hy : y.toNat < 2 ^ 128 := y.isLt.trans (by norm_num)
  simp only [w64, BitVec.toNat_ofNat, BitVec.toNat_setWidth, BitVec.toNat_ushiftRight, BitVec.toNat_mul,
    Nat.shiftRight_eq_div_pow, Nat.mod_eq_of_lt hx, Nat.mod_eq_of_lt hy, Nat.mod_eq_of_lt fits]

/-- The low half of the product. -/
theorem word_mul_eq (x y : Word) : x * y = (x.setWidth 128 * y.setWidth 128).setWidth 64 := by
  rw [BitVec.setWidth_mul _ _ (by norm_num)]
  simp

theorem quotient_signed (x y : Word) : quotient true x y = if y = 0 then BitVec.allOnes 64 else x.sdiv y := by
  unfold quotient
  have div : BitVec.ofInt 64 (x.toInt.tdiv y.toInt) = x.sdiv y := by
    apply BitVec.eq_of_toInt_eq
    rw [BitVec.toInt_ofInt, BitVec.toInt_sdiv]
  simp [div]

theorem remainder_signed (x y : Word) : remainder true x y = if y = 0 then x else x.srem y := by
  unfold remainder
  have rem : BitVec.ofInt 64 (x.toInt.tmod y.toInt) = x.srem y := by rw [← BitVec.toInt_srem, BitVec.ofInt_toInt]
  simp [rem]

/-- Settles O1: Table 6-2's results of the words that add, multiply and divide. -/
theorem integerArithmeticResults : Obligations.IntegerArithmeticResults := by
  unfold Obligations.IntegerArithmeticResults
  intro s d a b
  exact ⟨givesReg_of_setD rfl, givesReg_of_setD rfl, givesReg_of_eq rfl (word_mul_eq _ _), givesReg_of_eq rfl (word_mulh_eq _ _),
    givesReg_of_eq rfl (word_mulhU_eq _ _), givesReg_of_eq rfl (quotient_signed _ _), givesReg_of_setD rfl,
    givesReg_of_eq rfl (remainder_signed _ _), givesReg_of_setD rfl⟩

/-! ## Shifts, minima and counts (R124) -/

theorem rotateLeft_eq_shifts (x : Word) {n : Nat} (h : n < 64) : x.rotateLeft n = x <<< n ||| x >>> (64 - n) := by
  rw [BitVec.rotateLeft_def, Nat.mod_eq_of_lt h]

/-- A choice by a strict order and by the order that is not strict, of two values that are one where the keys are. -/
theorem ite_lt_eq_ite_le {α β : Type} [LinearOrder β] {x y : β} {a b : α} (same : x = y → a = b) :
    (if x < y then a else b) = if x ≤ y then a else b := by
  rcases lt_trichotomy x y with h | h | h
  · rw [if_pos h, if_pos h.le]
  · rw [if_neg h.not_lt, if_pos h.le, same h]
  · rw [if_neg h.not_gt, if_neg h.not_ge]

/-- The leading zeros: above them no bit is 1, and the next one is. -/
theorem leadingZeros_spec (x : Word) :
    leadingZeros x ≤ 64 ∧ (∀ j, j < leadingZeros x → x.getMsbD j = false)
      ∧ (leadingZeros x < 64 → x.getMsbD (leadingZeros x) = true) := by
  unfold leadingZeros
  split
  · next zero => subst zero; simp
  · next pos =>
    have ne : x.toNat ≠ 0 := fun h => pos (BitVec.eq_of_toNat_eq h)
    have top : x.toNat.log2 < 64 := (Nat.log2_lt ne).2 x.isLt
    refine ⟨by omega, fun j hj => ?_, fun _ => ?_⟩
    · have above : x.toNat < 2 ^ (63 - j) := (Nat.log2_lt ne).1 (by omega)
      simp only [BitVec.getMsbD, BitVec.getLsbD, Bool.and_eq_false_iff, decide_eq_false_iff_not]
      exact .inr (Nat.testBit_lt_two_pow above)
    · have one : x.toNat.testBit x.toNat.log2 = true := Nat.testBit_log2 ne
      have place : 64 - 1 - (63 - x.toNat.log2) = x.toNat.log2 := by omega
      simp only [BitVec.getMsbD, BitVec.getLsbD, place, one, Bool.and_true, decide_eq_true_eq]
      omega

theorem bitsOf_one (w k : Nat) : bitsOf w k 1 = (w.testBit k).toNat := by
  simp only [bitsOf, Nat.testBit_eq_decide_div_mod_eq]
  have := Nat.mod_two_eq_zero_or_one (w / 2 ^ k)
  rcases this with h | h <;> simp [h]

/-- The count of one bits is the number of places that hold a 1. -/
theorem popcount_eq (w n : Nat) : popcount w n = ((List.range n).filter fun k => w.testBit k).length := by
  induction n with
  | zero => rfl
  | succ n ih =>
    rw [popcount, ih, bitsOf_one, List.range_succ, List.filter_append, List.length_append, Nat.add_comm]
    cases h : w.testBit n <;> simp [h]

/-- Settles O2: Table 6-2's results of the logical words, the shifts, the minima and the counts. -/
theorem logicShiftSelectResults : Obligations.LogicShiftSelectResults := by
  unfold Obligations.LogicShiftSelectResults
  intro s d a b p
  dsimp only
  obtain ⟨bound, zeros, one⟩ := leadingZeros_spec (s.sval a)
  refine ⟨givesReg_of_setD rfl, givesReg_of_setD rfl, givesReg_of_setD rfl, givesReg_of_setD rfl, givesReg_of_setD rfl,
    givesReg_of_setD rfl, givesReg_of_setD rfl, givesReg_of_eq rfl ?_, givesReg_of_eq rfl ?_, givesReg_of_eq rfl ?_,
    givesReg_of_eq rfl ?_, givesReg_of_eq rfl ?_, ⟨_, bound, zeros, one, givesReg_of_setD rfl⟩,
    givesReg_of_eq rfl ?_, givesReg_of_setD rfl⟩
  · exact rotateLeft_eq_shifts _ (Nat.mod_lt _ (by norm_num))
  · simp only [BitVec.slt_iff_toInt_lt, ite_lt_eq_ite_le BitVec.eq_of_toInt_eq]
  · simp only [BitVec.ult_iff_toNat_lt, ite_lt_eq_ite_le BitVec.eq_of_toNat_eq]
  · simp only [BitVec.slt_iff_toInt_lt, ite_lt_eq_ite_le fun e => (BitVec.eq_of_toInt_eq e).symm]
  · simp only [BitVec.ult_iff_toNat_lt, ite_lt_eq_ite_le fun e => (BitVec.eq_of_toNat_eq e).symm]
  · exact congrArg w64 (popcount_eq _ _)

/-- Settles O3: the immediate and long forms. -/
theorem immediateFormResults : Obligations.ImmediateFormResults := by
  unfold Obligations.ImmediateFormResults
  intro s d a m l c
  exact ⟨givesReg_of_setD rfl, givesReg_of_setD rfl, givesReg_of_setD rfl, givesReg_of_setD rfl, givesReg_of_setD rfl,
    givesReg_of_setD rfl, givesReg_of_setD rfl, givesReg_of_setD rfl, givesReg_of_setD rfl, givesReg_of_setD rfl,
    givesReg_of_setD rfl, givesReg_of_setD rfl, givesReg_of_setD rfl, givesReg_of_eq rfl (rotateLeft_eq_shifts _ c.isLt)⟩

end Sys2Proof.Machine

/-! SUPPORT. Faults of the S word (R122, R309) and the fields of a word, with the statements about LEA (R126) and the bit fields
(R128). -/

namespace Sys2Proof.Machine

/-! ## A fault of the S word (R122, R309) -/

/-- From `s` the core has raised a fault at its bundle, and nothing else has changed. -/
structure Raised (s t : State) (r : FaultRec) : Prop where
  call : t.me.call = some (.fault r)
  slot : r.slot = 0
  rpc : r.rpc = s.me.pc
  status : t.me.status = .freezing
  frame : { t.me with status := s.me.status, call := s.me.call, frozenAt := s.me.frozenAt } = s.me
  elsewhere : Elsewhere s.cur s t

/-- The record of a fault of the S word. -/
def State.sRec (s : State) (cause : Cause) (addr info0 info1 info2 : Word) (sub : Nat) (wr : Bool) : FaultRec :=
  { cause := cause, obs := 3, sub := sub, slot := 0, wr := wr, addr := addr, info0 := info0, info1 := info1, info2 := info2
    rpc := s.me.pc }

section
variable {s : State} (uc : s.me.uc = none) (running : s.me.status = .running)
include uc running

theorem State.sFault_raised (cause : Cause) (addr info0 info1 info2 : Word) (sub : Nat) (wr : Bool) :
    Raised s (s.sFault cause addr info0 info1 info2 sub wr) (s.sRec cause addr info0 info1 info2 sub wr) := by
  have raise : s.sFault cause addr info0 info1 info2 sub wr = s.raise s.cur (s.sRec cause addr info0 info1 info2 sub wr) := by
    unfold State.sFault
    rw [uc]
    rfl
  obtain ⟨me, elsewhere⟩ := s.raise_running s.cur (s.sRec cause addr info0 info1 info2 sub wr) running
  have me' : (s.raise s.cur (s.sRec cause addr info0 info1 info2 sub wr)).me = _ := me
  rw [raise]
  exact ⟨by rw [me'], rfl, rfl, by rw [me'], by rw [me']; rfl, elsewhere⟩

end

/-! ## LEA (R126) -/

theorem fld_top_byte (v : Word) : fld v 56 8 = 0 ↔ v.toNat < 2 ^ 56 := by
  have := v.isLt
  simp only [fld, bitsOf]
  omega

theorem State.leaTo_of_global (s : State) (d : BitVec 5) {v : Word} (h : v.toNat < 2 ^ 56) : s.leaTo d v = s.setD 1 d v :=
  if_pos ((fld_top_byte v).2 h)

theorem State.leaTo_of_not_global (s : State) (d : BitVec 5) {v : Word} (h : 2 ^ 56 ≤ v.toNat) :
    s.leaTo d v = .next (s.sFault .addrRange (addr := v)) :=
  if_neg fun e => (((fld_top_byte v).1 e).trans_le h).false

/-- Settles O4: LEA gives its sum where that is a global address, and faults where it is not. -/
theorem leaSumOrAddressFault : Obligations.LeaSumOrAddressFault := by
  unfold Obligations.LeaSumOrAddressFault
  intro s d a m l
  have lea : ∀ (i : Instr) (v : Word), exec i s = s.leaTo d v →
      (v.toNat < 2 ^ 56 → GivesReg i s 1 d v) ∧
      (2 ^ 56 ≤ v.toNat → s.me.uc = none → s.me.status = .running →
        ∃ t r, exec i s = .next t ∧ t.me.call = some (.fault r) ∧ r.cause = .addrRange ∧ r.addr = v
          ∧ r.rpc = s.me.pc ∧ r.slot = 0 ∧ t.me.status = .freezing
          ∧ { t.me with status := s.me.status, call := s.me.call, frozenAt := s.me.frozenAt } = s.me
          ∧ Elsewhere s.cur s t) := by
    intro i v run
    refine ⟨fun h => givesReg_of_setD (run.trans (s.leaTo_of_global d h)), fun h uc running => ?_⟩
    obtain ⟨call, slot, rpc, status, frame, elsewhere⟩ := State.sFault_raised uc running .addrRange v 0 0 0 0 false
    exact ⟨_, _, run.trans (s.leaTo_of_not_global d h), call, rfl, rfl, rpc, slot, status, frame, elsewhere⟩
  exact ⟨lea _ _ rfl, lea _ _ rfl⟩

/-! ## Bit fields (R128) -/

theorem getLsbD_w64 (v k : Nat) (h : k < 64) : (w64 v).getLsbD k = v.testBit k := by
  rw [w64, BitVec.getLsbD_ofNat, decide_eq_true h, Bool.true_and]

/-- The bits of a field. -/
theorem testBit_bitsOf (v p n k : Nat) : (bitsOf v p n).testBit k = (decide (k < n) && v.testBit (k + p)) := by
  rw [bitsOf, Nat.testBit_mod_two_pow, Nat.testBit_div_two_pow]

/-- A number whose field from `p` on, of `n` bits, has been replaced by `f`. -/
theorem testBit_replace_field (o p n f k : Nat) (h : f < 2 ^ n) :
    (o - bitsOf o p n * 2 ^ p + f * 2 ^ p).testBit k =
      if k < p then o.testBit k else if k < p + n then f.testBit (k - p) else o.testBit k := by
  have low : o % 2 ^ p < 2 ^ p := Nat.mod_lt _ (Nat.two_pow_pos p)
  have whole : o = 2 ^ p * (2 ^ n * (o / 2 ^ p / 2 ^ n)) + bitsOf o p n * 2 ^ p + o % 2 ^ p := by
    rw [bitsOf, Nat.mul_comm _ (2 ^ p), ← Nat.mul_add, Nat.div_add_mod, Nat.div_add_mod]
  have new : o - bitsOf o p n * 2 ^ p + f * 2 ^ p = 2 ^ p * (2 ^ n * (o / 2 ^ p / 2 ^ n) + f) + o % 2 ^ p := by
    rw [Nat.mul_add, Nat.mul_comm _ f]
    omega
  rw [new, Nat.testBit_two_pow_mul_add _ low, Nat.testBit_two_pow_mul_add _ h]
  by_cases below : k < p
  · simp [below]
  · by_cases inside : k < p + n
    · simp [below, inside, show k - p < n by omega]
    · simp only [below, inside, show ¬ k - p < n by omega, if_false, Nat.testBit_div_two_pow]
      congr 1
      omega

/-- Settles O5: BFX and BFI, bit by bit. -/
theorem bitFieldResults : Obligations.BitFieldResults := by
  unfold Obligations.BitFieldResults
  intro s d a w p fits
  refine ⟨⟨_, givesReg_of_setD rfl, fun k hk => ?_⟩, ⟨_, givesReg_of_setD rfl, fun k hk => ?_⟩⟩
  · rw [getLsbD_w64 _ _ hk, fld, testBit_bitsOf, BitVec.getLsbD]
    simp
  · rw [setFld, getLsbD_w64 _ _ hk, testBit_replace_field _ _ _ _ _ (Nat.mod_lt _ (Nat.two_pow_pos _)),
      Nat.testBit_mod_two_pow]
    simp only [BitVec.getLsbD]
    by_cases inside : p.toNat ≤ k ∧ k ≤ p.toNat + w.toNat
    · rw [if_pos inside, if_neg (by omega), if_pos (by omega), decide_eq_true (by omega), Bool.true_and]
    · rw [if_neg inside, ite_eq_left_iff]
      exact fun _ => if_neg (by omega)

end Sys2Proof.Machine

/-! SUPPORT. A counterexample to the statement about compares (R132), and the statement about control transfers (R133, R134). -/

namespace Sys2Proof.Machine

/-! ## FCMP (R132) -/

/-- 1.5 and 2 of Table 4-3 (R99). -/
theorem State.sfval_three_halves (s : State) : s.sfval (.const 62) = .fin false 0xC00000 (-23) :=
  show fp32.decode 0x3FC00000 = .fin false 0xC00000 (-23) by decide

theorem State.sfval_two (s : State) : s.sfval (.const 10) = .fin false 0x800000 (-22) :=
  show fp32.decode (rne32 (intVal 2)).1 = .fin false 0x800000 (-22) by decide

/-- The model finds 1.5 less than 2 (R64). -/
theorem exec_fcmp_three_halves_lt_two (s : State) :
    ∃ t, exec (.fcmp 1 (.const 62) (.const 10) .lt) s = .next t ∧ t.me.pred 1 = true := by
  have less : (fCompare .lt (s.sfval (.const 62)) (s.sfval (.const 10))).1 = true := by
    rw [s.sfval_three_halves, s.sfval_two]
    decide
  refine ⟨_, rfl, ?_⟩
  simp only [State.issueS, State.issueAt, State.me_upd, less]
  simp [Core.pred, Core.setPred]

/-- Refutes O6: FCMP.LT of 1.5 and 2 writes true, where the statement calls for false. Its `FVal.below` scales the second
value by the distance of that value's exponent from itself, since the `e` of `min e f` is the one that its own function binds;
so it compares the significands alone, and that of 1.5 is the greater one. -/
theorem not_compareResults : ¬ Obligations.CompareResults := by
  unfold Obligations.CompareResults
  intro h
  obtain ⟨_, _, _, t, run, takes, _⟩ := h State.reset 1 (.const 62) (.const 10) .eq 0 0 .lt
  obtain ⟨u, ran, less⟩ := exec_fcmp_three_halves_lt_two State.reset
  have same : t = u := Host.Outcome.next.inj (run.symm.trans ran)
  have stated : t.me.pred 1 = false := by
    refine (takes.value (by decide)).trans ?_
    rw [State.sfval_three_halves, State.sfval_two]
    decide
  rw [same, less] at stated
  cases stated

/-! ## Transfers of control (R133, R134) -/

/-- A word whose transfer is `jumpTo` goes to an index of the instruction memory, or faults (R133). -/
theorem transfers_of_jumpTo {i : Instr} {s : State} {target : Int} {f g : Core → Core} {chk : State → Prop}
    (run : exec i s = s.jumpTo target f) (sched : (f s.me).sched = s.me.sched) (back : g ((f s.me).keepCtl s.me) = s.me)
    (holds : chk (s.issueAt target.toNat 2 f)) : Transfers i s target g chk := by
  refine ⟨fun ⟨low, high⟩ => ?_, fun out uc running => ?_⟩
  · obtain ⟨t, jump, jumped⟩ := s.jumpTo_spec target f g low high sched back
    refine ⟨t, run.trans jump, jumped, ?_⟩
    have same : s.issueAt target.toNat 2 f = t :=
      Host.Outcome.next.inj (((if_pos ⟨low, high⟩ : s.jumpTo target f = _).symm).trans jump)
    exact same ▸ holds
  · obtain ⟨call, _, rpc, _, frame, elsewhere⟩ :=
      State.sFault_raised uc running .illegalInsn 0 s.me.sWord 0 0 0 false
    exact ⟨_, _, run.trans (s.jumpTo_out target f (by omega)), call, rfl, rpc, frame, elsewhere⟩

/-- One that changes nothing of the core. -/
theorem transfers_of_jumpTo_id {i : Instr} {s : State} {target : Int} (run : exec i s = s.jumpTo target id) :
    Transfers i s target id fun _ => True :=
  transfers_of_jumpTo run rfl rfl trivial

/-- One that also writes a register. -/
theorem transfers_of_jumpTo_setReg {i : Instr} {s : State} {target : Int} {d : BitVec 5} {v : Word}
    (run : exec i s = s.jumpTo target fun c => c.setReg d.toNat v) :
    Transfers i s target (fun c => { c with regs := s.me.regs }) fun t => RegTakes s t d v := by
  refine transfers_of_jumpTo run (by simp) ?_ (RegTakes.of_regs (by simp [State.issueAt]))
  unfold Core.setReg
  split <;> rfl

/-- A word that does nothing but issue. -/
theorem issued_id (s : State) (k : Nat) : Issued s (s.issueS k id) k id := s.issued_issueS k id id rfl rfl

theorem execBr_eq (p : BitVec 3) (n : Bool) (off : BitVec 19) (s : State) : exec (.br p n off) s =
    if s.me.pred p.toNat != n then s.jumpTo (s.me.pc + off.toInt) id else .next (s.issueS 1 id) := rfl

theorem execCall_eq (p : BitVec 3) (n : Bool) (off : BitVec 19) (s : State) : exec (.call p n off) s =
    if s.me.pred p.toNat != n then s.jumpTo (s.me.pc + off.toInt) fun c => c.setReg 31 (w64 (c.pc + 1))
    else .next (s.issueS 1 id) := rfl

theorem execLoop_eq (d : BitVec 5) (m : BitVec 14) (s : State) : exec (.loop d m) s =
    if s.me.reg d.toNat = 0 then .next (s.issueS 1 id)
    else if s.me.reg d.toNat = 1 then s.setD 1 d 0
    else s.jumpTo (s.me.pc + m.toInt) fun c => c.setReg d.toNat (s.me.reg d.toNat - 1) := rfl

theorem State.issueAt_congr (s : State) (pc k : Nat) {f g : Core → Core} (h : f s.me = g s.me) :
    s.issueAt pc k f = s.issueAt pc k g := by
  simp only [State.issueAt, State.upd, State.updCore]
  rw [show s.core s.cur = s.me from rfl, h]

/-- What a transfer does depends on the core before it alone. -/
theorem State.jumpTo_congr (s : State) (t : Int) {f g : Core → Core} (h : f s.me = g s.me) : s.jumpTo t f = s.jumpTo t g := by
  simp only [State.jumpTo, s.issueAt_congr _ _ h]

/-- Settles O8: the words that transfer control. -/
theorem controlTransferTargets : Obligations.ControlTransferTargets := by
  unfold Obligations.ControlTransferTargets
  intro s d a b p n off m
  refine ⟨transfers_of_jumpTo_id rfl, transfers_of_jumpTo_id rfl, transfers_of_jumpTo_id rfl, ?_, ?_⟩
  · split
    · next acts =>
      refine ⟨transfers_of_jumpTo_id ((execBr_eq ..).trans (if_pos acts)), transfers_of_jumpTo_setReg ?_⟩
      exact ((execCall_eq ..).trans (if_pos acts)).trans (s.jumpTo_congr _ rfl)
    · next rests =>
      exact ⟨⟨_, (execBr_eq ..).trans (if_neg rests), issued_id s 1⟩, _, (execCall_eq ..).trans (if_neg rests),
        issued_id s 1⟩
  · split
    · next zero => exact ⟨_, (execLoop_eq ..).trans (if_pos zero), issued_id s 1⟩
    · next nonzero =>
      have run := (execLoop_eq d m s).trans (if_neg nonzero)
      split
      · next one => exact givesReg_of_setD (run.trans (if_pos one))
      · next more => exact transfers_of_jumpTo_setReg (run.trans (if_neg more))

end Sys2Proof.Machine

/-! SUPPORT. The floating-point words of the S slot (R130, R131): exact sums and products case by case (R48), one rounding of
each (R59-R61), and the statement about these words. -/

namespace Sys2Proof.Machine

/-! ## Words that give an FP result (R130) -/

theorem Core.ccDraw_eq (s : State) (m : RMode) : s.me.ccDraw m = drawOf s m := by
  cases m <;> rfl

/-- A word that answers `setF` gives its result, joins its flags, and leaves the generator where its mode takes it. -/
theorem givesFp_of_setF {i : Instr} {s : State} {k : Nat} {d : BitVec 5} {m : RMode} {f : Nat → Word × FFlags}
    {r : Word × FFlags} {g : BitVec 32} (run : exec i s = s.setF k d m f) (result : f (drawOf s m).1 = r)
    (generator : (drawOf s m).2 = g) : GivesFp i s k d r g := by
  subst result generator
  rw [← Core.ccDraw_eq]
  refine ⟨_, run, RegTakes.of_regs ?_, ⟨?_, ?_⟩, ?_, s.issued_issueS k _ _ (by simp) ?_⟩
  · simp only [State.issueS, State.issueAt, State.me_upd]
    unfold Core.setReg
    split <;> rfl
  · simp [State.issueS, State.issueAt]
  · simp [State.issueS, State.issueAt, Core.post]
  · simp [State.issueS, State.issueAt]
  · unfold Core.setReg
    split <;> rfl

/-- FMIN and FMAX. -/
theorem givesFp_of_minMaxF {i : Instr} {s : State} {d : BitVec 5} (a b : Src) (most : Bool)
    (run : exec i s = s.minMaxF d most a b) :
    GivesFp i s 1 d (low (fp32.finish .rne 0 (fMinMax most (s.sfval a) (s.sfval b)))) s.me.rngCc :=
  givesFp_of_setF run rfl rfl

/-- A conversion into a narrower format. -/
theorem givesFp_of_narrowF {i : Instr} {s : State} {d : BitVec 5} {a : Src} {m : RMode} (f : FFmt)
    (run : exec i s = s.narrowF f d a m) :
    GivesFp i s 1 d (low (f.round m (drawOf s m).1 (s.sfval a))) (drawOf s m).2 :=
  givesFp_of_setF run rfl rfl

/-- A conversion into FP32. -/
theorem givesFp_of_widenF {i : Instr} {s : State} {d : BitVec 5} {a : Src} (f : FFmt) (run : exec i s = s.widenF f d a) :
    GivesFp i s 1 d (low (fp32.round .rne 0 (f.decode ((s.sval a).toNat % 2 ^ f.bits)))) s.me.rngCc :=
  givesFp_of_setF run rfl rfl

/-! ## One rounding -/

theorem FFlags.none_join (f : FFlags) : FFlags.join {} f = f := by
  simp [FFlags.join]

theorem FFlags.join_none (f : FFlags) : f.join {} = f := by
  simp [FFlags.join]

theorem finish_exact (f : FFmt) (m : RMode) (w : Nat) (v : FVal) : f.finish m w (v, {}) = f.round m w v := by
  simp [FFmt.finish, FFlags.none_join]

theorem finish_nan (m : RMode) (w : Nat) (fl : FFlags) : fp32.finish m w (.nan false, fl) = (0x7FC00000, fl) := by
  simp only [FFmt.finish, FFmt.round, FFlags.join_none]
  rfl

theorem round_zero (m : RMode) (w : Nat) (n : Bool) (e : Int) :
    fp32.round m w (.fin n 0 e) = ((if n then 2 ^ 31 else 0 : Nat), {}) := by
  cases n <;> rfl

/-- What a rounding gives fits the format. -/
theorem FFmt.round_lt (f : FFmt) (big : f.maxFin < 2 ^ (f.ew + f.mw)) (nan : f.dnan < 2 ^ f.bits) (m : RMode) (w : Nat) (v : FVal) :
    (f.round m w v).1 < 2 ^ f.bits := by
  have whole : 2 ^ f.bits = 2 ^ (f.ew + f.mw) + 2 ^ (f.ew + f.mw) := by
    rw [FFmt.bits, Nat.add_assoc, Nat.add_comm 1, Nat.pow_succ, Nat.mul_two]
  have sign : ∀ n, f.sgn n ≤ 2 ^ (f.ew + f.mw) := fun n => by cases n <;> simp [FFmt.sgn]
  have inf : ∀ n, f.infBits n < 2 ^ f.bits := fun n => by
    have top : (2 ^ f.ew - 1) * 2 ^ f.mw < 2 ^ (f.ew + f.mw) := by
      rw [Nat.pow_add]
      exact Nat.mul_lt_mul_of_pos_right (Nat.sub_lt (Nat.two_pow_pos _) one_pos) (Nat.two_pow_pos _)
    have := sign n
    cases h : f.kind <;> simp only [FFmt.infBits, h] <;> omega
  have overflows : ∀ n, f.overflow m false n < 2 ^ f.bits := fun n => by
    have finite : f.sgn n + f.maxFin < 2 ^ f.bits := by have := sign n; omega
    have := inf n
    cases m <;> simp only [FFmt.overflow] <;> split_ifs <;> assumption
  match v with
  | .nan s => exact nan
  | .inf n => exact inf n
  | .fin n k e =>
    have := sign n
    simp only [FFmt.round, FFmt.roundFin]
    split_ifs
    · omega
    · exact overflows n
    · simp only [not_lt] at *; omega

theorem fp32_round_lt (m : RMode) (w : Nat) (v : FVal) : (fp32.round m w v).1 < 2 ^ 32 :=
  fp32.round_lt (by decide) (by decide) m w v

theorem fp32_finish_lt (m : RMode) (w : Nat) (r : FVal × FFlags) : (fp32.finish m w r).1 < 2 ^ 32 :=
  fp32_round_lt m w r.1

/-! ## Sums (R48) -/

theorem FVal.isNan_of_isSig {x : FVal} (h : x.isSig = true) : x.isNan = true := by
  cases x <;> simp_all [isSig, isNan]

@[simp] theorem FVal.isNan_neg (x : FVal) : x.neg.isNan = x.isNan := by cases x <;> rfl
@[simp] theorem FVal.isSig_neg (x : FVal) : x.neg.isSig = x.isSig := by cases x <;> rfl

theorem FVal.neg_eq_inf {x : FVal} {n : Bool} : x.neg = .inf n ↔ x = .inf (!n) := by
  cases x <;> cases n <;> simp [neg]

section
variable (m : RMode) (w : Nat)

theorem FVal.add_nan {x y : FVal} (h : x.isNan ∨ y.isNan) :
    add m x y = (.nan false, { nv := x.isSig || y.isSig }) := by
  cases x <;> cases y <;> simp_all [add, isNan, isSig]

theorem FVal.add_inf_opposite (n : Bool) : add m (.inf n) (.inf !n) = (.nan false, { nv := true }) := by
  cases n <;> rfl

theorem FVal.add_inf_left {n : Bool} {y : FVal} (number : ¬ y.isNan) (other : y ≠ .inf !n) : add m (.inf n) y = (.inf n, {}) := by
  cases y with
  | nan s => simp [isNan] at number
  | inf k => cases n <;> cases k <;> simp_all [add]
  | fin => rfl

theorem FVal.add_inf_right {n : Bool} {x : FVal} (number : ¬ x.isNan) (other : x ≠ .inf !n) : add m x (.inf n) = (.inf n, {}) := by
  cases x with
  | nan s => simp [isNan] at number
  | inf k => cases n <;> cases k <;> simp_all [add]
  | fin => rfl

/-- The value of a number, in units of `2 ^ q`. -/
def FVal.units (n : Bool) (k : Nat) (e q : Int) : Int := (if n then -1 else 1) * ((k : Int) * 2 ^ (e - q).toNat)

theorem FVal.at_eq_units (n : Bool) (k : Nat) (e q : Int) : FVal.at n k e q = units n k e q := by
  cases n <;> simp [FVal.at, units]

theorem FVal.units_not (n : Bool) (k : Nat) (e q : Int) : units (!n) k e q = -units n k e q := by
  cases n <;> simp [units]

/-- Two terms of one sign whose sum is zero are zero. -/
theorem FVal.zero_of_units_add (n : Bool) {k k' : Nat} {e e' q : Int} (h : units n k e q + units n k' e' q = 0) :
    k = 0 ∧ k' = 0 := by
  have left : (0 : Int) ≤ k * 2 ^ (e - q).toNat := by positivity
  have right : (0 : Int) ≤ k' * 2 ^ (e' - q).toNat := by positivity
  have zero : (k : Int) * 2 ^ (e - q).toNat = 0 ∧ (k' : Int) * 2 ^ (e' - q).toNat = 0 := by
    cases n <;> simp only [units] at h <;> constructor <;> simp at h <;> omega
  simpa using zero

variable (n n' : Bool) (k k' : Nat) (e e' : Int)

/-- The exact sum of two finite values. -/
def FVal.sumUnits : Int := units n k e (min e e') + units n' k' e' (min e e')

/-- The sum of two finite values that is not zero is its one rounding. -/
theorem FVal.add_fin (h : FVal.sumUnits n n' k k' e e' ≠ 0) : FVal.add m (.fin n k e) (.fin n' k' e') =
    (.fin (decide (FVal.sumUnits n n' k k' e e' < 0)) (FVal.sumUnits n n' k k' e e').natAbs (min e e'), {}) := by
  simp only [FVal.sumUnits, FVal.add, FVal.at_eq_units] at h ⊢
  rw [if_neg h]
  rfl

/-- An exact zero has the sign of both terms, and else the sign of its mode (R48). -/
theorem FVal.add_fin_zero (h : FVal.sumUnits n n' k k' e e' = 0) : FVal.add m (.fin n k e) (.fin n' k' e') =
    (.fin (if n = n' then n else decide (m = .rd)) 0 (min e e'), {}) := by
  simp only [FVal.sumUnits] at h
  simp only [FVal.add, FVal.at_eq_units, h, if_true]
  by_cases same : n = n'
  · subst same
    obtain ⟨rfl, rfl⟩ := FVal.zero_of_units_add n h
    simp
  · rw [if_neg (fun t => same t.2.2), if_neg same, beq_eq_decide]

end

/-! ## Products and FFMA (R48, R49) -/

section
variable {x y : FVal}

theorem FVal.mul_nan (h : x.isNan ∨ y.isNan) : mul x y = (.nan false, { nv := x.isSig || y.isSig }) := by
  cases x <;> cases y <;> simp_all [mul, isNan, isSig]

theorem FVal.mul_zero_inf (h : x.isZero ∧ y.isInf ∨ x.isInf ∧ y.isZero) : mul x y = (.nan false, { nv := true }) := by
  cases x <;> cases y <;> simp_all [mul, isZero, isInf]

theorem FVal.mul_inf (hx : ¬ x.isNan) (hy : ¬ y.isNan) (inf : x.isInf ∨ y.isInf) (zx : ¬ x.isZero) (zy : ¬ y.isZero) :
    mul x y = (.inf (x.sign != y.sign), {}) := by
  cases x <;> cases y <;> simp_all [mul, isNan, isInf, isZero, sign]

/-- The product of two numbers, where it is not zero times infinity, is a number and meets no condition. -/
theorem FVal.mul_number (hx : ¬ x.isNan) (hy : ¬ y.isNan) (a : ¬ (x.isZero ∧ y.isInf)) (b : ¬ (x.isInf ∧ y.isZero)) :
    (mul x y).1.isSig = false ∧ (mul x y).2 = {} := by
  cases x <;> cases y <;> simp_all [mul, isNan, isZero, isInf, isSig]

/-- A product meets no condition but NV. -/
theorem FVal.mul_flags : (mul x y).2 = { nv := (mul x y).2.nv } := by
  cases x <;> cases y <;> simp only [mul] <;> split_ifs <;> rfl

variable (m : RMode) (w : Nat) (z : FVal)

theorem fFma_eq {v : FVal} {fl : FFlags} (h : FVal.mul x y = (v, fl)) :
    fFma fp32 m w x y z = fp32.finish m w ((FVal.add m v z).1, fl.join (FVal.add m v z).2) := by
  simp only [fFma, h]

/-- An FFMA whose product is no NaN is the sum of that product and the addend. -/
theorem fFma_of_product {v : FVal} (h : FVal.mul x y = (v, {})) : fFma fp32 m w x y z = fp32.finish m w (FVal.add m v z) := by
  rw [fFma_eq m w z h, FFlags.none_join]

/-- With a product that is a NaN the FFMA is one. -/
theorem fFma_of_nan {b : Bool} (h : FVal.mul x y = (.nan false, { nv := b })) :
    fFma fp32 m w x y z = (0x7FC00000, { nv := b || z.isSig }) := by
  rw [fFma_eq m w z h, FVal.add_nan m (.inl rfl), finish_nan]
  simp [FFlags.join, FVal.isSig]

end

/-! ## What sums and products give -/

section
variable (m : RMode) (w : Nat) {x y : FVal}

theorem fAdd_of_nan (h : x.isNan ∨ y.isNan) : fAdd fp32 m w x y = (0x7FC00000, { nv := x.isSig || y.isSig }) := by
  rw [fAdd, FVal.add_nan m h, finish_nan]

theorem fSub_of_nan (h : x.isNan ∨ y.isNan) : fSub fp32 m w x y = (0x7FC00000, { nv := x.isSig || y.isSig }) := by
  rw [fSub, FVal.add_nan m (by simpa using h), finish_nan, FVal.isSig_neg]

theorem fMul_of_nan (h : x.isNan ∨ y.isNan) : fMul fp32 m w x y = (0x7FC00000, { nv := x.isSig || y.isSig }) := by
  rw [fMul, FVal.mul_nan h, finish_nan]

/-- Infinities that cancel (R48). -/
theorem fAdd_opposite (n : Bool) : Invalid (fAdd fp32 m w (.inf n) (.inf !n)) := by
  rw [Invalid, fAdd, FVal.add_inf_opposite, finish_nan]

theorem fSub_same (n : Bool) : Invalid (fSub fp32 m w (.inf n) (.inf n)) := by
  rw [Invalid, fSub, FVal.neg, FVal.add_inf_opposite, finish_nan]

/-- Zero times infinity, in either order. -/
theorem fMul_zero_inf (h : x.isZero ∧ y.isInf ∨ x.isInf ∧ y.isZero) (z : FVal) :
    Invalid (fMul fp32 m w x y) ∧ Invalid (fFma fp32 m w x y z) := by
  refine ⟨?_, fFma_of_nan m w z (FVal.mul_zero_inf h)⟩
  rw [Invalid, fMul, FVal.mul_zero_inf h, finish_nan]

/-- An infinite term, and none that cancels it. -/
theorem fAdd_inf (hx : ¬ x.isNan) (hy : ¬ y.isNan) (n : Bool) :
    (x = .inf n → y ≠ .inf (!n) → fAdd fp32 m w x y = fp32.round .rne 0 (.inf n))
      ∧ (y = .inf n → x ≠ .inf (!n) → fAdd fp32 m w x y = fp32.round .rne 0 (.inf n)) := by
  constructor <;> rintro rfl other
  · rw [fAdd, FVal.add_inf_left m hy other, finish_exact]; rfl
  · rw [fAdd, FVal.add_inf_right m hx other, finish_exact]; rfl

theorem fSub_inf (hx : ¬ x.isNan) (hy : ¬ y.isNan) (n : Bool) :
    (x = .inf n → y ≠ .inf n → fSub fp32 m w x y = fp32.round .rne 0 (.inf n))
      ∧ (y = .inf n → x ≠ .inf n → fSub fp32 m w x y = fp32.round .rne 0 (.inf (!n))) := by
  have neg := fAdd_inf m w hx (y := y.neg) (by simpa using hy)
  refine ⟨fun e other => (neg n).1 e fun t => other ?_, fun e other => (neg !n).2 ?_ fun t => other ?_⟩
  · simpa using FVal.neg_eq_inf.1 t
  · rw [e]; rfl
  · simpa using t

/-- A product with an infinity and no zero, and the FFMA whose addend does not cancel it. -/
theorem fMul_inf (hx : ¬ x.isNan) (hy : ¬ y.isNan) (inf : x.isInf ∨ y.isInf) (zx : ¬ x.isZero) (zy : ¬ y.isZero) (z : FVal) :
    fMul fp32 m w x y = fp32.round .rne 0 (.inf (x.sign != y.sign))
      ∧ (¬ z.isNan → z ≠ .inf (x.sign == y.sign) → fFma fp32 m w x y z = fp32.round .rne 0 (.inf (x.sign != y.sign))) := by
  have product := FVal.mul_inf hx hy inf zx zy
  refine ⟨?_, fun hz other => ?_⟩
  · rw [fMul, product, finish_exact]; rfl
  · rw [fFma_of_product m w z product, FVal.add_inf_left m hz (by simpa [bne] using other), finish_exact]; rfl

/-- With a NaN among the operands of an FFMA, that of its addend included, the result is one. -/
theorem fFma_of_nan_factor (h : x.isNan ∨ y.isNan) (z : FVal) :
    fFma fp32 m w x y z = (0x7FC00000, { nv := (x.isSig || y.isSig) || z.isSig }) :=
  fFma_of_nan m w z (FVal.mul_nan h)

theorem fFma_of_nan_addend {z : FVal} (h : z.isNan) :
    fFma fp32 m w x y z = (0x7FC00000, (FVal.mul x y).2.join { nv := (FVal.mul x y).1.isSig || z.isSig }) := by
  rw [fFma_eq m w z rfl, FVal.add_nan m (.inr h), finish_nan]
  rfl

end

/-! ## FMIN and FMAX (R64) -/

section
variable {x y : FVal} (most : Bool)

theorem fMinMax_of_sig (h : x.isSig ∨ y.isSig) : fMinMax most x y = (.nan false, { nv := true }) := by
  unfold fMinMax
  exact if_pos (by simpa using h)

/-- Of two numbers one is the lesser, by the order that puts -0 below +0. -/
theorem fMinMax_of_numbers (hx : ¬ x.isNan) (hy : ¬ y.isNan) :
    fMinMax most x y = (if most = x.le y then y else x, {}) := by
  cases x <;> cases y <;> simp_all [fMinMax, FVal.isSig, FVal.isNan] <;> cases most <;> simp <;> split_ifs <;> simp_all

/-- A number is taken before a quiet NaN. -/
theorem fMinMax_of_quiet_left (hy : ¬ y.isNan) : fMinMax most (.nan false) y = (y, {}) := by
  cases y <;> simp_all [fMinMax, FVal.isSig, FVal.isNan]

theorem fMinMax_of_quiet_right (hx : ¬ x.isNan) : fMinMax most x (.nan false) = (x, {}) := by
  cases x <;> simp_all [fMinMax, FVal.isSig, FVal.isNan]

end

/-! ## FCVT to an integer (R131) -/

/-- Rounding to a 64-bit integer saturates at its limits, with NV alone. -/
theorem toIntSat_fin (m : RMode) (w : Nat) (n : Bool) (k : Nat) (e : Int) :
    let i := roundTo m w n k e 0
    let j : Int := if n then -i.1 else i.1
    toIntSat m w (-(2 ^ 63)) (2 ^ 63 - 1) 0 (.fin n k e) =
      if j < -(2 ^ 63) then (-(2 ^ 63), { nv := true })
      else if 2 ^ 63 ≤ j then (2 ^ 63 - 1, { nv := true }) else (j, { nx := i.2 }) := by
  intro i j
  have high : j > 2 ^ 63 - 1 ↔ 2 ^ 63 ≤ j := Int.sub_one_lt_iff
  exact if_congr Iff.rfl rfl (if_congr high rfl rfl)

theorem toIntSat_bounds (m : RMode) (w : Nat) (v : FVal) : -(2 ^ 63) ≤ (toIntSat m w (-(2 ^ 63)) (2 ^ 63 - 1) 0 v).1
    ∧ (toIntSat m w (-(2 ^ 63)) (2 ^ 63 - 1) 0 v).1 < 2 ^ 63 := by
  match v with
  | .nan _ => simp [toIntSat]
  | .inf n => cases n <;> simp [toIntSat]
  | .fin n k e =>
    rw [toIntSat_fin]
    split_ifs <;> constructor <;> simp only [not_lt, not_le] at * <;> omega

/-! ## The statement -/

section
variable (m : RMode) (w : Nat) {x y z : FVal}

/-- A signalling NaN among the operands. -/
theorem invalid_of_sig (h : x.isSig ∨ y.isSig) : Invalid (fAdd fp32 m w x y) ∧ Invalid (fSub fp32 m w x y)
    ∧ Invalid (fMul fp32 m w x y) ∧ Invalid (fFma fp32 m w x y z) ∧ Invalid (fp32.finish .rne 0 (fMinMax false x y))
    ∧ Invalid (fp32.finish .rne 0 (fMinMax true x y)) := by
  have nan : x.isNan ∨ y.isNan := h.imp FVal.isNan_of_isSig FVal.isNan_of_isSig
  have sig : (x.isSig || y.isSig) = true := by simpa using h
  simp only [Invalid, fAdd_of_nan m w nan, fSub_of_nan m w nan, fMul_of_nan m w nan, fFma_of_nan_factor m w nan,
    fMinMax_of_sig _ h, finish_nan, sig, Bool.true_or, and_self]

/-- A quiet NaN among them, and no signalling one. -/
theorem quiet_of_nan (h : x.isNan ∨ y.isNan) (hx : ¬ x.isSig) (hy : ¬ y.isSig) : Quiet (fAdd fp32 m w x y)
    ∧ Quiet (fSub fp32 m w x y) ∧ Quiet (fMul fp32 m w x y) ∧ (¬ z.isSig → Quiet (fFma fp32 m w x y z)) := by
  simp only [Bool.not_eq_true] at hx hy
  refine ⟨?_, ?_, ?_, fun hz => ?_⟩
  · rw [Quiet, fAdd_of_nan m w h, hx, hy]; rfl
  · rw [Quiet, fSub_of_nan m w h, hx, hy]; rfl
  · rw [Quiet, fMul_of_nan m w h, hx, hy]; rfl
  · rw [Quiet, fFma_of_nan_factor m w h, hx, hy, Bool.eq_false_of_not_eq_true hz]; rfl

/-- The sum and the difference of two finite values. -/
theorem fAdd_fin (n n' : Bool) (k k' : Nat) (e e' : Int) :
    (FVal.sumUnits n n' k k' e e' ≠ 0 → fAdd fp32 m w (.fin n k e) (.fin n' k' e') =
        fp32.round m w (.fin (decide (FVal.sumUnits n n' k k' e e' < 0)) (FVal.sumUnits n n' k k' e e').natAbs (min e e')))
      ∧ (FVal.sumUnits n n' k k' e e' = 0 → fAdd fp32 m w (.fin n k e) (.fin n' k' e') =
        ((if (if n = n' then n else decide (m = .rd)) then 2 ^ 31 else 0 : Nat), {})) := by
  constructor <;> intro h
  · rw [fAdd, FVal.add_fin m n n' k k' e e' h, finish_exact]
  · rw [fAdd, FVal.add_fin_zero m n n' k k' e e' h, finish_exact, round_zero]

theorem fSub_fin (n n' : Bool) (k k' : Nat) (e e' : Int) :
    let j := FVal.units n k e (min e e') - FVal.units n' k' e' (min e e')
    (j ≠ 0 → fSub fp32 m w (.fin n k e) (.fin n' k' e') = fp32.round m w (.fin (decide (j < 0)) j.natAbs (min e e')))
      ∧ (j = 0 → fSub fp32 m w (.fin n k e) (.fin n' k' e') =
        ((if (if n = !n' then n else decide (m = .rd)) then 2 ^ 31 else 0 : Nat), {})) := by
  intro j
  have sum : FVal.sumUnits n (!n') k k' e e' = j := by rw [FVal.sumUnits, FVal.units_not, ← sub_eq_add_neg]
  exact sum ▸ fAdd_fin m w n (!n') k k' e e'

/-- The FFMA of finite values. -/
theorem fFma_fin (n n' n'' : Bool) (k k' k'' : Nat) (e e' e'' : Int) :
    let h := FVal.sumUnits (n != n') n'' (k * k') k'' (e + e') e''
    (h ≠ 0 → fFma fp32 m w (.fin n k e) (.fin n' k' e') (.fin n'' k'' e'') =
        fp32.round m w (.fin (decide (h < 0)) h.natAbs (min (e + e') e'')))
      ∧ (h = 0 → fFma fp32 m w (.fin n k e) (.fin n' k' e') (.fin n'' k'' e'') =
        ((if (if (n != n') = n'' then n'' else decide (m = .rd)) then 2 ^ 31 else 0 : Nat), {})) := by
  intro h
  have fused : fFma fp32 m w (.fin n k e) (.fin n' k' e') (.fin n'' k'' e'') =
      fAdd fp32 m w (.fin (n != n') (k * k') (e + e')) (.fin n'' k'' e'') := fFma_of_product m w _ rfl
  obtain ⟨nonzero, zero⟩ := fAdd_fin m w (n != n') n'' (k * k') k'' (e + e') e''
  refine ⟨fun t => fused.trans (nonzero t), fun t => fused.trans ((zero t).trans ?_)⟩
  rw [ite_congr rfl (fun same => same) fun _ => rfl]

end

/-- Settles O7: the floating-point words, with one rounding of the exact value, its special cases and its flags. -/
theorem floatingPointResults : Obligations.FloatingPointResults := by
  unfold Obligations.FloatingPointResults
  intro s d a b m
  extract_lets x y z w g g0 v narrow wide sum diff prod fma lo hi exact_ zero
  refine ⟨?_, ?_, ?_, ?_, ?_, ?_, ?_, ?_, ?_, ?_, ?_, ?_, ?_, ?_, ?_, ?_⟩
  · exact ⟨givesFp_of_setF (f := fun w => low (fAdd fp32 m w x y)) rfl rfl rfl,
      givesFp_of_setF (f := fun w => low (fSub fp32 m w x y)) rfl rfl rfl,
      givesFp_of_setF (f := fun w => low (fMul fp32 m w x y)) rfl rfl rfl,
      givesFp_of_setF (f := fun w => low (fFma fp32 m w x y z)) rfl rfl rfl,
      givesFp_of_minMaxF a b false rfl, givesFp_of_minMaxF a b true rfl⟩
  · refine ⟨givesFp_of_narrowF bf16 rfl, givesFp_of_narrowF fp16 rfl, givesFp_of_narrowF e4m3 rfl, givesFp_of_narrowF e5m2 rfl,
      givesFp_of_widenF bf16 rfl, givesFp_of_widenF fp16 rfl, givesFp_of_widenF e4m3 rfl, givesFp_of_widenF e5m2 rfl,
      givesFp_of_setF (f := fun w => low (fp32.round m w (intVal (s.sval a).toInt))) rfl rfl rfl,
      toIntSat m w (-(2 ^ 63)) (2 ^ 63 - 1) 0 x,
      givesFp_of_setF (f := fun w =>
        let r := toIntSat m w (-(2 ^ 63)) (2 ^ 63 - 1) 0 x
        (BitVec.ofInt 64 r.1, r.2)) rfl rfl rfl,
      (toIntSat_bounds m w x).1, (toIntSat_bounds m w x).2, fun nan => ?_, fun n inf => ?_, fun n k e fin => ?_⟩
    · cases h : x <;> simp_all [FVal.isNan, toIntSat]
    · rw [inf]; rfl
    · rw [fin]; exact toIntSat_fin m w n k e
  · rintro n inf
    refine ⟨fun other => ?_, fun other => ?_⟩
    · simp only [sum, inf, other, fAdd_opposite]
    · simp only [diff, inf, other, fSub_same]
  · exact fun h => fMul_zero_inf m w h z
  · intro n k hx hy hz
    have product : FVal.mul x y = (.inf (n != k), {}) := by rw [hx, hy]; rfl
    have addend : z = .inf (!(n != k)) := by rw [hz]; simp [bne]
    simp only [fma, Invalid, fFma_of_product m w z product, addend, FVal.add_inf_opposite, finish_nan]
  · exact invalid_of_sig m w
  · intro hz
    rw [show fma = fFma fp32 m w x y z from rfl, fFma_of_nan_addend m w (FVal.isNan_of_isSig hz), FVal.mul_flags, hz]
    simp [Invalid, FFlags.join]
  · intro n k e n' k' e' hx hy
    clear_value x y z
    subst hx hy
    obtain ⟨sumNonzero, sumZero⟩ := fAdd_fin m w n n' k k' e e'
    obtain ⟨diffNonzero, diffZero⟩ := fSub_fin m w n n' k k' e e'
    refine ⟨sumNonzero, diffNonzero, sumZero, diffZero, rfl, fun n'' k'' e'' hz => ?_, fun l hz => ?_⟩
    · intro u p h
      have total : FVal.sumUnits (n != n') n'' (k * k') k'' (e + e') e'' = h := by cases n <;> cases n' <;> rfl
      subst hz
      exact total ▸ fFma_fin m w n n' n'' k k' k'' e e' e''
    · subst hz; rfl
  · intro hx hy
    refine ⟨fun n => ?_, fun inf zx zy => fMul_inf m w hx hy inf zx zy z⟩
    exact ⟨(fAdd_inf m w hx hy n).1, (fAdd_inf m w hx hy n).2, (fSub_inf m w hx hy n).1, (fSub_inf m w hx hy n).2⟩
  · exact quiet_of_nan m w
  · intro hz hx hy zi iz
    obtain ⟨sig, flags⟩ := FVal.mul_number hx hy zi iz
    simp only [fma, Quiet, fFma_of_nan_addend m w (x := x) (y := y) (z := z) (by rw [hz]; rfl), sig, flags, hz]
    rfl
  · intro hx hy
    have low := fMinMax_of_numbers false hx hy
    have high := fMinMax_of_numbers true hx hy
    simp only [lo, hi, low, high, finish_exact, exact_]
    cases x.le y <;> simp
  · rintro hx hy
    simp only [lo, hi, hx, fMinMax_of_quiet_left _ hy, finish_exact, exact_, and_self]
  · rintro hy hx
    simp only [lo, hi, hy, fMinMax_of_quiet_right _ hx, finish_exact, exact_, and_self]
  · exact ⟨fp32_finish_lt .., fp32_finish_lt .., fp32_finish_lt .., fp32_finish_lt .., fp32_finish_lt .., fp32_finish_lt ..⟩
  · exact ⟨bf16.round_lt (by decide) (by decide) m w x, fp16.round_lt (by decide) (by decide) m w x,
      e4m3.round_lt (by decide) (by decide) m w x, e5m2.round_lt (by decide) (by decide) m w x⟩

end Sys2Proof.Machine

/-! SUPPORT. The issue of loads, stores, atomics, prefetches and WQUERY (R135-R137, R226), the checks of their addresses (R122),
and the two statements about them. -/

namespace Sys2Proof.Machine

/-! ## Pending registers (R21) -/

section
variable (c : Core)

theorem Core.isPend_setPend_same {r : Nat} (h0 : r ≠ 0) (h : r < 32) : (c.setPend r true).isPend r = true := by
  simp [Core.isPend, Core.setPend, h0, h]

theorem Core.isPend_setPend_ne {r q : Nat} (v : Bool) (h : q ≠ r) : (c.setPend r v).isPend q = c.isPend q := by
  have other : (1#32 <<< r).getLsbD q = false := by
    rw [← BitVec.twoPow_eq, BitVec.getLsbD_twoPow]
    simp [Ne.symm h]
  unfold Core.isPend Core.setPend
  by_cases zero : r = 0
  · rw [if_pos zero]
  · rw [if_neg zero]
    cases v
    · by_cases hq : q < 32
      · simp only [Bool.false_eq_true, if_false, BitVec.getLsbD_and, BitVec.getLsbD_not, other, hq, decide_true, Bool.not_false,
          Bool.and_true]
      · simp only [BitVec.getLsbD_of_ge _ _ (not_lt.1 hq)]
    · simp only [if_true, BitVec.getLsbD_or, other, Bool.or_false]

/-! ## A request that leaves the core (R27, R121) -/

variable (a : Access)

/-- The access with the tag and the generation that it takes. -/
def Core.tagged : Access :=
  { a with tag := c.freeTag 4096 c.nextTag, gen := tabGet 0 c.gens (c.freeTag 4096 c.nextTag) }

@[simp] theorem Core.inflight_send : (c.send a).inflight = c.inflight ++ [c.tagged a] := by
  unfold Core.send
  dsimp only
  cases a.kind.dest with
  | none => rfl
  | some d => exact Core.setPend_inflight _ _ _

@[simp] theorem Core.ld_send : (c.send a).ld = c.ld + if a.kind.counter = some true then 1 else 0 := by
  unfold Core.send
  dsimp only
  cases a.kind.dest <;> simp <;> split <;> rfl

@[simp] theorem Core.st_send : (c.send a).st = c.st + if a.kind.counter = some false then 1 else 0 := by
  unfold Core.send
  dsimp only
  cases a.kind.dest <;> simp <;> split <;> rfl

@[simp] theorem Core.sched_send : (c.send a).sched = c.sched := by
  unfold Core.send
  dsimp only
  cases a.kind.dest <;> simp

theorem Core.isPend_send_dest {d : Nat} (dest : a.kind.dest = some d) (h0 : d ≠ 0) (h : d < 32) : (c.send a).isPend d = true := by
  simp only [Core.send, dest]
  exact Core.isPend_setPend_same _ h0 h

theorem Core.isPend_send_other {r : Nat} (h : some r ≠ a.kind.dest) : (c.send a).isPend r = c.isPend r := by
  unfold Core.send
  dsimp only
  cases dest : a.kind.dest with
  | none => rfl
  | some d => exact Core.isPend_setPend_ne _ _ fun e => h (e ▸ dest.symm)

/-- Besides the request, its counter, its tag and the pending mark nothing of the core changes. -/
theorem Core.send_back (x : Core) : { (c.send a).keepCtl x with
    inflight := c.inflight, nextTag := c.nextTag, ld := c.ld, st := c.st, pend := c.pend } = c.keepCtl x := by
  unfold Core.send
  dsimp only
  cases a.kind.dest with
  | none => rfl
  | some d => by_cases zero : d = 0 <;> simp only [Core.setPend, zero, if_true, if_false] <;> rfl

end

/-- The counter of an access stands below 255 (R27). -/
def Core.counts (c : Core) (k : AccKind) : Prop :=
  (k.counter = some true → c.ld < 255) ∧ (k.counter = some false → c.st < 255)

/-- Nothing has happened yet to a request that is about to leave. -/
def Access.fresh (a : Access) : Prop :=
  a.held = false ∧ a.sent = false ∧ a.err = none ∧ a.retried = false ∧ a.hWins = false ∧ a.wants = false ∧ a.applied = false

/-- The request that `issueAcc` sends (R325). -/
def State.stamped (s : State) (a : Access) : Access :=
  { a with at_ := s.frameClk, lim := s.dev.rsplim.toNat, atSrc := s.accHeld s.cur a }

section
variable {i : Instr} {s : State}

theorem State.issueAcc_of_counts {a : Access} (room : s.me.counts a.kind) :
    s.issueAcc a = .next (s.issueS 1 fun c => c.send (s.stamped a)) := by
  obtain ⟨ld, st⟩ := room
  refine if_neg ?_
  cases h : a.kind.counter with
  | none => simp
  | some b => cases b <;> simp [ld, st, h]

/-- A word whose access issues puts one request in flight. -/
theorem sends_of_issueAcc {a : Access} (run : exec i s = s.issueAcc a) (room : s.me.counts a.kind) (fresh : a.fresh) :
    Sends i s a.kind a.sp a.addr a.size := by
  let t := s.issueS 1 fun c => c.send (s.stamped a)
  have me : t.me = { s.me.send (s.stamped a) with
      pc := s.me.pc + 1, nextIssue := (s.me.send (s.stamped a)).sched + 1, issued := true, stall := .none, waitAt := none
      sync := none, qHead := none } := State.me_upd s _
  have pend : ∀ r, t.me.isPend r = (s.me.send (s.stamped a)).isPend r := fun r => by rw [me]; rfl
  refine ⟨t, s.me.tagged (s.stamped a), run.trans (State.issueAcc_of_counts room), by rw [me]; simp,
    ⟨rfl, rfl, rfl, rfl, rfl, rfl⟩, fresh, by rw [me]; exact Core.ld_send _ _, by rw [me]; exact Core.st_send _ _,
    fun d dest h0 h => ?_, fun r other => ?_, s.issued_issueS 1 _ _ (by simp) (s.me.send_back _ _)⟩
  · rw [pend]; exact s.me.isPend_send_dest (s.stamped a) dest h0 h
  · rw [pend]; exact s.me.isPend_send_other (s.stamped a) other

/-! ## The check of the address (R122) -/

theorem addrFault_of_reachable {sp : Bool} {ea size : Nat} (h : Reachable s sp ea size) : addrFault sp ea size size = none := by
  obtain ⟨aligned, range⟩ := h
  cases sp <;> simp [addrFault, aligned] at range ⊢ <;> omega

/-- An access to an aligned range of a space is sent. -/
theorem sends_of_scalarAcc {k : AccKind} {sp : Bool} {ea size : Nat} {sc : Scope} {wr : Bool}
    (run : exec i s = s.scalarAcc k sp ea size sc wr) (reach : Reachable s sp ea size) (room : s.me.counts k) :
    Sends i s k sp ea size := by
  have open_ : (sp && s.me.guarded 3 ea size) = false := by
    cases sp with
    | false => rfl
    | true => exact (reach.2 : _ ∧ _).2
  refine sends_of_issueAcc (a := { kind := k, sp := sp, addr := ea, size := size, scope := sc }) (run.trans ?_) room
    ⟨rfl, rfl, rfl, rfl, rfl, rfl, rfl⟩
  rw [State.scalarAcc, addrFault_of_reachable reach]
  simp [open_]

/-- The same for an atomic, which no undercoat launch makes (R137, R301). -/
theorem sends_of_atomic {k : AccKind} {a : Src} {w : Bool} {sc : Scope} (run : exec i s = s.atomic k a w sc)
    (uc : s.me.uc = none) (reach : Reachable s false (s.sval a).toNat (if w then 4 else 8)) (room : s.me.counts k) :
    Sends i s k false (s.sval a).toNat (if w then 4 else 8) := by
  refine sends_of_scalarAcc (sc := sc) (wr := true) (run.trans ?_) reach room
  rw [State.atomic, State.notUc, uc]

end

theorem exec_pref_eq (cnt base : BitVec 5) (off : BitVec 13) (sp : Bool) (s : State) :
    exec (.pref cnt base off sp) s = execPref cnt base off sp s := rfl

theorem exec_wquery_eq (d : BitVec 5) (a b : Src) (s : State) : exec (.wquery d a b) s = execWquery d a b s := rfl

/-- The operand of an atomic. -/
theorem State.amoVal_eq (s : State) (b : Src) (w : Bool) : s.amoVal b w = (s.sval b).toNat % 2 ^ (8 * if w then 4 else 8) := by
  cases w <;> rfl

/-- Settles O9: what the access words send. -/
theorem accessWordsSendOneRequest : Obligations.AccessWordsSendOneRequest := by
  unfold Obligations.AccessWordsSendOneRequest
  refine ⟨fun s d base off sz sp => ?_, fun s cnt base off sp => ?_, fun s d a b u w sc => ?_, fun s d a b w win inside => ?_⟩
  · intro ea n reach
    exact ⟨fun room => ⟨sends_of_scalarAcc rfl reach ⟨fun _ => room, nofun⟩, sends_of_scalarAcc rfl reach ⟨fun _ => room, nofun⟩⟩,
      fun room => sends_of_scalarAcc rfl reach ⟨nofun, fun _ => room⟩⟩
  · intro ea at_ room
    have enabled : (if sp then decide (s.ea base off < 0x200000) && (s.me.tileSp (s.ea base off)).isSome
        else decide (s.ea base off < 2 ^ 56) && (tlbHit s.me.tlb s.me.region (s.ea base off)).isSome) = true ↔ at_ := by
      cases sp <;> exact Bool.and_eq_true_iff.trans (and_congr_left' decide_eq_true_iff)
    have notFull : ¬ 255 ≤ s.me.ld := not_le.2 room
    refine ⟨fun ok uc => ?_, fun lacks => ?_⟩
    · refine sends_of_issueAcc (a := { kind := .pref cnt.toNat, sp := sp, addr := ea, size := 1 }) ?_ ⟨fun _ => room, nofun⟩
        ⟨rfl, rfl, rfl, rfl, rfl, rfl, rfl⟩
      rw [exec_pref_eq, execPref, if_neg notFull]
      exact if_pos (by rw [enabled.2 ok, uc]; rfl)
    · refine ⟨_, ?_, issued_id s 1⟩
      rw [exec_pref_eq, execPref, if_neg notFull]
      exact if_neg fun both => lacks (enabled.1 (Bool.and_eq_true _ _ ▸ both).1)
  · intro ea n v old amo reach room uc
    have sent : ∀ (i : Instr) (op : Nat) (u : Bool), exec i s = s.atomic (.amo d.toNat op u (s.amoVal b w)) a w sc → amo i op u :=
      fun i op u run => sends_of_atomic ((s.amoVal_eq b w) ▸ run) uc reach ⟨nofun, fun _ => room⟩
    refine ⟨sent _ _ _ rfl, sent _ _ _ rfl, sent _ _ _ rfl, sent _ _ _ rfl, sent _ _ _ rfl, sent _ _ _ rfl, sent _ _ _ rfl,
      sends_of_atomic (sc := sc) ?_ uc reach ⟨nofun, fun _ => room⟩⟩
    cases w <;> rfl
  · refine sends_of_issueAcc (a := { kind := .wquery d.toNat (s.sval a).toNat (s.sval b).toNat }) ?_ ⟨nofun, nofun⟩
      ⟨rfl, rfl, rfl, rfl, rfl, rfl, rfl⟩
    simp only [exec_wquery_eq, execWquery, win]
    exact if_neg (not_le.2 inside)

/-! ## Addresses that fail (R70, R71, R88, R122) -/

section
variable {i : Instr} {s : State} {cause : Cause} {k : AccKind} {sp : Bool} {ea size : Nat} {sc : Scope} {wr : Bool}
  (uc : s.me.uc = none) (running : s.me.status = .running)
include uc running

/-- An access whose address fails its check raises the fault. -/
theorem raisesS_of_addrFault (run : exec i s = s.scalarAcc k sp ea size sc wr) (small : ea < 2 ^ 64)
    (fails : addrFault sp ea size size = some cause) : RaisesS i s cause ea := by
  obtain ⟨call, slot, rpc, status, frame, elsewhere⟩ := State.sFault_raised uc running cause (w64 ea) 0 0 0 0 wr
  refine ⟨_, _, run.trans ?_, call, rfl, Nat.mod_eq_of_lt small, slot, rpc, status, frame, elsewhere⟩
  rw [State.scalarAcc, fails]

/-- Alignment is checked first. -/
theorem raisesS_misaligned (run : exec i s = s.scalarAcc k sp ea size sc wr) (small : ea < 2 ^ 64) (h : ea % size ≠ 0) :
    RaisesS i s .align ea :=
  raisesS_of_addrFault uc running run small (if_pos h)

/-- Then the range. -/
theorem raisesS_out_of_range (run : exec i s = s.scalarAcc k sp ea size sc wr) (small : ea < 2 ^ 64) (aligned : ea % size = 0)
    (past : if sp then 2 ^ 21 < ea + size else 2 ^ 56 < ea + size) :
    RaisesS i s (if sp then .spadRange else .addrRange) ea := by
  refine raisesS_of_addrFault uc running run small ?_
  cases sp <;> simp [addrFault, aligned] at past ⊢ <;> omega

end

/-- Settles O10: ALIGN, and then the range of the space. -/
theorem misalignedAccessFaultsBeforeRange : Obligations.MisalignedAccessFaultsBeforeRange := by
  unfold Obligations.MisalignedAccessFaultsBeforeRange
  intro s d base off sz sp a b w sc running uc ea n va m past cause
  have small : ea < 2 ^ 64 := BitVec.isLt _
  have small' : va < 2 ^ 64 := BitVec.isLt _
  have atomic : ∀ (i : Instr) (k : AccKind), exec i s = s.atomic k a w sc → exec i s = s.scalarAcc k false va m sc true :=
    fun i k run => run.trans (by rw [State.atomic, State.notUc, uc])
  have add := atomic (.amoAdd d a b w sc) _ rfl
  have cas := atomic (.cas d a b w sc) _ rfl
  exact ⟨fun h => ⟨raisesS_misaligned uc running rfl small h, raisesS_misaligned uc running rfl small h,
      raisesS_misaligned uc running rfl small h⟩,
    fun h p => ⟨raisesS_out_of_range uc running rfl small h p, raisesS_out_of_range uc running rfl small h p,
      raisesS_out_of_range uc running rfl small h p⟩,
    fun h => ⟨raisesS_misaligned uc running add small' h, raisesS_misaligned uc running cas small' h⟩,
    fun h p => ⟨raisesS_out_of_range uc running add small' h p, raisesS_out_of_range uc running cas small' h p⟩⟩

end Sys2Proof.Machine

/-! SUPPORT. Little-endian bytes and their values (R11), reads of a line of the L2 byte by byte, and what the completion of an
access leaves of its core (R27, R121). -/

namespace Sys2Proof.Machine

/-! ## Little-endian bytes (R11) -/

@[simp] theorem length_leBytes (n v : Nat) : (leBytes n v).length = n := by
  induction n generalizing v with
  | zero => rfl
  | succ n ih => rw [leBytes, List.length_cons, ih]

theorem getD_leBytes {n k : Nat} (v : Nat) (h : k < n) : (leBytes n v).getD k 0 = BitVec.ofNat 8 (v / 256 ^ k) := by
  induction n generalizing v k with
  | zero => omega
  | succ n ih =>
    cases k with
    | zero => simp [leBytes]
    | succ k => rw [leBytes, List.getD_cons_succ, ih _ (by omega), Nat.div_div_eq_div_mul, Nat.pow_succ']

theorem leNat_lt (bs : List Byte) : leNat bs < 2 ^ (8 * bs.length) := by
  induction bs with
  | nil => simp [leNat]
  | cons b r ih =>
    rw [List.length_cons, Nat.mul_succ, Nat.pow_add, leNat]
    have := b.isLt
    omega

theorem leNat_leBytes (n v : Nat) : leNat (leBytes n v) = v % 2 ^ (8 * n) := by
  induction n generalizing v with
  | zero => simp [leBytes, leNat, Nat.mod_one]
  | succ n ih =>
    rw [leBytes, leNat, ih, BitVec.toNat_ofNat, Nat.mul_succ, Nat.add_comm (8 * n), Nat.pow_add, Nat.mod_mul]

theorem Memory.rdN_lt (m : Memory) (a n : Nat) : m.rdN a n < 2 ^ (8 * n) := by
  have := leNat_lt (m.rdBytes a n)
  rwa [Memory.length_rdBytes] at this

/-- A two's-complement code of some bits as an integer. -/
theorem sextNat_eq_toInt {k : Nat} (pos : 0 < k) (v : Nat) : sextNat k v = (BitVec.ofNat k v).toInt := by
  have top : (BitVec.ofNat k v).msb = v.testBit (k - 1) := by
    rw [BitVec.msb_eq_getLsbD_last, BitVec.getLsbD_ofNat, decide_eq_true (by omega), Bool.true_and]
  rw [BitVec.toInt_eq_msb_cond, top, sextNat, bitsOf_one, BitVec.toNat_ofNat]
  cases v.testBit (k - 1) <;> simp [bitsOf]

/-- The value that a load returns: its bytes, sign-extended or zero-extended (R135). -/
theorem Access.result_load {a : Access} {d : Nat} {sx : Bool} (load : a.kind = .load d sx) (pos : 0 < a.size) (v : Nat) :
    a.result v = if sx then (BitVec.ofNat (8 * a.size) v).signExtend 64 else BitVec.ofNat 64 v := by
  cases sx with
  | false => simp only [Access.result, load]; rfl
  | true => simp only [Access.result, load, if_true, sextNat_eq_toInt (show 0 < 8 * a.size by omega), BitVec.signExtend]

/-! ## Lists -/

theorem listDel_eq_eraseIdx {α : Type} (l : List α) (k : Nat) : listDel l k = l.eraseIdx k := by
  induction l generalizing k with
  | nil => rfl
  | cons x r ih => cases k with
    | zero => rfl
    | succ k => rw [listDel, ih, List.eraseIdx_cons_succ]

theorem listFind_eq_none {α : Type} {p : α → Bool} {l : List α} (h : ∀ x, x ∈ l → p x = false) (k : Nat) :
    listFind p l k = none := by
  induction l generalizing k with
  | nil => rfl
  | cons x r ih =>
    rw [listFind, if_neg (by simp [h x (.head _)])]
    exact ih (fun y hy => h y (.tail _ hy)) _

/-! ## A core whose access completes (R27) -/

/-- A late result: its register, unless the H word's stands, and the mark of that register. -/
theorem Core.lateWrite_back (c : Core) (d : Nat) (v : Word) (skip : Bool) :
    { c.lateWrite d v skip with regs := c.regs, pend := c.pend } = c := by
  unfold Core.lateWrite Core.setPend Core.setReg
  cases skip <;> by_cases zero : d = 0 <;> simp only [zero, if_true, if_false, Bool.false_eq_true] <;> split <;> rfl

theorem Core.regs_lateWrite (c : Core) (d : Nat) (v : Word) (skip : Bool) :
    (c.lateWrite d v skip).regs = (if skip then c else c.setReg d v).regs := by
  unfold Core.lateWrite
  dsimp only
  generalize (if skip then c else c.setReg d v) = x
  split
  · rfl
  · exact Core.setPend_regs _ _ _

theorem Core.reg_lateWrite_same (c : Core) {d : Nat} (v : Word) (h0 : 0 < d) (h : d < 32) :
    (c.lateWrite d v false).reg d = v := by
  have e : (c.lateWrite d v false).reg d = (c.setReg d v).reg d := by simp [Core.reg, Core.regs_lateWrite]
  rw [e, Core.reg_setReg_same _ _ (by omega) h]

theorem Core.reg_lateWrite_ne (c : Core) {d r : Nat} (v : Word) (skip : Bool) (h : r ≠ d) :
    (c.lateWrite d v skip).reg r = c.reg r := by
  cases skip
  · exact (show (c.lateWrite d v false).reg r = (c.setReg d v).reg r by simp [Core.reg, Core.regs_lateWrite]).trans
      (Core.reg_setReg_ne _ _ h)
  · simp [Core.reg, Core.regs_lateWrite]

/-- A core one of whose accesses is over: the access gone, and its counter lower. -/
def Core.ended (c : Core) (k : Nat) (a : Access) : Core :=
  { c with
    inflight := c.inflight.eraseIdx k
    ld := if a.kind.counter = some true then c.ld - 1 else c.ld
    st := if a.kind.counter = some false then c.st - 1 else c.st }

/-- A core one of whose accesses has completed with a value. -/
def Core.finished (c : Core) (k : Nat) (a : Access) (v : Nat) : Core :=
  match a.kind.dest with
  | some d => (c.ended k a).lateWrite d (a.result v) a.hWins
  | none => c.ended k a

theorem State.finishAcc_eq (s : State) (n k : Nat) (a : Access) (v : Nat) :
    s.finishAcc n k a v = s.updCore n fun c => c.finished k a v := by
  cases dest : a.kind.dest <;> simp only [State.finishAcc, Core.finished, Core.ended, listDel_eq_eraseIdx, dest]

section
variable (c : Core) (k : Nat) (a : Access) (v : Nat)

/-- Besides the destination and its mark nothing else changes. -/
theorem Core.finished_back : { c.finished k a v with regs := c.regs, pend := c.pend } = c.ended k a := by
  unfold Core.finished
  cases a.kind.dest with
  | none => rfl
  | some d => exact (c.ended k a).lateWrite_back d (a.result v) a.hWins

@[simp] theorem Core.inflight_finished : (c.finished k a v).inflight = c.inflight.eraseIdx k :=
  (congrArg Core.inflight (c.finished_back k a v) :)
@[simp] theorem Core.ld_finished : (c.finished k a v).ld = if a.kind.counter = some true then c.ld - 1 else c.ld :=
  (congrArg Core.ld (c.finished_back k a v) :)
@[simp] theorem Core.st_finished : (c.finished k a v).st = if a.kind.counter = some false then c.st - 1 else c.st :=
  (congrArg Core.st (c.finished_back k a v) :)

variable {c k a}

theorem Core.finished_of_no_dest (h : a.kind.dest = none) : c.finished k a v = c.ended k a := by
  simp only [Core.finished, h]

theorem Core.reg_finished_dest {d : Nat} (h : a.kind.dest = some d) (h0 : 0 < d) (h1 : d < 32) (wins : a.hWins = false) :
    (c.finished k a v).reg d = a.result v := by
  simp only [Core.finished, h, wins]
  exact Core.reg_lateWrite_same _ _ h0 h1

theorem Core.reg_finished_other {d r : Nat} (h : a.kind.dest = some d) (ne : r ≠ d) : (c.finished k a v).reg r = c.reg r := by
  simp only [Core.finished, h]
  exact Core.reg_lateWrite_ne _ _ _ ne

end

end Sys2Proof.Machine

/-! SUPPORT. Accesses of a core to its own scratchpad (R27, R72, R135), and the statement about them. -/

namespace Sys2Proof.Machine

theorem Elsewhere.trans {n : Nat} {s t u : State} (h : Elsewhere n s t) (k : Elsewhere n t u) : Elsewhere n s u where
  rest := (congrArg (fun x : State => { x with cores := s.cores }) k.rest).trans h.rest
  cores := fun m hm => (k.cores m hm).trans (h.cores m hm)
  bytes := fun dom pa => (k.bytes dom pa).trans (h.bytes dom pa)

theorem exec_loadCompletion_eq (n k : Nat) (s : State) : exec (.loadCompletion n k) s = execLoadCompletion n k s := rfl
theorem exec_writePerformed_eq (n k : Nat) (s : State) : exec (.writePerformed n k) s = execWritePerformed n k s := rfl

section
variable {s : State} {n k : Nat} {a : Access}

/-- LOAD_COMPLETION of a load attempts it (R27). -/
theorem exec_loadCompletion_of_load (at_ : (s.core n).inflight[k]? = some a) (load : a.kind.counter = some true) :
    exec (.loadCompletion n k) s = .next (s.tryAcc n k a) := by
  simp only [exec_loadCompletion_eq, execLoadCompletion, at_, load, if_true]

/-- WRITE_PERFORMED of a write that has not stopped at a narrower scope attempts it (R27). -/
theorem exec_writePerformed_of_write (at_ : (s.core n).inflight[k]? = some a) (write : a.kind.counter = some false)
    (direct : ∀ w, w ∈ (s.core n).buf → w.tag ≠ some a.tag) : exec (.writePerformed n k) s = .next (s.tryAcc n k a) := by
  have none : listFind (fun (w : BufW) => w.tag == some a.tag) (s.core n).buf 0 = none :=
    listFind_eq_none (fun w hw => beq_eq_false_iff_ne.2 (direct w hw)) 0
  simp only [exec_writePerformed_eq, execWritePerformed, at_, none, write, if_true]

theorem State.tryAcc_of_free (held : a.held = false) (sent : a.sent = false) (err : a.err = none) (atSrc : a.atSrc = false)
    (first : s.accBlocked n k a = false) : s.tryAcc n k a = s.tryNow n k a := by
  simp [State.tryAcc, held, sent, err, atSrc, first]

end

section
variable {s : State} {n k : Nat} {a : Access} (own : OwnAccess s n k a)
include own

/-- No older access of the core stands in the way of one to other bytes of its scratchpad (R82). -/
theorem accBlocked_of_ownAccess : s.accBlocked n k a = false := by
  obtain ⟨_, sp, _, _, _, _, _, tiles, _, apart⟩ := own
  have noTile : ∀ x, (s.core n).tileSp x = none := fun x => by simp [Core.tileSp, tiles]
  have loc : ∀ b : Access, b.sp = true → s.accLoc n b = (0, b.addr) := fun b hb => by simp [State.accLoc, hb, noTile]
  have far : ∀ b : Access, b.sp = false → (s.accLoc n b).1 ≠ 0 := fun b hb => by
    simp only [State.accLoc, hb, Bool.false_eq_true, if_false]
    split <;> simp
  refine List.any_eq_false.2 fun b hb => ?_
  simp only [loc a sp]
  cases hs : b.sp with
  | false => simp [far b hs]
  | true =>
    have := (apart b hb).resolve_left (by simp [hs])
    simp only [loc b hs, Bool.and_eq_true, decide_eq_true_eq]
    omega

theorem tryAcc_of_ownAccess : s.tryAcc n k a = s.tryNow n k a := by
  have first := accBlocked_of_ownAccess own
  obtain ⟨_, _, held, sent, err, atSrc, _⟩ := own
  exact State.tryAcc_of_free held sent err atSrc first

/-- A load takes the bytes of the scratchpad. -/
theorem tryAcc_own_load {d : Nat} {sx : Bool} (load : a.kind = .load d sx) :
    s.tryAcc n k a = s.updCore n fun c => c.finished k a ((s.core n).spad.rdN a.addr a.size) := by
  rw [tryAcc_of_ownAccess own]
  obtain ⟨_, sp, _, _, _, _, uc, tiles, _⟩ := own
  simp [State.tryNow, uc, sp, Core.tileSp, tiles, load, State.finishAcc_eq]

/-- A store puts its bytes into it. -/
theorem tryAcc_own_store {v : Nat} (store : a.kind = .store v) :
    s.tryAcc n k a = (s.updCore n fun c => { c with spad := c.spad.wrBytes a.addr (leBytes a.size v) }).updCore n
      fun c => c.finished k a 0 := by
  rw [tryAcc_of_ownAccess own]
  obtain ⟨_, sp, _, _, _, _, uc, tiles, _⟩ := own
  simp [State.tryNow, uc, sp, Core.tileSp, tiles, store, State.finishAcc_eq]

end

/-- Settles O11: a load of the scratchpad takes its bytes, and a store changes exactly its own. -/
theorem scratchpadLoadAndStorePerform : Obligations.ScratchpadLoadAndStorePerform := by
  unfold Obligations.ScratchpadLoadAndStorePerform
  intro s n k a own
  have ⟨at_, _, _, _, _, _, _, _, direct, _⟩ := own
  refine ⟨fun d sx load h0 h1 wins size => ?_, fun v store => ?_⟩
  · have counter : a.kind.counter = some true := by rw [load]; rfl
    have dest : a.kind.dest = some d := by rw [load]; rfl
    have run := (exec_loadCompletion_of_load at_ counter).trans (congrArg _ (tryAcc_own_load own load))
    refine ⟨_, run, ?_, fun r hr => ?_, ?_, ?_, ?_, Elsewhere.updCore s n _⟩ <;> rw [State.core_updCore_same]
    · have fits : (BitVec.ofNat (8 * a.size) ((s.core n).spad.rdN a.addr a.size)).setWidth 64 =
          BitVec.ofNat 64 ((s.core n).spad.rdN a.addr a.size) := by
        apply BitVec.eq_of_toNat_eq
        rw [BitVec.toNat_setWidth, BitVec.toNat_ofNat, BitVec.toNat_ofNat, Nat.mod_eq_of_lt (Memory.rdN_lt ..)]
      rw [Core.reg_finished_dest _ dest h0 h1 wins, Access.result_load load (by omega), fits]
    · exact Core.reg_finished_other _ dest hr
    · exact Core.inflight_finished ..
    · rw [Core.ld_finished, if_pos counter]
    · have back := (s.core n).finished_back k a ((s.core n).spad.rdN a.addr a.size)
      have count : (if a.kind.counter = some false then (s.core n).st - 1 else (s.core n).st) = (s.core n).st :=
        if_neg (by rw [counter]; simp)
      have e := congrArg (fun c => { c with inflight := (s.core n).inflight, ld := (s.core n).ld }) back
      simpa only [Core.ended, count] using e
  · have counter : a.kind.counter = some false := by rw [store]; rfl
    have dest : a.kind.dest = none := by rw [store]; rfl
    have run := (exec_writePerformed_of_write at_ counter direct).trans (congrArg _ (tryAcc_own_store own store))
    refine ⟨_, run, fun x => ?_, ?_, ?_, ?_, (Elsewhere.updCore s n _).trans (Elsewhere.updCore _ n _)⟩ <;>
      rw [State.core_updCore_same, State.core_updCore_same, Core.finished_of_no_dest _ dest]
    · refine (Memory.rd_wrBytes ..).trans ?_
      rw [length_leBytes]
      split
      · next inside => exact getD_leBytes v (by omega)
      · rfl
    · rfl
    · exact if_pos counter
    · have count : (if a.kind.counter = some true then (s.core n).ld - 1 else (s.core n).ld) = (s.core n).ld :=
        if_neg (by rw [counter]; simp)
      simp only [Core.ended, count]

end Sys2Proof.Machine

/-! SUPPORT. The waits that read (R140, R141), and the statement about them. -/

namespace Sys2Proof.Machine

section
variable (s : State) (n a len : Nat)

/-- The core's own reads and writes leave no note at an engine (R321). -/
@[simp] theorem State.noteAsk_cc (sp wr waits : Bool) : s.noteAsk n 3 sp wr a len waits = s := rfl

/-- A read of the core's own scratchpad, outside windows and watermarks (R72, R196). -/
theorem State.rdA_own (off : Nat) (pos : len ≠ 0) (tiles : (s.core n).tiles = []) (open_ : (s.core n).guarded 3 off len = false) :
    s.rdA n 3 true off len = .ok ((s.core n).spad.rdBytes off len) s := by
  have noTile : (s.core n).tileSp off = none := by simp [Core.tileSp, tiles]
  have read : s.rdS n off len = .ok ((s.core n).spad.rdBytes off len) s := by
    simp [State.rdS, Core.spPieces, tiles, pos, readSp, noTile]
  simp [State.rdA, State.gaveUp, State.isHit, State.handed, unitOfObs, open_, read, Try.noted]

end

/-- A wait whose condition does not hold: only the notes of it have changed. -/
theorem State.waiting_spec (s : State) (v : Word × Word) :
    (s.waiting v).me.waitAt = some (s.me.waitAt.getD s.me.sched) ∧ (s.waiting v).me.waitVals = v
      ∧ (s.waiting v).me.tried = true
      ∧ { (s.waiting v).me with stall := s.me.stall, tried := s.me.tried, waitAt := s.me.waitAt, waitVals := s.me.waitVals } = s.me
      ∧ Elsewhere s.cur s (s.waiting v) := by
  have me : (s.waiting v).me = { s.me with
      stall := .wait, tried := true, waitAt := some (s.me.waitAt.getD s.me.sched), waitVals := v } := State.me_upd s _
  rw [me]
  exact ⟨rfl, rfl, rfl, rfl, Elsewhere.upd s _⟩

theorem exec_waita_eq (d : BitVec 5) (a b : Src) (sc : Scope) (s : State) : exec (.waita d a b sc) s = execWaita d a b sc s := rfl
theorem exec_waitq_eq (d : BitVec 5) (a b : Src) (s : State) : exec (.waitq d a b) s = execWaitq d a b s := rfl

theorem addrFault_aligned_spad {off n : Nat} (aligned : off % n = 0) (range : off + n ≤ 2 ^ 21) : addrFault true off n n = none := by
  simp [addrFault, aligned]
  omega

theorem addrFault_aligned_global {va n : Nat} (aligned : va % n = 0) (range : va + n ≤ 2 ^ 56) :
    addrFault false va n n = none := by
  simp [addrFault, aligned]
  omega

/-- WAITA at a word of the scratchpad compares it with its operand (R140). -/
theorem exec_waita_own {s : State} {d : BitVec 5} {a b : Src} {sc : Scope} (aligned : (s.sval a).toNat % 8 = 0)
    (range : (s.sval a).toNat + 8 ≤ 2 ^ 21) (tiles : s.me.tiles = []) (open_ : s.me.guarded 3 (s.sval a).toNat 8 = false) :
    exec (.waita d a b sc) s =
      if (s.sval b).toNat ≤ s.me.spad.rdN (s.sval a).toNat 8 then .next (s.issueS 1 id)
      else .next (s.waiting (BitVec.ofNat 64 (s.me.spad.rdN (s.sval a).toNat 8), s.sval b)) := by
  have read := s.rdA_own s.cur 8 (s.sval a).toNat (by decide) tiles open_
  have value : (BitVec.ofNat 64 (s.me.spad.rdN (s.sval a).toNat 8)).toNat = s.me.spad.rdN (s.sval a).toNat 8 :=
    Nat.mod_eq_of_lt (s.me.spad.rdN_lt _ 8)
  simp only [exec_waita_eq, execWaita, addrFault_aligned_spad aligned range, read]
  refine if_congr ?_ rfl rfl
  rw [BitVec.ule, decide_eq_true_iff, ← value]
  rfl

section
variable {s t : State} {d : BitVec 5} {a b : Src} {v : List Byte} (aligned : (s.sval a).toNat % 16 = 0)
  (range : (s.sval a).toNat + 16 ≤ 2 ^ 56) (uc : s.me.uc = none)
include aligned range uc

/-- The first attempt of WAITQ reads HEAD and keeps it (R141). -/
theorem exec_waitq_head (first : s.me.qHead = none) (read : s.rdA s.cur 3 false (s.sval a).toNat 8 = .ok v t) :
    exec (.waitq d a b) s = .next (t.upd fun c => { c with qHead := some (BitVec.ofNat 64 (leNat v)) }) := by
  simp only [exec_waitq_eq, execWaitq, State.notUc, uc, addrFault_aligned_global aligned range, first, read]
  rfl

/-- With HEAD in hand it reads TAIL and compares their distance with its operand. -/
theorem exec_waitq_tail {head : Word} (second : s.me.qHead = some head)
    (read : s.rdA s.cur 3 false ((s.sval a).toNat + 8) 8 = .ok v t) :
    exec (.waitq d a b) s = if (s.sval b).toNat ≤ (BitVec.ofNat 64 (leNat v) - head).toNat then .next (t.issueS 1 id)
      else .next ((t.upd fun c => { c with qHead := none }).waiting (head, BitVec.ofNat 64 (leNat v))) := by
  simp only [exec_waitq_eq, execWaitq, State.notUc, uc, addrFault_aligned_global aligned range, second, read]
  refine if_congr ?_ rfl rfl
  rw [BitVec.ule, decide_eq_true_iff]
  rfl

end

/-- Settles O14: the waits go on when what they read has reached their operand. -/
theorem waitaAndWaitqCompareAndGoOn : Obligations.WaitaAndWaitqCompareAndGoOn := by
  unfold Obligations.WaitaAndWaitqCompareAndGoOn
  refine ⟨fun s d a b sc => ?_, fun s t d a b v => ?_⟩
  · intro off w aligned range tiles open_
    have run := exec_waita_own (d := d) (b := b) (sc := sc) aligned range tiles open_
    refine ⟨fun reached => ⟨_, run.trans (if_pos reached), issued_id s 1⟩, fun below => ?_⟩
    obtain ⟨at_, vals, tried, frame, elsewhere⟩ := s.waiting_spec (BitVec.ofNat 64 w, s.sval b)
    exact ⟨_, run.trans (if_neg (not_le.2 below)), at_, vals, tried, frame, elsewhere⟩
  · intro va x aligned range uc
    refine ⟨fun first read => exec_waitq_head aligned range uc first read, fun head second read => ?_⟩
    have run := exec_waitq_tail (d := d) (b := b) aligned range uc second read
    refine ⟨fun reached => ⟨_, run.trans (if_pos reached), issued_id t 1⟩, fun below => ?_⟩
    let u := t.upd fun c => { c with qHead := none }
    have me : u.me = { t.me with qHead := none } := State.me_upd t _
    obtain ⟨at_, vals, tried, frame, elsewhere⟩ := u.waiting_spec (head, x)
    have kept : (u.waiting (head, x)).me.qHead = none := (congrArg Core.qHead frame).trans (congrArg Core.qHead me)
    rw [me] at at_ frame
    refine ⟨_, run.trans (if_neg (not_le.2 below)), kept, vals, at_, tried, ?_, (Elsewhere.upd t _).trans elsewhere⟩
    exact congrArg (fun c => { c with qHead := t.me.qHead }) frame

end Sys2Proof.Machine

/-! SUPPORT. Requests of the S word to the home of a synchronisation block, and their replies (R146-R151, R221), and the
statement about them. -/

namespace Sys2Proof.Machine

theorem exec_sbarv_eq (d : BitVec 5) (a b : Src) (s : State) : exec (.sbarv d a b) s =
    s.request (s.sval a) 32 true true (fun w c => c.setReg d.toNat w) fun pa dom t =>
      (t.syncSent pa false).toHome s.cur (s.sval a).toNat pa dom (.arrive (s.sval b).toNat) := rfl
theorem exec_sbwait_eq (d : BitVec 5) (a b : Src) (s : State) : exec (.sbwait d a b) s =
    s.request (s.sval a) 32 false false (fun _ => id) fun pa dom t =>
      (t.syncSent pa true).toHome s.cur (s.sval a).toNat pa dom (.wait (s.sval b)) := rfl
theorem exec_ffill_eq (a b : Src) (s : State) : exec (.ffill a b) s =
    s.request (s.sval a) 16 true true (fun _ => id) fun pa dom t =>
      (t.syncSent pa false).toHome s.cur (s.sval a).toNat pa dom (.fill (s.sval b)) := rfl
theorem exec_fget_eq (d : BitVec 5) (a b : Src) (s : State) : exec (.fget d a b) s =
    s.request (s.sval a) 16 false true (fun w c => c.setReg d.toNat w) fun pa dom t =>
      (t.syncSent pa true).toHome s.cur (s.sval a).toNat pa dom .get := rfl
theorem exec_join_eq (a : Src) (s : State) : exec (.join a) s =
    s.request (s.sval a) 64 true true (fun _ => id) fun pa dom t =>
      (t.syncSent pa false).sendJoin s.cur (s.sval a).toNat pa dom false := rfl

section
variable {s : State} {va : Word} {n : Nat} {release wr : Bool} {f : Word → Core → Core} {send : Nat → Nat → State → State}

/-- A bundle that holds a reply takes it (R146, R151). -/
theorem State.request_of_reply {q : SyncReq} {r : Reply} (uc : s.me.uc = none) (sync : s.me.sync = some q)
    (reply : q.reply = some r) (at_ : va.toNat % n = 0 ∧ va.toNat + n ≤ 2 ^ 56) :
    s.request va n release wr f send = s.onReply va r f := by
  simp only [State.request, State.notUc, uc, addrFault_aligned_global at_.1 at_.2, sync, reply]

/-- One that has sent nothing, at a block that it can reach, sends its request. -/
theorem State.request_of_atBlock {pa dom : Nat} {t : State} (h : AtBlock s va n release wr pa dom t) :
    s.request va n release wr f send = .next (send pa dom t) := by
  obtain ⟨aligned, range, _, uc, sync, block, performed, notHeld, routed, sound⟩ := h
  have released : (release && !t.me.performed (scopeMin .pkg (domScope dom))) = false := by
    cases release with
    | false => rfl
    | true => simp [performed rfl]
  simp [State.request, State.notUc, uc, addrFault_aligned_global aligned range, sync, block, released, notHeld, routed, sound]

end

/-! ## Replies -/

/-- A fault at the home is raised at the bundle, whose request is over (R151). -/
theorem State.onReply_fault {s : State} {va w : Word} {c : Cause} {f : Word → Core → Core} (uc : s.me.uc = none)
    (running : s.me.status = .running) :
    ∃ t r, s.onReply va (.fault c w) f = .next t ∧ t.me.call = some (.fault r) ∧ r.cause = c ∧ r.addr = va ∧ r.rpc = s.me.pc
      ∧ t.me.sync = none
      ∧ { t.me with status := s.me.status, call := s.me.call, frozenAt := s.me.frozenAt, sync := s.me.sync } = s.me
      ∧ Elsewhere s.cur s t := by
  let u := s.upd fun c => { c with sync := none }
  have me : u.me = { s.me with sync := none } := State.me_upd s _
  obtain ⟨call, slot, rpc, status, frame, elsewhere⟩ := State.sFault_raised (s := u) (by rw [me]; exact uc) (by rw [me]; exact running)
    c va (if c = .syncFail then s.me.sWord else w) 0 0 0 false
  rw [me] at rpc frame
  exact ⟨_, _, rfl, call, rfl, rfl, rpc, (congrArg Core.sync frame :), congrArg (fun c => { c with sync := s.me.sync }) frame,
    (Elsewhere.upd s _).trans elsewhere⟩

/-! ## Requests -/

/-- A bundle whose request is under way waits. -/
theorem State.waits_syncSent (t : State) (pa : Nat) (wait : Bool) : Waits t (t.syncSent pa wait) pa wait where
  sent := by simp [State.syncSent]
  since := by simp [State.syncSent]
  me := by simp [State.syncSent]
  others := fun _ h => State.core_upd_ne t _ h

theorem Waits.of_cores {t u v : State} {pa : Nat} {wait : Bool} (h : Waits t u pa wait) (cores : v.cores = u.cores)
    (cur : v.cur = u.cur) (fab : v.fab = u.fab) : Waits t v pa wait := by
  have core : ∀ n, v.core n = u.core n := fun n => by simp only [State.core, cores, fab]
  have me : v.me = u.me := by rw [State.me, State.me, cur, core]
  obtain ⟨sent, since, frame, others⟩ := h
  exact ⟨me ▸ sent, me ▸ since, me ▸ frame, fun m hm => (core m).trans (others m hm)⟩

/-- A request that goes to the home of its block changes nothing but the list of requests and the bundle's note. -/
theorem asksHome_of_request {i : Instr} {s t : State} {va : Word} {n pa dom : Nat} {release wr wait : Bool} {op : HomeOp}
    {f : Word → Core → Core}
    (run : exec i s = s.request va n release wr f fun pa dom t => (t.syncSent pa wait).toHome s.cur va.toNat pa dom op)
    (block : AtBlock s va n release wr pa dom t) : AsksHome i s t va pa dom wait op :=
  ⟨_, run.trans (State.request_of_atBlock block), (t.waits_syncSent pa wait).of_cores rfl rfl rfl, rfl, rfl⟩

/-- Settles O15: the words that ask the home of a block, and take its reply. -/
theorem blockRequestsSendAndTakeReplies : Obligations.BlockRequestsSendAndTakeReplies := by
  unfold Obligations.BlockRequestsSendAndTakeReplies
  refine ⟨fun s d a b w q uc sync reply => ?_, fun s d a b c w q uc running sync reply => ?_, fun s t d a b pa dom => ?_⟩
  · have value : ∀ {n release wr f send}, (s.sval a).toNat % n = 0 ∧ (s.sval a).toNat + n ≤ 2 ^ 56 →
        s.request (s.sval a) n release wr f send = .next (s.issueS 1 (f w)) := fun at_ =>
      State.request_of_reply uc sync reply at_
    exact ⟨fun at_ => ⟨givesReg_of_setD ((exec_sbarv_eq d a b s).trans (value at_)), _,
        (exec_sbwait_eq d a b s).trans (value at_), issued_id s 1⟩,
      fun at_ => ⟨givesReg_of_setD ((exec_fget_eq d a b s).trans (value at_)), _, (exec_ffill_eq a b s).trans (value at_),
        issued_id s 1⟩,
      fun at_ => ⟨_, (exec_join_eq a s).trans (value at_), issued_id s 1⟩⟩
  · intro at_ raises
    have raised : ∀ {i : Instr} {n release wr f send}, at_ n → exec i s = s.request (s.sval a) n release wr f send → raises i := by
      intro i n release wr f send h run
      obtain ⟨t, r, reply', rest⟩ := State.onReply_fault (va := s.sval a) (w := w) (c := c) (f := f) uc running
      exact ⟨t, r, (run.trans (State.request_of_reply uc sync reply h)).trans reply', rest⟩
    exact ⟨fun h => ⟨raised h (exec_sbarv_eq d a b s), raised h (exec_sbwait_eq d a b s)⟩,
      fun h => ⟨raised h (exec_fget_eq d a b s), raised h (exec_ffill_eq a b s)⟩, fun h => raised h (exec_join_eq a s)⟩
  · intro at_ asks
    refine ⟨asksHome_of_request rfl, asksHome_of_request rfl, asksHome_of_request rfl, asksHome_of_request rfl, fun h => ?_⟩
    exact ⟨_, _, (exec_join_eq a s).trans (State.request_of_atBlock h), (t.waits_syncSent pa false).of_cores rfl rfl rfl, rfl,
      ⟨rfl, rfl, rfl, rfl, rfl⟩, rfl⟩

end Sys2Proof.Machine

/-! SUPPORT. Reads of several bytes of one line of the L2, and what a write of a domain leaves of cores, requests and bytes
(R77, R78, R253). -/

namespace Sys2Proof.Machine

/-! ## Reads (R78) -/

section
variable {s t : State}

/-- What a domain's copy gives depends on its lines and on memory alone. -/
theorem State.phRead_congr (lines : t.lines = s.lines) (mem : t.mem = s.mem) (dom pa n : Nat) :
    t.phRead dom pa n = s.phRead dom pa n := by
  have same : ({ s with lines := t.lines, mem := t.mem } : State) = s := by rw [lines, mem]
  exact Eq.trans (b := ({ s with lines := t.lines, mem := t.mem } : State).phRead dom pa n) rfl (by rw [same])

theorem State.lineIn_eq (s : State) {dom pa n : Nat} (pos : 0 < n) (h : pa % 128 + n ≤ 128) :
    s.lineIn dom pa n = (s.line? dom (pa / 128)).isSome := by
  rw [Bool.eq_iff_iff, State.lineIn, State.line?, List.find?_isSome, List.any_eq_true]
  refine exists_congr fun l => and_congr_right fun _ => ?_
  simp only [Bool.and_eq_true, beq_iff_eq, decide_eq_true_eq, LineSt.at]
  omega

/-- A read within one line, byte by byte. -/
theorem State.phRead_eq_map (s : State) {dom pa n : Nat} (pos : 0 < n) (h : pa % 128 + n ≤ 128) :
    s.phRead dom pa n = (List.range n).map fun k => s.phByte dom (pa + k) := by
  have inLine : ∀ k, k < n → (pa + k) / 128 = pa / 128 ∧ (pa + k) % 128 = pa % 128 + k := fun k hk => by omega
  unfold State.phRead
  rw [s.lineIn_eq pos h]
  cases line : s.line? dom (pa / 128) with
  | none =>
    simp only [Option.isSome_none, Bool.false_eq_true, if_false, Memory.rdBytes_eq]
    refine List.map_congr_left fun k hk => ?_
    rw [State.phByte, (inLine k (List.mem_range.1 hk)).1, line]
  | some l =>
    simp only [Option.isSome_some, if_true, pieces_one pa n _ pos h, List.map_cons, List.map_nil, List.flatten_cons,
      List.flatten_nil, List.append_nil, State.linePiece, line]
    refine List.ext_getElem (by simp [LineSt.length_piece]) fun k hk _ => ?_
    rw [LineSt.length_piece] at hk
    rw [List.getElem_map, List.getElem_range, State.phByte, (inLine k hk).1, line, (inLine k hk).2]
    have := l.getD_piece (pa % 128) n k hk
    rwa [List.getD_eq_getElem _ _ (by rwa [LineSt.length_piece])] at this

@[simp] theorem State.length_phRead (s : State) {dom pa n : Nat} (pos : 0 < n) (h : pa % 128 + n ≤ 128) :
    (s.phRead dom pa n).length = n := by
  rw [s.phRead_eq_map pos h, List.length_map, List.length_range]

theorem State.phNat_lt (s : State) {dom pa n : Nat} (pos : 0 < n) (h : pa % 128 + n ≤ 128) :
    s.phNat dom pa n < 2 ^ (8 * n) := by
  have := leNat_lt (s.phRead dom pa n)
  rwa [s.length_phRead pos h] at this

end

/-! ## Writes (R77) -/

section
variable (s : State) (dom pa : Nat) (bs : List Byte)

@[simp] theorem State.way_cores (slice line : Nat) : (s.way slice line).cores = s.cores := by
  unfold State.way
  split
  · rfl
  · dsimp only
    split
    · exact State.evict_cores _ _ _
    · rfl

@[simp] theorem State.fill_cores (line : Nat) : (s.fill dom line).cores = s.cores := by
  unfold State.fill
  split
  · rfl
  · exact State.way_cores _ _ _

theorem wrLines_cores (l : List (Nat × Nat)) (bs : List Byte) (s : State) : (wrLines dom l bs s).cores = s.cores := by
  induction l generalizing bs s with
  | nil => rfl
  | cons x r ih => exact (ih _ _).trans (s.fill_cores dom (x.1 / 128))

@[simp] theorem State.phWrite_cores : (s.phWrite dom pa bs).cores = s.cores := wrLines_cores dom _ bs s

@[simp] theorem State.phByte_markStale (n q x : Nat) : (s.markStale pa n).phByte q x = s.phByte q x := by
  unfold State.markStale
  split <;> rfl

/-- A write that its home has applied. -/
def State.applied : State := (s.phWrite dom pa bs).markStale pa bs.length

theorem State.performs_applied : s.Performs (s.applied dom pa bs) :=
  (State.Performs.phWrite ..).trans (.markStale ..)

@[simp] theorem State.applied_cores : (s.applied dom pa bs).cores = s.cores := by simp [State.applied]

variable {s dom pa bs} (room : s.room dom pa = true) (line : pa % 128 + bs.length ≤ 128)
include room line

theorem State.phByte_applied (q x : Nat) : (s.applied dom pa bs).phByte q x =
    if q = dom ∧ pa ≤ x ∧ x < pa + bs.length then bs.getD (x - pa) 0 else s.phByte q x := by
  rw [State.applied, State.phByte_markStale, s.phByte_phWrite dom pa bs room line]

/-- Bytes outside those written read as before. -/
theorem State.phRead_applied_outside {q x : Nat} (h : x < pa ∨ pa + bs.length ≤ x) :
    (s.applied dom pa bs).phRead q x 1 = s.phRead q x 1 := by
  rw [State.phRead_one, State.phRead_one, State.phByte_applied room line, if_neg (by omega)]

/-- A run of the bytes written reads as it was written. -/
theorem State.phRead_applied_inside {l m r : List Byte} (parts : bs = l ++ (m ++ r)) (pos : m ≠ []) :
    (s.applied dom pa bs).phRead dom (pa + l.length) m.length = m := by
  have size : bs.length = l.length + (m.length + r.length) := by rw [parts, List.length_append, List.length_append]
  have pos' : 0 < m.length := List.length_pos_iff.2 pos
  rw [State.phRead_eq_map _ pos' (by omega)]
  refine List.ext_getElem (by simp) fun k hk hm => ?_
  rw [List.getElem_map, List.getElem_range, State.phByte_applied room line, if_pos ⟨rfl, by omega, by omega⟩, parts,
    show pa + l.length + k - pa = l.length + k by omega, List.getD_append_right _ _ _ _ (by omega), Nat.add_sub_cancel_left,
    List.getD_append _ _ _ _ hm, List.getD_eq_getElem _ _ hm]

/-- A little-endian field of the bytes written. -/
theorem State.phNat_applied {off n v : Nat} (pos : 0 < n) (field : (bs.drop off).take n = leBytes n v) :
    (s.applied dom pa bs).phNat dom (pa + off) n = v % 2 ^ (8 * n) := by
  have long : off + n ≤ bs.length := by
    have := congrArg List.length field
    rw [List.length_take, List.length_drop, length_leBytes] at this
    omega
  have parts : bs = bs.take off ++ (leBytes n v ++ (bs.drop off).drop n) := by
    rw [← field, List.take_append_drop, List.take_append_drop]
  have read := State.phRead_applied_inside room line parts (by rw [← List.length_pos_iff, length_leBytes]; exact pos)
  rw [length_leBytes, List.length_take, Nat.min_eq_left (by omega)] at read
  rw [State.phNat, read, leNat_leBytes]

end

theorem State.Performs.fab {s t : State} (h : s.Performs t) : t.fab = s.fab := by
  have e := congrArg State.fab (show t = s.performedAs t from h)
  exact e

theorem State.Performs.parks {s t : State} (h : s.Performs t) : t.cp.parks = s.cp.parks := by
  have e := congrArg (fun x => x.cp.parks) (show t = s.performedAs t from h)
  exact e

theorem State.Performs.posts {s t : State} (h : s.Performs t) : t.cp.posts = s.cp.posts := by
  have e := congrArg (fun x => x.cp.posts) (show t = s.performedAs t from h)
  exact e

theorem State.core_of_performs {s t : State} (h : s.Performs t) (cores : t.cores = s.cores) (n : Nat) : t.core n = s.core n := by
  simp only [State.core, cores, h.fab]

end Sys2Proof.Machine

/-! SUPPORT. The home step of a synchronisation block with one request under way (R144-R150), and the statement about it. -/

namespace Sys2Proof.Machine

/-! ## Replies (R146, R147, R150) -/

/-- Between `s` and `t` cores and other devices have been answered, and nothing else has happened. -/
def State.Answers (s t : State) : Prop := t = { s with cores := t.cores, fab := t.fab }

theorem State.Answers.trans {s t u : State} (h : s.Answers t) (k : t.Answers u) : s.Answers u := by
  have e := congrArg (fun x : State => { x with cores := u.cores, fab := u.fab }) (show t = { s with cores := t.cores, fab := t.fab } from h)
  exact Eq.trans k e

theorem State.Answers.cp {s t : State} (h : s.Answers t) : t.cp = s.cp := by
  have e := congrArg State.cp (show t = { s with cores := t.cores, fab := t.fab } from h)
  exact e

theorem State.Answers.phRead {s t : State} (h : s.Answers t) (dom pa n : Nat) : t.phRead dom pa n = s.phRead dom pa n := by
  have lines := congrArg State.lines (show t = { s with cores := t.cores, fab := t.fab } from h)
  have mem := congrArg State.mem (show t = { s with cores := t.cores, fab := t.fab } from h)
  exact State.phRead_congr lines mem dom pa n

theorem State.Answers.phNat {s t : State} (h : s.Answers t) (dom pa n : Nat) : t.phNat dom pa n = s.phNat dom pa n :=
  congrArg leNat (h.phRead dom pa n)

section
variable (s : State) (n : Nat) (r : Reply)

theorem State.reply_answers : s.Answers (s.reply n r) := by
  unfold State.reply State.replyAway
  split
  · rfl
  · split <;> rfl

theorem State.reply_of_core (core : n < 88) :
    s.reply n r = s.updCore n fun c => { c with sync := c.sync.map fun q => { q with reply := some r }, tried := false } :=
  if_pos core

/-- The bundle of a core has its reply. -/
theorem State.replied_reply (core : n < 88) : Replied s (s.reply n r) n r := by
  rw [s.reply_of_core n r core]
  exact ⟨by rw [State.core_updCore_same], by rw [State.core_updCore_same], fun m hm => s.core_updCore_ne _ hm⟩

/-- A state with a changed set of parked requests. -/
def State.withParks (l : List Park) : State := { s with cp := { s.cp with parks := l } }

variable (fut : Bool) (dom pa : Nat) (v : Word)

/-- The requests parked on a block are answered and leave its set. -/
theorem State.wake_answers : (s.withParks (s.cp.parks.filter fun p => !p.on fut dom pa)).Answers (s.wake fut dom pa v) := by
  unfold State.wake
  dsimp only
  generalize s.cp.parks.filter (fun p => p.on fut dom pa) = woken
  rw [State.withParks]
  generalize ({ s with cp := { s.cp with parks := s.cp.parks.filter fun p => !p.on fut dom pa } } : State) = t
  induction woken generalizing t with
  | nil => rfl
  | cons x l ih => exact (t.reply_answers x.core (.value v)).trans (ih _)

theorem State.wake_phRead (q x k : Nat) : (s.wake fut dom pa v).phRead q x k = s.phRead q x k :=
  (s.wake_answers fut dom pa v).phRead q x k

theorem State.wake_posts : (s.wake fut dom pa v).cp.posts = s.cp.posts := by
  rw [(s.wake_answers fut dom pa v).cp]; rfl

/-- No request stays parked on the block. -/
theorem State.wake_parks {q : Park} (h : q ∈ (s.wake fut dom pa v).cp.parks) (kind : q.fut = fut) (at_ : q.pa = pa) :
    q.dom ≠ dom := by
  rw [(s.wake_answers fut dom pa v).cp] at h
  rintro rfl
  have := (List.mem_filter.1 h).2
  simp [Park.on, kind, at_] at this

end

/-! ## A request that its home takes -/

/-- The list of requests is empty. -/
def State.taken (s : State) : State := { s with cp := { s.cp with posts := [] } }

/-- The only request under way is the next one. -/
theorem State.nextAt_single {s : State} {p : BarPost} (posts : s.cp.posts = [p]) : s.nextAt p.pa = some p := by
  have here : (s.cp.posts.filter fun q => q.pa == p.pa) = [p] := by simp [posts]
  unfold State.nextAt
  cases last : p.op.last <;> cases fill : p.op.isFill <;> simp [here, last, fill]

section
variable {s u : State} {p : BarPost} (posts : s.cp.posts = [p]) (ready : s.homeReady p.core p.dom p.pa 32 = .ok () u)
  (kept : u.cp.posts = [p])
include posts ready kept

theorem exec_sbarHomeStep_wait {b : Word} (op : p.op = .wait b) : exec (.sbarHomeStep p.pa) s = .next (u.taken.homeWait p b) := by
  rw [show exec (.sbarHomeStep p.pa) s = execSbarHomeStep p.pa s from rfl]
  simp [execSbarHomeStep, State.nextAt_single posts, ready, op, kept, State.taken]

theorem exec_sbarHomeStep_fill {v : Word} (op : p.op = .fill v) : exec (.sbarHomeStep p.pa) s = .next (u.taken.homeFill p v) := by
  rw [show exec (.sbarHomeStep p.pa) s = execSbarHomeStep p.pa s from rfl]
  simp [execSbarHomeStep, State.nextAt_single posts, ready, op, kept, State.taken]

theorem exec_sbarHomeStep_get (op : p.op = .get) : exec (.sbarHomeStep p.pa) s = .next (u.taken.homeGet p) := by
  rw [show exec (.sbarHomeStep p.pa) s = execSbarHomeStep p.pa s from rfl]
  simp [execSbarHomeStep, State.nextAt_single posts, ready, op, kept, State.taken]

theorem exec_sbarHomeStep_arrive {k : Nat} (op : p.op = .arrive k) :
    exec (.sbarHomeStep p.pa) s = .next (u.taken.barStep p.dom p.pa [p]) := by
  rw [show exec (.sbarHomeStep p.pa) s = execSbarHomeStep p.pa s from rfl]
  simp [execSbarHomeStep, State.nextAt_single posts, ready, op, kept, State.taken, HomeOp.arrivals]

end

/-! ## What parks at a block -/

/-- A request that its home parks stands in its set, with its bundle's note of it, and no byte changes. -/
def State.parked (s : State) (p : BarPost) (fut : Bool) : State :=
  { s.park p.core with cp := { s.cp with parks := s.cp.parks ++ [{ pa := p.pa, dom := p.dom, core := p.core, fut := fut }] } }

theorem State.parksAt_parked (s : State) (p : BarPost) (fut : Bool) (core : p.core < 88) : ParksAt s (s.parked p fut) p fut := by
  have noted : s.park p.core = s.updCore p.core fun c => { c with sync := c.sync.map fun q => { q with parked := true } } :=
    if_pos core
  have same : ∀ n, (s.parked p fut).core n = (s.park p.core).core n := fun _ => rfl
  refine ⟨rfl, ?_, ?_, fun m hm => ?_⟩ <;> rw [same, noted]
  · rw [State.core_updCore_same]
  · rw [State.core_updCore_same]
  · exact s.core_updCore_ne _ hm

theorem State.parked_answers (s : State) (p : BarPost) (fut : Bool) :
    (s.withParks (s.cp.parks ++ [{ pa := p.pa, dom := p.dom, core := p.core, fut := fut }])).Answers (s.parked p fut) := by
  unfold State.parked State.park
  split <;> rfl

/-! ## The steps (R145, R147, R149, R150) -/

section
variable (s : State) (p : BarPost)

theorem State.homeWait_of_ne {b : Word} (h : BitVec.ofNat 64 (s.phNat p.dom p.pa 8) ≠ b) :
    s.homeWait p b = s.reply p.core (.value (BitVec.ofNat 64 (s.phNat p.dom p.pa 8))) := if_pos h

theorem State.homeWait_of_eq {b : Word} (h : BitVec.ofNat 64 (s.phNat p.dom p.pa 8) = b) : s.homeWait p b = s.parked p false :=
  if_neg (not_not.2 h)

theorem State.homeFill_of_empty {v : Word} (h : s.phNat p.dom (p.pa + 8) 8 = 0 ∨ s.phNat p.dom (p.pa + 8) 8 = 2) :
    s.homeFill p v = ((s.applied p.dom p.pa (le8 v.toNat ++ le8 1)).wake true p.dom p.pa v).reply p.core (.value v) :=
  if_neg (by rcases h with h | h <;> simp [futBad, h])

theorem State.homeFill_of_full {v : Word} (h : s.phNat p.dom (p.pa + 8) 8 = 1 ∨ 3 ≤ s.phNat p.dom (p.pa + 8) 8) :
    s.homeFill p v = s.reply p.core (.fault .futureState 0) :=
  if_pos (by simpa [futBad, or_comm] using h)

theorem State.homeGet_of_full (h : s.phNat p.dom (p.pa + 8) 8 = 1) :
    s.homeGet p = s.reply p.core (.value (BitVec.ofNat 64 (s.phNat p.dom p.pa 8))) :=
  (if_neg (by simp [futBad, h])).trans (if_pos h)

theorem State.homeGet_of_empty (h : s.phNat p.dom (p.pa + 8) 8 = 0 ∨ s.phNat p.dom (p.pa + 8) 8 = 2) :
    s.homeGet p = (s.applied p.dom (p.pa + 8) (le8 2)).parked p true :=
  (if_neg (by rcases h with h | h <;> simp [futBad, h])).trans (if_neg (by rcases h with h | h <;> simp [h]))

theorem State.homeGet_of_bad (h : 3 ≤ s.phNat p.dom (p.pa + 8) 8) : s.homeGet p = s.reply p.core (.fault .futureState 0) :=
  if_pos (by simpa [futBad] using h)

/-- The block that a stage barrier's home step writes: PHASE, ARRIVE_COUNT, ARRIVE_LEFT, BYTE_COUNT and BYTE_LEFT. -/
def State.barBlock (phase left bytes : Nat) : List Byte :=
  le8 (phase % 2 ^ 64) ++ leBytes 4 (s.phNat p.dom (p.pa + 8) 4) ++ leBytes 4 left ++ le8 (s.phNat p.dom (p.pa + 16) 8) ++ le8 bytes

theorem State.length_barBlock (phase left bytes : Nat) : (s.barBlock p phase left bytes).length = 32 := by
  simp [State.barBlock, le8]

variable {s p} {k : Nat} (op : p.op = .arrive k)
include op

/-- The last arrival: PHASE advances, the counts are reloaded, and whoever waits is answered (R145). -/
theorem State.barStep_last (pos : 0 < k) (last : s.phNat p.dom (p.pa + 12) 4 = k) (bytes : s.phNat p.dom (p.pa + 24) 8 = 0) :
    s.barStep p.dom p.pa [p] =
      ((s.applied p.dom p.pa (s.barBlock p (s.phNat p.dom p.pa 8 + 1) (s.phNat p.dom (p.pa + 8) 4) (s.phNat p.dom (p.pa + 16) 8))).reply
        p.core (.value (w64 (s.phNat p.dom p.pa 8)))).wake false p.dom p.pa (w64 (s.phNat p.dom p.pa 8 + 1)) := by
  simp [State.barStep, op, HomeOp.arrivals, HomeOp.byteCount, pos, last, bytes, State.applied, State.barBlock, le8]

/-- Another arrival: ARRIVE_LEFT falls. -/
theorem State.barStep_more (pos : 0 < k) (within : k ≤ s.phNat p.dom (p.pa + 12) 4)
    (more : ¬ (s.phNat p.dom (p.pa + 12) 4 - k = 0 ∧ s.phNat p.dom (p.pa + 24) 8 = 0)) :
    s.barStep p.dom p.pa [p] =
      (s.applied p.dom p.pa (s.barBlock p (s.phNat p.dom p.pa 8) (s.phNat p.dom (p.pa + 12) 4 - k) (s.phNat p.dom (p.pa + 24) 8))).reply
        p.core (.value (w64 (s.phNat p.dom p.pa 8))) := by
  simp [State.barStep, op, HomeOp.arrivals, HomeOp.byteCount, pos, within, more, State.applied, State.barBlock, le8]

/-- A larger arrival is refused. -/
theorem State.barStep_over (larger : s.phNat p.dom (p.pa + 12) 4 < k) :
    s.barStep p.dom p.pa [p] = s.reply p.core (.fault .sbarOverrun 0) := by
  simp [State.barStep, op, HomeOp.arrivals, HomeOp.byteCount, not_le.2 larger]

end

/-! ## What the home's write leaves of a block (R144, R148) -/

/-- After a step of a stage barrier its PHASE, ARRIVE_LEFT and BYTE_LEFT are as given, its counts and all other bytes as before. -/
def State.BarLeft (s t : State) (p : BarPost) (phase left bytes : Nat) : Prop :=
  t.phNat p.dom (p.pa + 0) 8 = phase ∧ t.phNat p.dom (p.pa + 12) 4 = left ∧ t.phNat p.dom (p.pa + 24) 8 = bytes
    ∧ t.phNat p.dom (p.pa + 8) 4 = s.phNat p.dom (p.pa + 8) 4 ∧ t.phNat p.dom (p.pa + 16) 8 = s.phNat p.dom (p.pa + 16) 8
    ∧ ∀ q x, x < p.pa ∨ p.pa + 32 ≤ x → t.phRead q x 1 = s.phRead q x 1

section
variable {s : State} {p : BarPost}

theorem State.BarLeft.congr {t v : State} {phase left bytes : Nat} (h : s.BarLeft t p phase left bytes)
    (same : ∀ dom pa n, v.phRead dom pa n = t.phRead dom pa n) : s.BarLeft v p phase left bytes := by
  unfold State.BarLeft State.phNat at *
  simpa only [same] using h

variable (room : s.room p.dom p.pa = true)
include room

theorem State.barLeft_applied (aligned : p.pa % 32 = 0) {phase left bytes : Nat} (hleft : left < 2 ^ 32) (hbytes : bytes < 2 ^ 64) :
    s.BarLeft (s.applied p.dom p.pa (s.barBlock p phase left bytes)) p (phase % 2 ^ 64) left bytes := by
  have size := s.length_barBlock p phase left bytes
  have line : p.pa % 128 + (s.barBlock p phase left bytes).length ≤ 128 := by omega
  have count : s.phNat p.dom (p.pa + 8) 4 < 2 ^ 32 := s.phNat_lt (by decide) (by omega)
  have bcount : s.phNat p.dom (p.pa + 16) 8 < 2 ^ 64 := s.phNat_lt (by decide) (by omega)
  refine ⟨?_, ?_, ?_, ?_, ?_, fun q x h => State.phRead_applied_outside room line (by omega)⟩
  · rw [State.phNat_applied room line (v := phase % 2 ^ 64) (by decide) rfl, Nat.mod_mod]
  · rw [State.phNat_applied room line (v := left) (by decide) rfl, Nat.mod_eq_of_lt hleft]
  · rw [State.phNat_applied room line (v := bytes) (by decide) rfl, Nat.mod_eq_of_lt hbytes]
  · rw [State.phNat_applied room line (v := s.phNat p.dom (p.pa + 8) 4) (by decide) rfl, Nat.mod_eq_of_lt count]
  · rw [State.phNat_applied room line (v := s.phNat p.dom (p.pa + 16) 8) (by decide) rfl, Nat.mod_eq_of_lt bcount]

variable (aligned : p.pa % 16 = 0)
include aligned

/-- A future that has been filled (R149). -/
theorem State.read_filled (v : Word) :
    let t := s.applied p.dom p.pa (le8 v.toNat ++ le8 1)
    t.phNat p.dom (p.pa + 0) 8 = v.toNat ∧ t.phNat p.dom (p.pa + 8) 8 = 1
      ∧ ∀ q x, x < p.pa ∨ p.pa + 16 ≤ x → t.phRead q x 1 = s.phRead q x 1 := by
  have size : (le8 v.toNat ++ le8 1).length = 16 := by simp [le8]
  have line : p.pa % 128 + (le8 v.toNat ++ le8 1).length ≤ 128 := by omega
  refine ⟨?_, ?_, fun q x h => State.phRead_applied_outside room line (by omega)⟩
  · rw [State.phNat_applied room line (v := v.toNat) (by decide) rfl, Nat.mod_eq_of_lt v.isLt]
  · exact State.phNat_applied room line (v := 1) (by decide) rfl

/-- A future with a requester parked (R150). -/
theorem State.read_parked :
    let t := s.applied p.dom (p.pa + 8) (le8 2)
    t.phNat p.dom (p.pa + 8) 8 = 2 ∧ ∀ q x, x < p.pa + 8 ∨ p.pa + 16 ≤ x → t.phRead q x 1 = s.phRead q x 1 := by
  have room' : s.room p.dom (p.pa + 8) = true := by
    rwa [State.room, show (p.pa + 8) / 128 = p.pa / 128 by omega]
  have line : (p.pa + 8) % 128 + (le8 2).length ≤ 128 := by simp [le8]; omega
  refine ⟨?_, fun q x h => State.phRead_applied_outside room' line (by simp [le8]; omega)⟩
  exact State.phNat_applied room' line (off := 0) (v := 2) (by decide) rfl

end

/-! ## Each step in full -/

section
variable (s : State) (dom pa : Nat) (bs : List Byte)

@[simp] theorem State.applied_posts : (s.applied dom pa bs).cp.posts = s.cp.posts := (s.performs_applied ..).posts
@[simp] theorem State.applied_parks : (s.applied dom pa bs).cp.parks = s.cp.parks := (s.performs_applied ..).parks
@[simp] theorem State.applied_core (n : Nat) : (s.applied dom pa bs).core n = s.core n :=
  State.core_of_performs (s.performs_applied ..) (State.applied_cores ..) n

end

section
variable {s : State} {p : BarPost} (room : s.room p.dom p.pa = true)
include room

theorem State.barStep_last_spec {k : Nat} (op : p.op = .arrive k) (aligned : p.pa % 32 = 0) (pos : 0 < k)
    (last : s.phNat p.dom (p.pa + 12) 4 = k) (bytes : s.phNat p.dom (p.pa + 24) 8 = 0) :
    let t := s.barStep p.dom p.pa [p]
    t.cp.posts = s.cp.posts
      ∧ s.BarLeft t p ((s.phNat p.dom p.pa 8 + 1) % 2 ^ 64) (s.phNat p.dom (p.pa + 8) 4) (s.phNat p.dom (p.pa + 16) 8)
      ∧ ∀ q, q ∈ t.cp.parks → q.fut = false → q.pa = p.pa → q.dom ≠ p.dom := by
  have block := State.barLeft_applied room aligned (phase := s.phNat p.dom p.pa 8 + 1)
    (s.phNat_lt (dom := p.dom) (by decide) (show (p.pa + 8) % 128 + 4 ≤ 128 by omega))
    (s.phNat_lt (dom := p.dom) (by decide) (show (p.pa + 16) % 128 + 8 ≤ 128 by omega))
  intro t
  rw [show t = _ from State.barStep_last op pos last bytes]
  generalize s.barBlock p _ _ _ = bs at block
  refine ⟨?_, block.congr fun dom pa n => ?_, fun q h => State.wake_parks _ _ _ _ _ h⟩
  · rw [State.wake_posts, (State.reply_answers ..).cp, State.applied_posts]
  · exact (State.wake_phRead ..).trans ((State.reply_answers ..).phRead ..)

theorem State.barStep_more_spec {k : Nat} (op : p.op = .arrive k) (aligned : p.pa % 32 = 0) (core : p.core < 88) (pos : 0 < k)
    (within : k ≤ s.phNat p.dom (p.pa + 12) 4)
    (more : ¬ (s.phNat p.dom (p.pa + 12) 4 - k = 0 ∧ s.phNat p.dom (p.pa + 24) 8 = 0)) :
    let t := s.barStep p.dom p.pa [p]
    t.cp.posts = s.cp.posts
      ∧ s.BarLeft t p (s.phNat p.dom p.pa 8) (s.phNat p.dom (p.pa + 12) 4 - k) (s.phNat p.dom (p.pa + 24) 8)
      ∧ t.cp.parks = s.cp.parks ∧ Replied s t p.core (.value (w64 (s.phNat p.dom p.pa 8))) := by
  have phase : s.phNat p.dom p.pa 8 % 2 ^ 64 = s.phNat p.dom p.pa 8 := Nat.mod_eq_of_lt (s.phNat_lt (dom := p.dom) (by decide) (by omega))
  have left : s.phNat p.dom (p.pa + 12) 4 < 2 ^ 32 := s.phNat_lt (by decide) (by omega)
  have block := State.barLeft_applied room aligned (phase := s.phNat p.dom p.pa 8)
    (show s.phNat p.dom (p.pa + 12) 4 - k < 2 ^ 32 by omega)
    (s.phNat_lt (dom := p.dom) (by decide) (show (p.pa + 24) % 128 + 8 ≤ 128 by omega))
  rw [phase] at block
  intro t
  rw [show t = _ from State.barStep_more op pos within more]
  generalize s.barBlock p _ _ _ = bs at block
  have answers := (s.applied p.dom p.pa bs).reply_answers p.core (.value (w64 (s.phNat p.dom p.pa 8)))
  refine ⟨by rw [answers.cp, State.applied_posts], block.congr answers.phRead, by rw [answers.cp, State.applied_parks], ?_⟩
  simpa only [Replied, State.applied_core] using (s.applied p.dom p.pa bs).replied_reply p.core _ core

variable (aligned : p.pa % 16 = 0)
include aligned

theorem State.homeFill_spec {v : Word} (empty : s.phNat p.dom (p.pa + 8) 8 = 0 ∨ s.phNat p.dom (p.pa + 8) 8 = 2) :
    let t := s.homeFill p v
    t.cp.posts = s.cp.posts ∧ t.phNat p.dom (p.pa + 0) 8 = v.toNat ∧ t.phNat p.dom (p.pa + 8) 8 = 1
      ∧ (∀ q, q ∈ t.cp.parks → q.fut = true → q.pa = p.pa → q.dom ≠ p.dom)
      ∧ ∀ q x, x < p.pa ∨ p.pa + 16 ≤ x → t.phRead q x 1 = s.phRead q x 1 := by
  obtain ⟨value, full, rest⟩ := State.read_filled room aligned v
  intro t
  rw [show t = _ from s.homeFill_of_empty p empty]
  generalize le8 v.toNat ++ le8 1 = bs at value full rest
  have answers := ((s.applied p.dom p.pa bs).wake true p.dom p.pa v).reply_answers p.core (.value v)
  have same : ∀ q x n, _ = (s.applied p.dom p.pa bs).phRead q x n := fun q x n =>
    (answers.phRead q x n).trans (State.wake_phRead ..)
  refine ⟨by rw [answers.cp, State.wake_posts, State.applied_posts], ?_, ?_, fun q h => ?_, fun q x h => (same q x 1).trans (rest q x h)⟩
  · exact (congrArg leNat (same ..)).trans value
  · exact (congrArg leNat (same ..)).trans full
  · rw [answers.cp] at h
    exact State.wake_parks _ _ _ _ _ h

theorem State.homeGet_spec (core : p.core < 88)
    (empty : s.phNat p.dom (p.pa + 8) 8 = 0 ∨ s.phNat p.dom (p.pa + 8) 8 = 2) :
    let t := s.homeGet p
    t.cp.posts = s.cp.posts ∧ ParksAt s t p true ∧ t.phNat p.dom (p.pa + 8) 8 = 2
      ∧ ∀ q x, x < p.pa + 8 ∨ p.pa + 16 ≤ x → t.phRead q x 1 = s.phRead q x 1 := by
  obtain ⟨state, rest⟩ := State.read_parked room aligned
  intro t
  rw [show t = _ from s.homeGet_of_empty p empty]
  generalize le8 2 = bs at state rest
  have answers := (s.applied p.dom (p.pa + 8) bs).parked_answers p true
  refine ⟨?_, ?_, (answers.phNat ..).trans state, fun q x h => (answers.phRead ..).trans (rest q x h)⟩
  · rw [answers.cp]
    exact State.applied_posts ..
  · simpa only [ParksAt, State.applied_core, State.applied_parks] using
      (s.applied p.dom (p.pa + 8) bs).parksAt_parked p true core

end

/-! ## The statement -/

/-- Settles O16: what the home of a block does with the one request that stands at it. -/
theorem stageBarrierHomeStep : Obligations.StageBarrierHomeStep := by
  unfold Obligations.StageBarrierHomeStep
  intro s u p posts core ready room kept
  extract_lets rd goes unchanged phase st
  let u' := u.taken
  have room' : u'.room p.dom p.pa = true := room
  have answered : ∀ r, (u'.reply p.core r).cp.posts = [] ∧ Replied u (u'.reply p.core r) p.core r
      ∧ unchanged (u'.reply p.core r) ∧ (u'.reply p.core r).cp.parks = u.cp.parks := fun r => by
    have answers := u'.reply_answers p.core r
    exact ⟨by rw [answers.cp]; rfl, u'.replied_reply p.core r core, fun q x => answers.phRead q x 1, by rw [answers.cp]; rfl⟩
  refine ⟨fun k op aligned => ?_, fun b op => ?_, fun v op aligned => ?_, fun op aligned => ?_⟩
  · extract_lets left last
    have run := exec_sbarHomeStep_arrive posts ready kept op
    refine ⟨fun pos within => ⟨_, run, ?_⟩, fun larger => ?_⟩
    · by_cases ends : last
      · have ⟨arrived, noBytes⟩ := ends
        obtain ⟨gone, ⟨p0, p12, p24, p8, p16, rest⟩, parks⟩ :=
          State.barStep_last_spec room' op aligned pos (show rd u 12 4 = k by omega) noBytes
        exact ⟨gone, fun _ => ⟨p0, p12, p24, parks⟩, fun more => absurd ends more, p8, p16, rest⟩
      · obtain ⟨gone, ⟨p0, p12, p24, p8, p16, rest⟩, parks, replied⟩ :=
          State.barStep_more_spec room' op aligned core pos within ends
        exact ⟨gone, fun lasts => absurd lasts ends, fun _ => ⟨p0, p12, p24, parks, replied⟩, p8, p16, rest⟩
    · obtain ⟨gone, replied, bytes, parks⟩ := answered (.fault .sbarOverrun 0)
      exact ⟨_, run.trans (congrArg _ (State.barStep_over (s := u') op larger)), gone, replied, bytes, parks⟩
  · have run := exec_sbarHomeStep_wait posts ready kept op
    refine ⟨fun differs => ?_, fun same => ?_⟩
    · obtain ⟨gone, replied, bytes, parks⟩ := answered (.value phase)
      exact ⟨_, run.trans (congrArg _ (u'.homeWait_of_ne p differs)), gone, replied, bytes, parks⟩
    · refine ⟨_, run.trans (congrArg _ (u'.homeWait_of_eq p same)), rfl, u'.parksAt_parked p false core, fun q x => ?_⟩
      exact (u'.parked_answers p false).phRead q x 1
  · have run := exec_sbarHomeStep_fill posts ready kept op
    refine ⟨fun empty => ⟨_, run, State.homeFill_spec room' aligned empty⟩, fun full => ?_⟩
    obtain ⟨gone, replied, bytes, parks⟩ := answered (.fault .futureState 0)
    exact ⟨_, run.trans (congrArg _ (u'.homeFill_of_full p full)), gone, replied, bytes, parks⟩
  · have run := exec_sbarHomeStep_get posts ready kept op
    refine ⟨fun full => ?_, fun empty => ⟨_, run, State.homeGet_spec room' aligned core empty⟩, fun bad => ?_⟩
    · obtain ⟨gone, replied, bytes, parks⟩ := answered (.value phase)
      exact ⟨_, run.trans (congrArg _ (u'.homeGet_of_full p full)), gone, replied, bytes, parks⟩
    · obtain ⟨gone, replied, bytes, parks⟩ := answered (.fault .futureState 0)
      exact ⟨_, run.trans (congrArg _ (u'.homeGet_of_bad p bad)), gone, replied, bytes, parks⟩

end Sys2Proof.Machine

/-! SUPPORT. Accesses of a core to global memory outside windows (R27, R77, R90, R135, R137): what a use of a line and an
update at the home leave, how an attempt gets there, and the statement about loads, stores and atomics. -/

namespace Sys2Proof.Machine

/-! ## A core that uses a line (R254, R256) -/

/-- Between `s` and `t` no core has changed, except that core `n` has learnt where lines stand. -/
def State.Learns (s t : State) (n : Nat) : Prop :=
  (∃ known, t.core n = { s.core n with locator := known }) ∧ ∀ m, m ≠ n → t.core m = s.core m

theorem State.Learns.of_same {s t : State} (n : Nat) (h : ∀ m, t.core m = s.core m) : s.Learns t n :=
  ⟨⟨_, h n⟩, fun m _ => h m⟩

theorem State.Learns.after_same {s t u : State} {n : Nat} (h : t.Learns u n) (same : ∀ m, t.core m = s.core m) : s.Learns u n := by
  simpa only [State.Learns, same] using h

theorem State.Learns.then_same {s t u : State} {n : Nat} (h : s.Learns t n) (same : ∀ m, u.core m = t.core m) : s.Learns u n := by
  simpa only [State.Learns, same] using h

section
variable {s : State} {dom line : Nat}

/-- A line that a copy takes from memory has no count. -/
theorem State.rc_fill (room : s.room dom (128 * line) = true) (rc : ∀ l, l ∈ s.lines → l.rc = none) :
    ∀ l, l ∈ (s.fill dom line).lines → l.rc = none := by
  unfold State.fill
  split
  · exact rc
  · next absent =>
    have way : s.hasWay (homeSlice dom (128 * line)) line = true := by
      simpa [State.room, show 128 * line / 128 = line by omega, absent] using room
    simp only [State.way, way, if_true]
    intro l hl
    rcases List.mem_append.1 hl with old | new
    · exact rc l old
    · rw [List.mem_singleton.1 new]

theorem State.rc_of_line? {l : LineSt} (rc : ∀ l, l ∈ s.lines → l.rc = none) (found : s.line? dom line = some l) : l.rc = none :=
  rc l (List.mem_of_find?_eq_some found)

/-- A line of which everything but its bytes is replaced. -/
theorem State.phByte_updLine_used {l m : LineSt} (found : s.line? dom line = some l) (hdom : m.dom = l.dom)
    (hline : m.line = l.line) (data : m.data = l.data) (q x : Nat) :
    (s.updLine dom line fun _ => m).phByte q x = s.phByte q x := by
  have at_ : m.at dom line = true := by
    rw [LineSt.at_iff, hdom, hline]
    exact State.line?_at found
  unfold State.phByte
  rw [s.line?_updLine dom line _ fun _ _ => at_]
  by_cases here : q = dom ∧ x / 128 = line
  · simp only [here, found, and_self, if_true, Option.map_some, data]
  · rw [if_neg here]
    rfl

variable {pa : Nat}

theorem State.room_line : s.room dom (128 * (pa / 128)) = s.room dom pa := by
  rw [State.room, State.room, show 128 * (pa / 128) / 128 = pa / 128 by omega]

/-- A line that is used, with no count that it runs out of, keeps its bytes, and only its core notes where it is. -/
theorem State.touchLine_spec (n : Nat) (wr : Bool) (room : s.room dom pa = true)
    (counted : wr = false → ∀ l, l ∈ s.lines → l.rc = none) :
    (∀ q x, (s.touchLine n dom pa wr).phByte q x = s.phByte q x) ∧ s.Learns (s.touchLine n dom pa wr) n := by
  rw [← State.room_line] at room
  have bytes := s.phByte_fill dom (pa / 128) room
  have rc : wr = false → ∀ l, l ∈ (s.fill dom (pa / 128)).lines → l.rc = none := fun h => State.rc_fill room (counted h)
  have cores : ∀ m, (s.fill dom (pa / 128)).core m = s.core m := State.core_of_performs (.fill ..) (s.fill_cores ..)
  unfold State.touchLine
  dsimp only
  generalize s.fill dom (pa / 128) = u at bytes rc cores
  cases found : u.line? dom (pa / 128) with
  | none => exact ⟨bytes, .of_same n cores⟩
  | some l =>
    have nil : (if wr = true then none else Option.map (fun k => k - 1) l.rc) = none := by
      cases wr with
      | true => rfl
      | false => simp [State.rc_of_line? (rc rfl) found]
    dsimp only
    rw [nil, if_neg (by simp)]
    generalize known : (if n < 88 ∧ l.slice ≠ homeSlice dom (128 * (pa / 128)) then _ else u) = v
    have learns : u.Learns v n ∧ (∀ q x, v.phByte q x = u.phByte q x) ∧ v.line? dom (pa / 128) = some l := by
      rw [← known]
      split
      · exact ⟨⟨⟨_, u.core_updCore_same n _⟩, fun m hm => u.core_updCore_ne _ hm⟩, fun _ _ => rfl, found⟩
      · exact ⟨.of_same n fun _ => rfl, fun _ _ => rfl, found⟩
    obtain ⟨learns, same, found⟩ := learns
    refine ⟨fun q x => ?_, (learns.after_same cores).then_same fun _ => rfl⟩
    rw [State.phByte_updLine_used found, same, bytes] <;> rfl

/-- The same for an access within one line. -/
theorem State.touch_spec (n : Nat) {size : Nat} (wr : Bool) (room : s.room dom pa = true) (pos : 0 < size)
    (inLine : pa % 128 + size ≤ 128) (counted : wr = false → ∀ l, l ∈ s.lines → l.rc = none) :
    (∀ q x, (s.touch n dom pa size wr).phByte q x = s.phByte q x) ∧ s.Learns (s.touch n dom pa size wr) n := by
  have one : (pa % 128 + size + 127) / 128 = 1 := by omega
  have start : s.room dom (pa / 128 * 128) = true := by rwa [Nat.mul_comm, State.room_line]
  rw [show s.touch n dom pa size wr = s.touchLine n dom (pa / 128 * 128) wr by simp [State.touch, one]]
  exact State.touchLine_spec n wr start counted

end

/-! ## A write at its home (R77, R90, R237) -/

/-- Between `s` and `t` bytes of one copy have been written, and all bytes elsewhere read as before. -/
def State.Written (s t : State) (dom pa : Nat) (bs : List Byte) : Prop :=
  (∀ x, pa ≤ x → x < pa + bs.length → t.phByte dom x = bs.getD (x - pa) 0)
    ∧ ∀ q x, x < pa ∨ pa + bs.length ≤ x → t.phByte q x = s.phByte q x

section
variable {s : State} {dom pa : Nat} {bs : List Byte} (room : s.room dom pa = true) (inLine : pa % 128 + bs.length ≤ 128)
include room inLine

/-- A write of some bytes within a line makes the copy have that line. -/
theorem State.room_phWrite (pos : 0 < bs.length) : (s.phWrite dom pa bs).room dom pa = true := by
  have present := s.line?_fill dom (pa / 128) (by rwa [State.room_line])
  rw [State.room, State.phWrite, pieces_one _ _ _ pos inLine, wrLines, wrLines, State.wrLine, List.take_length,
    State.line?_updLine _ _ _ (fun l => l.put (pa % 128) bs) fun _ h => h, if_pos ⟨rfl, rfl⟩, Option.isSome_map, present, Bool.true_or]

/-- A write into a copy, which uses the line that it writes. -/
theorem State.written_touch (n : Nat) (pos : 0 < bs.length) :
    let t := (s.phWrite dom pa bs).touch n dom pa bs.length true
    s.Written t dom pa bs ∧ s.Learns t n := by
  obtain ⟨bytes, learns⟩ := State.touch_spec n true (State.room_phWrite room inLine pos) pos inLine fun h => by simp at h
  refine ⟨⟨fun x low high => ?_, fun q x out => ?_⟩,
    learns.after_same (State.core_of_performs (.phWrite ..) (s.phWrite_cores ..))⟩
  · rw [bytes, s.phByte_phWrite dom pa bs room inLine, if_pos ⟨rfl, low, high⟩]
  · rw [bytes, s.phByte_phWrite dom pa bs room inLine, if_neg (by omega)]

/-- An update at the home: at the line, or in memory where no slice holds the line. -/
theorem State.written_homePut (n : Nat) (pos : 0 < bs.length) :
    s.Written (s.homePut n dom pa bs) dom pa bs ∧ s.Learns (s.homePut n dom pa bs) n := by
  unfold State.homePut
  split
  · exact State.written_touch room inLine n pos
  · next absent =>
    have read : ∀ q x, ({ s with mem := s.mem.wrBytes pa bs } : State).phByte q x =
        match s.line? q (x / 128) with
        | some l => l.data.getD (x % 128) 0
        | none => if pa ≤ x ∧ x < pa + bs.length then bs.getD (x - pa) 0 else s.mem.rd x := fun q x => by
      rw [← Memory.rd_wrBytes]; rfl
    refine ⟨⟨fun x low high => ?_, fun q x out => ?_⟩, .of_same n fun _ => rfl⟩
    · rw [read, show x / 128 = pa / 128 by omega, Option.not_isSome_iff_eq_none.1 absent]
      exact if_pos ⟨low, high⟩
    · rw [read, if_neg (by omega)]
      rfl

end

theorem State.Written.markStale {s t : State} {dom pa : Nat} {bs : List Byte} (h : s.Written t dom pa bs) (x n : Nat) :
    s.Written (t.markStale x n) dom pa bs := by
  simpa only [State.Written, State.phByte_markStale] using h

theorem State.Learns.markStale {s t : State} {n : Nat} (h : s.Learns t n) (x m : Nat) : s.Learns (t.markStale x m) n :=
  h.then_same (State.core_of_performs (.markStale ..) (t.markStale_cores ..))

/-! ## An attempt that nothing holds up -/

theorem tabGet_mem {α : Type} {p : α → Prop} {dflt : α} {l : List (Nat × α)} (h0 : p dflt) (h : ∀ x, x ∈ l → p x.2) (n : Nat) :
    p (tabGet dflt l n) := by
  induction l with
  | nil => exact h0
  | cons x r ih =>
    rw [tabGet]
    split
    · exact h x (.head _)
    · exact ih fun y hy => h y (.tail _ hy)

theorem State.buf_of_plain {s : State} (plain : Plain s) (n : Nat) : (s.core n).buf = [] := by
  obtain ⟨_, _, _, _, _, bufs⟩ := plain
  exact tabGet_mem (p := fun c : Core => c.buf = []) rfl bufs n

/-- An entry of a core's own TLB translates, if it allows the access (R316). -/
theorem State.tr_of_hit {s : State} {n va : Nat} {wr : Bool} {e : TlbEnt}
    (hit : tlbHit (s.core n).tlb (s.core n).region va = some e) (allowed : wr = true → e.w = true) :
    s.tr n 3 va wr = .ok (e.pa + va % 2 ^ e.lg, e.reach) s := by
  have may : (!wr || e.w) = true := by cases wr <;> simp_all
  simp [State.tr, State.xlate, Core.tlbOf, hit, may, State.prefetch]

/-- An AMO or a CAS, with its destination. -/
def Access.AtomicTo (a : Access) (d : Nat) : Prop := (∃ op u b, a.kind = .amo d op u b) ∨ ∃ x v, a.kind = .cas d x v

/-- What the home does for an atomic. -/
def State.atomicAt (s : State) (n dom pa : Nat) (a : Access) : State :=
  match a.atHome (s.phNat dom pa a.size) with
  | some v => (s.homePut n dom pa (leBytes a.size v)).markStale pa a.size
  | none => if (s.line? dom (pa / 128)).isSome then s.touch n dom pa a.size true else s

section
variable {s : State} {n : Nat} {a : Access} {e : TlbEnt} (access : PlainAccess s n a e)
include access

theorem tryAcc_of_plainAccess (allowed : a.kind.counter = some false → e.w = true) :
    s.tryAcc n 0 a = s.plainAcc n 0 a (e.pa + a.addr % 2 ^ e.lg) e.reach := by
  obtain ⟨_, sp, held, sent, err, atSrc, _, uc, _, hit, ⟨dir, _⟩, _⟩ := access
  have tr := State.tr_of_hit (wr := a.kind.counter == some false) hit (by simpa using allowed)
  rw [State.tryAcc_of_free held sent err atSrc (by simp [State.accBlocked])]
  simp [State.tryNow, uc, sp, tr, State.entFor, dir]

variable {pa : Nat} (at_ : pa = e.pa + a.addr % 2 ^ e.lg)
include at_

/-- Nothing holds the access up at its home, and nothing refuses it. -/
theorem home_of_plainAccess : s.routePa n pa = .here ∧ s.locReach pa e.reach = e.reach ∧ a.spent s.frameClk = false
    ∧ (∀ wr, s.lineBlocks pa a.size wr = false) ∧ s.isPoisoned pa a.size = false := by
  obtain ⟨_, _, _, _, _, _, young, _, _, _, ⟨dir, poison, snoop, _⟩, core, device, up, _⟩ := access
  subst at_
  refine ⟨?_, ?_, ?_, fun wr => ?_, ?_⟩
  · simp [State.routePa, core, device, up]
  · simp [State.locReach, dir]
  · simpa [Access.spent] using young
  · simp [State.lineBlocks, snoop]
  · simp [State.isPoisoned, poison, dir]

/-- A load takes the bytes of its copy. -/
theorem plainAcc_load {d : Nat} {sx : Bool} (load : a.kind = .load d sx) :
    let dom := domOf e.reach (dieOf n)
    s.plainAcc n 0 a pa e.reach = (s.touch n dom pa a.size false).finishAcc n 0 a (s.phNat dom pa a.size) := by
  obtain ⟨route, reach, young, blocks, poison⟩ := home_of_plainAccess access at_
  obtain ⟨_, _, _, _, _, _, _, _, _, _, plain, _⟩ := access
  have buf := State.buf_of_plain plain n
  obtain ⟨_, _, _, _, _, bufs⟩ := plain
  simp only [State.plainAcc, route, reach, young, blocks, poison, load, State.expose_of_no_buf bufs, State.exposed_of_no_buf bufs]
  simp [Core.seen, buf, State.phNat]

/-- A store writes its bytes into its copy. -/
theorem plainAcc_store {v : Nat} (store : a.kind = .store v) :
    let dom := domOf e.reach (dieOf n)
    s.plainAcc n 0 a pa e.reach =
      (((s.phWrite dom pa (leBytes a.size v)).touch n dom pa a.size true).markStale pa a.size).finishAcc n 0 a 0 := by
  obtain ⟨route, reach, young, blocks, poison⟩ := home_of_plainAccess access at_
  obtain ⟨_, _, _, _, _, _, _, _, hold, _, ⟨_, _, _, _, _, bufs⟩, _⟩ := access
  simp only [State.plainAcc, route, reach, young, blocks, poison, store, State.expose_of_no_buf bufs, State.exposed_of_no_buf bufs]
  simp [hold]

/-- An atomic is served at its home, and takes the old value. -/
theorem plainAcc_atomic {d : Nat} (atomic : a.AtomicTo d) :
    let dom := domOf e.reach (dieOf n)
    s.plainAcc n 0 a pa e.reach = (s.atomicAt n dom pa a).finishAcc n 0 a (s.phNat dom pa a.size) := by
  obtain ⟨route, reach, young, blocks, poison⟩ := home_of_plainAccess access at_
  obtain ⟨_, _, _, _, _, _, _, _, _, _, ⟨_, _, _, _, _, bufs⟩, _⟩ := access
  rcases atomic with ⟨op, u, b, kind⟩ | ⟨x, v, kind⟩ <;>
    simp [State.plainAcc, route, reach, young, blocks, poison, kind, State.expose_of_no_buf bufs, State.exposed_of_no_buf bufs,
      State.atomicAt] <;>
    rfl

end

section
variable {a : Access} {d : Nat} (atomic : a.AtomicTo d)
include atomic

theorem Access.AtomicTo.counter : a.kind.counter = some false := by
  rcases atomic with ⟨op, u, b, kind⟩ | ⟨x, v, kind⟩ <;> rw [kind] <;> rfl

theorem Access.AtomicTo.dest : a.kind.dest = some d := by
  rcases atomic with ⟨op, u, b, kind⟩ | ⟨x, v, kind⟩ <;> rw [kind] <;> rfl

/-- It returns the old value, zero-extended (R137). -/
theorem Access.AtomicTo.result (v : Nat) : a.result v = BitVec.ofNat 64 v := by
  rcases atomic with ⟨op, u, b, kind⟩ | ⟨x, w, kind⟩ <;> rw [Access.result, kind] <;> rfl

end

section
variable {s : State} {n dom pa : Nat} {a : Access} (room : s.room dom pa = true) (pos : 0 < a.size)
  (inLine : pa % 128 + a.size ≤ 128)
include room pos inLine

/-- An atomic that changes its location (R90). -/
theorem State.written_atomicAt {v : Nat} (new : a.atHome (s.phNat dom pa a.size) = some v) :
    s.Written (s.atomicAt n dom pa a) dom pa (leBytes a.size v) := by
  have size := length_leBytes a.size v
  rw [State.atomicAt, new]
  exact (State.written_homePut (bs := leBytes a.size v) room (by omega) n (by omega)).1.markStale ..

/-- An atomic that does not. -/
theorem State.phByte_atomicAt_of_none (none : a.atHome (s.phNat dom pa a.size) = none) (q x : Nat) :
    (s.atomicAt n dom pa a).phByte q x = s.phByte q x := by
  rw [State.atomicAt, none]
  dsimp only
  split
  · exact (State.touch_spec n true room pos inLine fun h => by simp at h).1 q x
  · rfl

theorem State.learns_atomicAt : s.Learns (s.atomicAt n dom pa a) n := by
  unfold State.atomicAt
  split
  · next v _ =>
    have size := length_leBytes a.size v
    exact (State.written_homePut (bs := leBytes a.size v) room (by omega) n (by omega)).2.markStale ..
  · split
    · exact (State.touch_spec n true room pos inLine fun h => by simp at h).2
    · exact .of_same n fun _ => rfl

end

/-! ## What the core takes from it (R27) -/

section
variable {s t : State} {n : Nat} {a : Access} (v : Nat) (learns : s.Learns t n)

/-- An access that its home has served leaves bytes alone. -/
theorem State.phRead_finishAcc (q x m : Nat) : (t.finishAcc n 0 a v).phRead q x m = t.phRead q x m :=
  State.phRead_congr rfl rfl q x m

include learns

/-- The access is over, and besides its destination, its counter and the locator no core has changed. -/
theorem State.core_finishAcc :
    let u := t.finishAcc n 0 a v
    let c := s.core n
    { u.core n with regs := c.regs, pend := c.pend, inflight := c.inflight, ld := c.ld, st := c.st, locator := c.locator } = c
      ∧ (u.core n).inflight = c.inflight.tail ∧ ∀ m, m ≠ n → u.core m = s.core m := by
  obtain ⟨⟨known, here⟩, others⟩ := learns
  rw [State.finishAcc_eq]
  refine ⟨?_, ?_, fun m hm => (t.core_updCore_ne _ hm).trans (others m hm)⟩ <;> rw [State.core_updCore_same, here]
  · have back := Core.finished_back { s.core n with locator := known } 0 a v
    exact congrArg (fun c => { c with inflight := (s.core n).inflight, ld := (s.core n).ld, st := (s.core n).st
                                      locator := (s.core n).locator }) back
  · rw [Core.inflight_finished, List.eraseIdx_zero]

theorem State.ld_finishAcc (reads : a.kind.counter = some true) : ((t.finishAcc n 0 a v).core n).ld = (s.core n).ld - 1 := by
  obtain ⟨⟨known, here⟩, _⟩ := learns
  rw [State.finishAcc_eq, State.core_updCore_same, here, Core.ld_finished, if_pos reads]

theorem State.st_finishAcc (writes : a.kind.counter = some false) : ((t.finishAcc n 0 a v).core n).st = (s.core n).st - 1 := by
  obtain ⟨⟨known, here⟩, _⟩ := learns
  rw [State.finishAcc_eq, State.core_updCore_same, here, Core.st_finished, if_pos writes]

theorem State.regs_finishAcc (none : a.kind.dest = none) : ((t.finishAcc n 0 a v).core n).regs = (s.core n).regs := by
  obtain ⟨⟨known, here⟩, _⟩ := learns
  rw [State.finishAcc_eq, State.core_updCore_same, here, Core.finished_of_no_dest _ none]
  rfl

/-- The destination takes the value, unless the H word's stands, and no other register changes. -/
theorem State.reg_finishAcc {d : Nat} (dest : a.kind.dest = some d) :
    (0 < d → d < 32 → a.hWins = false → ((t.finishAcc n 0 a v).core n).reg d = a.result v)
      ∧ ∀ r, r ≠ d → ((t.finishAcc n 0 a v).core n).reg r = (s.core n).reg r := by
  obtain ⟨⟨known, here⟩, _⟩ := learns
  rw [State.finishAcc_eq, State.core_updCore_same, here]
  exact ⟨fun h0 h1 wins => Core.reg_finished_dest v dest h0 h1 wins, fun r hr => Core.reg_finished_other v dest hr⟩

end

/-! ## The statement -/

/-- The value that an atomic leaves is that of R137. -/
theorem amoNew_eq_amoResult {op size : Nat} (u : Bool) (pos : 0 < size) (known : op ≤ 6) (old b : Nat) :
    amoNew op u size old b = amoResult op u size old b := by
  have bits : 0 < 8 * size := by omega
  interval_cases op <;> cases u <;> simp [amoNew, amoResult, sextNat_eq_toInt bits]

/-- Bytes written read back one at a time. -/
theorem State.Written.stored {s t u : State} {dom pa n v : Nat} (h : s.Written t dom pa (leBytes n v))
    (same : ∀ q x, u.phRead q x 1 = t.phRead q x 1) :
    (∀ k, k < n → u.phRead dom (pa + k) 1 = [BitVec.ofNat 8 (v / 256 ^ k)])
      ∧ ∀ q x, (x < pa ∨ pa + n ≤ x) → u.phRead q x 1 = s.phRead q x 1 := by
  obtain ⟨inside, outside⟩ := h
  rw [length_leBytes] at inside outside
  refine ⟨fun k hk => ?_, fun q x out => ?_⟩
  · rw [same, State.phRead_one, inside _ (by omega) (by omega), Nat.add_sub_cancel_left, getD_leBytes v hk]
  · rw [same, State.phRead_one, State.phRead_one, outside q x out]

/-- Settles O12: a load of global memory takes the bytes of its copy, and a store or an atomic changes exactly its own. -/
theorem globalLoadStoreAndAtomicPerform : Obligations.GlobalLoadStoreAndAtomicPerform := by
  unfold Obligations.GlobalLoadStoreAndAtomicPerform
  intro s n a e access
  have ⟨at_, _, _, _, _, _, _, _, _, _, plain, _, _, _, room, pos, inLine⟩ := access
  extract_lets c pa dom old byteOf stored core gives read
  have same : ∀ (t : State) v q x, (t.finishAcc n 0 a v).phRead q x 1 = t.phRead q x 1 := fun t v q x =>
    State.phRead_finishAcc v q x 1
  refine ⟨fun d sx load => ?_, fun w => ?_⟩
  · have counter : a.kind.counter = some true := by rw [load]; rfl
    have dest : a.kind.dest = some d := by rw [load]; rfl
    have ⟨_, _, _, rc, _⟩ := plain
    obtain ⟨bytes, learns⟩ := State.touch_spec n false room pos inLine fun _ => rc
    have run := (exec_loadCompletion_of_load at_ counter).trans (congrArg _
      ((tryAcc_of_plainAccess access (by simp [counter])).trans (plainAcc_load access rfl load)))
    refine ⟨_, run, ?_, State.core_finishAcc _ learns, State.ld_finishAcc _ learns counter, fun q x => ?_⟩
    · simpa only [gives, read, Access.result_load load pos] using State.reg_finishAcc old learns dest
    · rw [same, State.phRead_one, State.phRead_one, bytes]
  · have writes : ∀ t, a.kind.counter = some false → s.plainAcc n 0 a pa e.reach = t → exec (.writePerformed n 0) s = .next t :=
      fun t counter plain' => (exec_writePerformed_of_write at_ counter (by simp [State.buf_of_plain plain n])).trans
        (congrArg _ ((tryAcc_of_plainAccess access fun _ => w).trans plain'))
    have served : ∀ d, a.AtomicTo d →
        let t := (s.atomicAt n dom pa a).finishAcc n 0 a old
        exec (.writePerformed n 0) s = .next t ∧ gives t d (BitVec.ofNat 64 old) ∧ core t ∧ (t.core n).st = c.st - 1 :=
      fun d atomic => by
        have learns := State.learns_atomicAt (n := n) room pos inLine
        refine ⟨writes _ atomic.counter (plainAcc_atomic access rfl atomic), ?_, State.core_finishAcc _ learns,
          State.st_finishAcc _ learns atomic.counter⟩
        simpa only [gives, atomic.result] using State.reg_finishAcc old learns atomic.dest
    refine ⟨fun v store => ?_, fun d op u b amo known => ?_, fun d x v cas => ?_⟩
    · have counter : a.kind.counter = some false := by rw [store]; rfl
      have dest : a.kind.dest = none := by rw [store]; rfl
      have size := length_leBytes a.size v
      obtain ⟨written, learns⟩ := State.written_touch (bs := leBytes a.size v) room (by omega) n (by omega)
      rw [size] at written learns
      have learns := learns.markStale pa a.size
      exact ⟨_, writes _ counter (plainAcc_store access rfl store), (written.markStale ..).stored (same _ _),
        State.core_finishAcc _ learns, State.regs_finishAcc _ learns dest, State.st_finishAcc _ learns counter⟩
    · obtain ⟨run, takes⟩ := served d (.inl ⟨op, u, b, amo⟩)
      have new : a.atHome old = some (amoResult op u a.size old b) := by
        rw [Access.atHome, amo]
        exact congrArg some (amoNew_eq_amoResult u pos known old b)
      exact ⟨_, run, (State.written_atomicAt room pos inLine new).stored (same _ _), takes⟩
    · obtain ⟨run, takes⟩ := served d (.inr ⟨x, v, cas⟩)
      refine ⟨_, run, ?_, takes⟩
      have new : a.atHome old = if old = x then some v else none := by rw [Access.atHome, cas]
      split
      · next hit =>
        exact (State.written_atomicAt room pos inLine (new.trans (if_pos hit))).stored (same _ _)
      · next miss =>
        intro q y
        rw [same, State.phRead_one, State.phRead_one, State.phByte_atomicAt_of_none room pos inLine (new.trans (if_neg miss))]

end Sys2Proof.Machine

/-! SUPPORT. What a step of the VE reads and writes of its core's scratchpad where no window is open, no watermark is armed and
no answer stands out (R72, R81, R196), the bytes of a shape (R154, R155), and how a step ends (R27, R62, R66). -/

namespace Sys2Proof.Machine

/-! ## A change of the current core alone -/

/-- From `s` to `t` the current core has become `c`, and nothing else has changed. -/
structure State.Turns (s t : State) (c : Core) : Prop where
  me : t.me = c
  elsewhere : Elsewhere s.cur s t

namespace State.Turns

theorem refl (s : State) : s.Turns s s.me := ⟨rfl, rfl, fun _ _ => rfl, fun _ _ => rfl⟩

theorem upd (s : State) (f : Core → Core) : s.Turns (s.upd f) (f s.me) := ⟨s.me_upd f, Elsewhere.upd s f⟩

theorem cur {s t : State} {c : Core} (h : s.Turns t c) : t.cur = s.cur :=
  show ({ t with cores := s.cores } : State).cur = s.cur from congrArg State.cur h.elsewhere.rest

theorem trans {s t u : State} {c d : Core} (h : s.Turns t c) (k : t.Turns u d) : s.Turns u d :=
  ⟨k.me, h.elsewhere.trans (h.cur ▸ k.elsewhere)⟩

end State.Turns

/-! ## Accesses of the VE to its own scratchpad -/

/-- Nothing stands between the VE and its core's scratchpad. -/
structure Core.VeFree (c : Core) : Prop where
  tiles : c.tiles = []
  open_ : ∀ off n, c.guarded 0 off n = false
  ask : c.ve.ask = none
  hit : c.ve.hit = false
  fails : c.ve.fails = []

section
variable {s : State}

theorem Core.VeFree.of_ready {hs : List Shape} (h : VeReady s hs) : s.me.VeFree := by
  obtain ⟨tiles, open_, ⟨_, _, _, _, ask, hit, fails⟩, _⟩ := h
  exact ⟨tiles, open_, ask, hit, fails⟩

theorem Core.VeFree.withSpad {c : Core} (h : c.VeFree) (m : Memory) : ({ c with spad := m } : Core).VeFree :=
  ⟨h.tiles, h.open_, h.ask, h.hit, h.fails⟩

variable (free : s.me.VeFree)
include free

/-- A VE that asks for nothing has nothing to note when an access is over (R321). -/
theorem State.noteAsk_ve (sp wr : Bool) (a len : Nat) : s.noteAsk s.cur 0 sp wr a len false = s := by
  have none : ((s.core s.cur).eng .ve).ask = none := free.ask
  simp [State.noteAsk, unitOfObs, Engine.asking, none]

/-- The VE reads the bytes that stand in the scratchpad. -/
theorem State.rdA_ve (a len : Nat) : s.rdA s.cur 0 true a len = .ok (s.me.spad.rdBytes a len) s := by
  have ask : ((s.core s.cur).eng .ve).ask = none := free.ask
  have hit : ((s.core s.cur).eng .ve).hit = false := free.hit
  have tiles : (s.core s.cur).tiles = [] := free.tiles
  have open_ : (s.core s.cur).guarded 0 a len = false := free.open_ a len
  have read : s.rdS s.cur a len = .ok (s.me.spad.rdBytes a len) s := by
    by_cases h : len = 0
    · simp [State.rdS, Core.spPieces, tiles, h, readSp, Memory.rdBytes_eq]
    · simp [State.rdS, Core.spPieces, tiles, h, readSp, Core.tileSp, State.me]
  simp [State.rdA, State.gaveUp, State.isHit, State.handed, unitOfObs, Engine.asking, ask, hit, open_, read, Try.noted,
    State.noteAsk_ve free]

/-- A write of the VE puts its bytes into the scratchpad. -/
theorem State.unitWr_ve (a : Nat) {bs : List Byte} (some_ : bs ≠ []) :
    s.unitWr .ve true a bs = .ok none (s.upd fun c => { c with spad := c.spad.wrBytes a bs }) := by
  have fails : (s.eng .ve).failOf true a = none := by
    rw [Engine.failOf, show (s.eng .ve).fails = [] from free.fails]; rfl
  have tiles : (s.core s.cur).tiles = [] := free.tiles
  have open_ : (s.core s.cur).guarded 0 a bs.length = false := free.open_ ..
  have wrote : s.wrS s.cur 0 a bs = .ok none (s.upd fun c => { c with spad := c.spad.wrBytes a bs }) := by
    simp [State.wrS, Core.spPieces, tiles, some_, writeSp, Core.tileSp, State.upd]
  have after : (s.upd fun c => { c with spad := c.spad.wrBytes a bs }).me.VeFree := by
    rw [State.me_upd]; exact free.withSpad _
  have noted := State.noteAsk_ve after true true a bs.length
  rw [State.upd_cur] at noted
  simp [State.unitWr, fails, State.wrF, unitObs, open_, wrote, Try.noted, noted]

/-! ## Runs of bytes -/

/-- Runs are read one after another, and the reads change nothing. -/
theorem readRuns_ve (rs : List (Nat × Nat)) (acc : List Byte) :
    readRuns s.cur 0 true rs acc s = .ok (acc ++ (rs.map fun r => s.me.spad.rdBytes r.1 r.2).flatten) s := by
  induction rs generalizing acc with
  | nil => simp [readRuns]
  | cons r rs ih => simp [readRuns, State.rdA_ve free, ih]

/-- A shape is read as it stands. -/
theorem State.vRead_ve (h : Shape) : s.vRead h = .ok (h.readIn s.me.spad) s := by
  simp [State.vRead, readRuns_ve free, Try.bind, Shape.readIn]

theorem State.vReads_ve (hs : List Shape) : s.vReads hs = .ok (hs.map fun h => h.readIn s.me.spad) s := by
  induction hs with
  | nil => rfl
  | cons h hs ih => simp [State.vReads, State.vRead_ve free, ih, Try.bind]

/-- A step at its start reads its sources now. -/
theorem State.vGot_ve (start : s.me.ve.parts = []) (hs : List Shape) :
    s.vGot hs = .ok (hs.map fun h => h.readIn s.me.spad) s := by
  simp [State.vGot, start, State.vReads_ve free]

end

/-- A memory after a list of a step's writes. -/
def putOuts (ws : List (Bool × Nat × List Byte)) (m : Memory) : Memory := ws.foldl (fun m w => m.wrBytes w.2.1 w.2.2) m

/-- Writes of a step that all put bytes into the scratchpad. -/
def SpadOuts (ws : List (Bool × Nat × List Byte)) : Prop := ∀ w, w ∈ ws → w.1 = true ∧ w.2.2 ≠ []

theorem SpadOuts.append {ws xs : List (Bool × Nat × List Byte)} (h : SpadOuts ws) (k : SpadOuts xs) : SpadOuts (ws ++ xs) :=
  fun w hw => (List.mem_append.1 hw).elim (h w) (k w)

theorem putOuts_append (ws xs : List (Bool × Nat × List Byte)) (m : Memory) :
    putOuts (ws ++ xs) m = putOuts xs (putOuts ws m) := List.foldl_append

/-- The writes of a step are all made, and change nothing but the scratchpad. -/
theorem writeOuts_ve {ws : List (Bool × Nat × List Byte)} (outs : SpadOuts ws) (k : Nat) {s : State} (free : s.me.VeFree) :
    ∃ t, writeOuts .ve ws k s = .done t ∧ s.Turns t { s.me with spad := putOuts ws s.me.spad } := by
  induction ws generalizing k s with
  | nil => exact ⟨s, rfl, .refl s⟩
  | cons w ws ih =>
    obtain ⟨sp, a, bs⟩ := w
    obtain ⟨rfl, some_⟩ := outs _ (List.mem_cons_self ..)
    have turn := State.Turns.upd s fun c => { c with spad := c.spad.wrBytes a bs }
    obtain ⟨t, run, rest⟩ := ih (fun w hw => outs w (List.mem_cons_of_mem _ hw)) (k + 1) (turn.me ▸ free.withSpad _)
    rw [turn.me] at rest
    exact ⟨t, by simpa [writeOuts, State.unitWr_ve free a some_, State.noteFail] using run, turn.trans rest⟩

/-- The writes that end a step are all made, and the step goes on from them. -/
theorem State.unitOut_ve {s : State} {o : OutW} (outs : SpadOuts o.ws) (free : s.me.VeFree) :
    ∃ t, s.Turns t { s.me with spad := putOuts o.ws s.me.spad }
      ∧ ∀ f elem keep, s.unitOut .ve o f elem keep = f t := by
  obtain ⟨t, run, turns⟩ := writeOuts_ve outs 0 free
  exact ⟨t, turns, fun f elem keep => by simp [State.unitOut, run]⟩

/-! ## The bytes of a shape -/

@[simp] theorem length_bitFields (w n v : Nat) : (bitFields w n v).length = n := by
  induction n generalizing v with
  | zero => rfl
  | succ n ih => simp [bitFields, ih]

@[simp] theorem length_chunks (k n : Nat) (l : List Byte) : (chunks k n l).length = n := by
  induction n generalizing l with
  | zero => rfl
  | succ n ih => simp [chunks, ih]

@[simp] theorem Shape.length_readIn (h : Shape) (m : Memory) : (h.readIn m).length = h.count := by
  unfold Shape.readIn Shape.elems
  split <;> simp

@[simp] theorem length_bcast (n : Nat) (l : List Nat) : (bcast n l).length = n := by
  unfold bcast
  split
  · assumption
  · simp

theorem bcast_self {n : Nat} {l : List Nat} (h : l.length = n) : bcast n l = l := if_pos h

/-- Where the bytes last for all runs, every run gets some. -/
theorem outsOf_spad {rs : List (Nat × Nat)} {bs : List Byte} (pos : ∀ r, r ∈ rs → 0 < r.2)
    (enough : (rs.map (·.2)).sum ≤ bs.length) : SpadOuts (outsOf rs bs) := by
  induction rs generalizing bs with
  | nil => exact nofun
  | cons r rs ih =>
    obtain ⟨a, l⟩ := r
    have first : 0 < l := pos _ (List.mem_cons_self ..)
    rw [List.map_cons, List.sum_cons] at enough
    refine List.forall_mem_cons.2 ⟨⟨rfl, fun empty => ?_⟩, ih (fun r hr => pos r (List.mem_cons_of_mem _ hr)) ?_⟩
    · have := congrArg List.length empty
      simp only [List.length_take, List.length_nil] at this
      omega
    · rw [List.length_drop]
      omega

theorem putOuts_outsOf (rs : List (Nat × Nat)) (bs : List Byte) (m : Memory) : putOuts (outsOf rs bs) m = putRuns rs bs m := by
  induction rs generalizing bs m with
  | nil => rfl
  | cons r rs ih => exact ih ..

section
variable {h : Shape}

/-- What R155 checks first: there are elements, they have a width, and a packed shape ends at a byte's edge. -/
theorem Shape.sizes_of_check (good : h.check = none) :
    0 < h.count ∧ 0 < h.width ∧ (h.packed = true → h.count * h.width % 8 = 0) := by
  unfold Shape.check at good
  split at good
  · cases good
  · next sizes =>
    simp only [not_or, not_and, not_not] at sizes
    exact ⟨by omega, by omega, fun p => (sizes.2.2 p).2⟩

theorem Shape.size_pos (good : h.check = none) (whole : h.packed = false) : 0 < h.size := by
  have := (Shape.sizes_of_check good).2.1
  simp only [Shape.packed, bne_eq_false_iff_eq] at whole
  unfold Shape.size
  omega

/-- Every run of a good shape has bytes. -/
theorem Shape.runs_pos (good : h.check = none) : ∀ r, r ∈ h.runs → 0 < r.2 := by
  obtain ⟨count, width, edge⟩ := Shape.sizes_of_check good
  unfold Shape.runs Shape.runsOf
  rw [Nat.sub_zero]
  cases packed : h.packed with
  | true =>
    have bits := Nat.mul_pos count width
    have edge := edge packed
    simp only [if_true, List.mem_singleton, forall_eq]
    omega
  | false =>
    have size := Shape.size_pos good packed
    simp only [Bool.false_eq_true, if_false]
    split
    · simp only [List.mem_singleton, forall_eq]
      exact Nat.mul_pos count size
    · simp [size]

/-- The runs of a shape hold the bytes of its elements. -/
theorem Shape.length_bytes {vs : List Nat} (all : vs.length = h.count) : (h.bytes vs).length = (h.runs.map (·.2)).sum := by
  unfold Shape.bytes Shape.runs Shape.runsOf
  split
  · simp [all]
  · split <;> simp [all, Function.comp_def]

/-- All elements of a good shape are written into the scratchpad. -/
theorem Shape.outs_spad (good : h.check = none) {vs : List Nat} (all : vs.length = h.count) : SpadOuts (h.outs 0 h.count vs) :=
  outsOf_spad (Shape.runs_pos good) (Shape.length_bytes all).ge

theorem Shape.putOuts_outs (vs : List Nat) (m : Memory) : putOuts (h.outs 0 h.count vs) m = h.writeIn m vs := putOuts_outsOf ..

end

/-! ## The end of a step -/

section
variable {s : State}

/-- The step in progress of the VE is done. -/
theorem State.unitDone_ve (fl : BitVec 64) : s.Turns (s.unitDone .ve fl) { s.me with ve := s.me.ve.stepped fl } := by
  have turn := State.Turns.upd s fun c =>
    c.setEng .ve (if (c.eng .ve).inProg then (c.eng .ve).nextWord fl else (c.eng .ve).finish fl)
  rw [Engine.stepped_eq] at turn
  exact turn

/-- A step that has done all its elements leaves its generator and its flags, and goes to its next word. -/
theorem State.vFin_all {n hi : Nat} (all : n ≤ hi) (x : BitVec 32) (fl : BitVec 64) (got : List Nat) :
    s.Turns (s.vFin n hi x fl got) { s.me with rngVe := x, ve := s.me.ve.stepped fl } := by
  have turn := State.Turns.upd s fun c => { c with rngVe := x }
  have done := State.unitDone_ve (s := s.upd fun c => { c with rngVe := x }) fl
  rw [turn.me] at done
  rw [State.vFin, if_neg (Nat.not_lt.2 all)]
  exact turn.trans done

/-- The end of a step makes its writes first. -/
theorem State.vPut_all {n hi : Nat} (all : n ≤ hi) {ws : List (Bool × Nat × List Byte)} (outs : SpadOuts ws)
    (free : s.me.VeFree) (x : BitVec 32) (fl : BitVec 64) (got : List Nat) : ∃ t, s.vPut n hi ws x fl got = .next t
      ∧ s.Turns t { s.me with spad := putOuts ws s.me.spad, rngVe := x, ve := s.me.ve.stepped fl } := by
  obtain ⟨t, turn, run⟩ := State.unitOut_ve (o := { ws := ws, rng := x, flags := fl }) outs free
  have fin := t.vFin_all all x fl got
  rw [turn.me] at fin
  exact ⟨_, run .., turn.trans fin⟩

/-- What `VeDone` takes apart field by field, as one change of the core. -/
theorem VeDone.of_turns {i : Instr} {t : State} {m : Memory} {x : BitVec 32} {fl : BitVec 64} (run : exec i s = .next t)
    (turn : s.Turns t { s.me with spad := m, rngVe := x, ve := s.me.ve.stepped fl }) : VeDone i s m x fl :=
  ⟨t, run, by rw [turn.me], by rw [turn.me], by rw [turn.me], by rw [turn.me], turn.elsewhere⟩

/-- A step that ends with its writes is done. -/
theorem VeDone.of_vPut {i : Instr} {hs : List Shape} (ready : VeReady s hs) {n hi : Nat} {ws : List (Bool × Nat × List Byte)}
    {x : BitVec 32} {fl : BitVec 64} {got : List Nat} (run : exec i s = s.vPut n hi ws x fl got) (all : n ≤ hi)
    (outs : SpadOuts ws) : VeDone i s (putOuts ws s.me.spad) x fl := by
  obtain ⟨t, put, turn⟩ := State.vPut_all all outs (.of_ready ready) x fl got
  exact .of_turns (run.trans put) turn

/-- A step that ends by writing all elements of one shape is done. -/
theorem VeDone.of_outs {i : Instr} {hs : List Shape} (ready : VeReady s hs) {h : Shape} (of : h ∈ hs) {n hi : Nat} {vs : List Nat}
    {x : BitVec 32} {fl : BitVec 64} {got : List Nat} (run : exec i s = s.vPut n hi (h.outs 0 h.count vs) x fl got) (all : n ≤ hi)
    (every : vs.length = h.count) : VeDone i s (h.writeIn s.me.spad vs) x fl := by
  obtain ⟨_, _, _, good⟩ := id ready
  exact h.putOuts_outs vs _ ▸ .of_vPut ready run all (Shape.outs_spad (good h of) every)

/-! ## The checks before a step (R155, R171) -/

/-- Shapes that pass their checks one by one pass them together. -/
theorem shapeFail_good {hs : List Shape} (good : ∀ h, h ∈ hs → h.check = none) : shapeFail hs = none := by
  unfold shapeFail byReg
  rw [List.findSome?_eq_none_iff]
  intro h member
  obtain ⟨k, _, found⟩ := List.mem_filterMap.1 member
  rw [good h (List.mem_of_find?_eq_some found)]
  rfl

/-- A step whose checks hold runs. -/
theorem State.vChecked_good {hs : List Shape} {types counts : Bool} (ready : VeReady s hs) (ofType : types = true)
    (ofCount : counts = true) (k : Res) : s.vChecked hs types counts k = k := by
  obtain ⟨_, _, ⟨_, outs, _⟩, good⟩ := ready
  simp [State.vChecked, outs, shapeFail_good good, ofType, ofCount]

/-- No type of Table 7-2 is of both classes. -/
theorem Shape.isF_of_isI {h : Shape} (int : h.isI = true) : h.isF = false := by
  unfold Shape.isI tyI at int
  unfold Shape.isF
  split at int
  all_goals simp_all [tyF]

theorem countOk_iff {n : Nat} {hs : List Shape} : countOk n hs = true ↔ ∀ h, h ∈ hs → h.count = n ∨ h.count = 1 := by
  simp [countOk]

/-- A step at its start begins with element 0. -/
theorem State.vElem_ready {hs : List Shape} (ready : VeReady s hs) : s.vElem = 0 := by
  obtain ⟨_, _, ⟨elem, _⟩, _⟩ := ready
  exact elem

/-- Where no freeze stops a step it goes through all its elements. -/
theorem State.vHi_ready {hs : List Shape} (ready : VeReady s hs) (n : Nat) : s.vHi n = n := by
  obtain ⟨_, _, ⟨_, _, _, limit, _⟩, _⟩ := ready
  simp [State.vHi, limit]

/-- A step goes on with the elements that stand in its sources. -/
theorem State.vTry_got {hs srcs : List Shape} (ready : VeReady s hs) (d : Shape) (f : List (List Nat) → State → Res) :
    s.vTry d (s.vGot srcs) f = f (srcs.map fun h => h.readIn s.me.spad) s := by
  obtain ⟨_, _, ⟨_, _, parts, _⟩, _⟩ := id ready
  rw [State.vGot_ve (.of_ready ready) parts]
  rfl

/-! ## Element by element (R81, R156, R157) -/

/-- A step that computes each element of its destination from one element of each source. -/
theorem VeMaps.of_vMap {i : Instr} {hd : Shape} {srcs : List Shape} {sr : Bool} {f : List Nat → Nat → Nat × FFlags}
    (ready : VeReady s (hd :: srcs)) (run : exec i s = s.vMap hd srcs sr f) : VeMaps i s hd srcs sr f := by
  obtain ⟨_, _, ⟨_, _, parts, _⟩, _⟩ := id ready
  have got := State.vGot_ve (.of_ready ready) parts srcs
  unfold VeMaps
  extract_lets n ls g rs
  refine .of_outs ready (List.mem_cons_self ..) (n := n) (hi := n) (got := (srcs.map fun h => h.readIn s.me.spad).flatten)
    (run.trans ?_) le_rfl (by simp [rs, n])
  simp only [State.vMap, got, State.unitTry, State.vElem_ready ready, State.vHi_ready ready, Nat.sub_zero, Nat.zero_add,
    List.map_map, Function.comp_def, n, ls, g, rs]

end

end Sys2Proof.Machine

/-! SUPPORT. The element-wise steps of the VE on shapes of one class (R157-R159, R164), and the two statements about them. -/

namespace Sys2Proof.Machine

section
variable {s : State} {d a : BitVec 4} {b : VOpd} {rm : RMode} {f : Option (FVal → FVal → FVal × FFlags)}
  {g : Option (Int → Int → Int)}

/-- The shapes of an operand are of class I, and fit a destination of `n` elements (R156). -/
def VOpd.FitsI (s : State) (n : Nat) (b : VOpd) : Prop := ∀ h, h ∈ b.shapes s → h.isI = true ∧ (h.count = n ∨ h.count = 1)

/-- The same for class F. -/
def VOpd.FitsF (s : State) (n : Nat) (b : VOpd) : Prop := ∀ h, h ∈ b.shapes s → h.isF = true ∧ (h.count = n ∨ h.count = 1)

/-- On class I an element-wise step maps its integer operation over its operands. -/
theorem State.velt_int {g : Int → Int → Int} (ready : VeReady s (s.shape d :: s.shape a :: b.shapes s))
    (intD : (s.shape d).isI = true) (fitsA : (VOpd.sh a).FitsI s (s.shape d).count) (fitsB : b.FitsI s (s.shape d).count)
    (scalar : b.isFloatConst = false) :
    s.velt d a b rm f (some g) = s.vMap (s.shape d) (s.shape a :: b.shapes s) false fun l _ =>
      ((s.shape d).wrap (g ((s.shape a).int (l.getD 0 0)) (b.int s l)), {}) := by
  obtain ⟨intA, countA⟩ := fitsA _ (List.mem_singleton.2 rfl)
  have allI : (s.shape d :: s.shape a :: b.shapes s).all Shape.isI = true := by
    simpa [intD, intA] using fun h hh => (fitsB h hh).1
  have notF : (s.shape d :: s.shape a :: b.shapes s).all Shape.isF = false := by simp [Shape.isF_of_isI intD]
  unfold State.velt
  rw [State.vChecked_good ready (by simp only [allI, notF, scalar]; rfl)
    (countOk_iff.2 (List.forall_mem_cons.2 ⟨countA, fun h hh => (fitsB h hh).2⟩))]
  simp only [notF, Bool.false_eq_true, if_false, List.headD_eq_getD]

/-- On class F it maps its floating-point operation, rounded once. -/
theorem State.velt_flt {f : FVal → FVal → FVal × FFlags} (ready : VeReady s (s.shape d :: s.shape a :: b.shapes s))
    (fltD : (s.shape d).isF = true) (fitsA : (VOpd.sh a).FitsF s (s.shape d).count) (fitsB : b.FitsF s (s.shape d).count) :
    s.velt d a b rm (some f) g = s.vMap (s.shape d) (s.shape a :: b.shapes s) (rm == .sr) fun l w =>
      (s.shape d).rnd rm w (f ((s.shape a).flt (l.getD 0 0)) (b.flt s l)) := by
  obtain ⟨fltA, countA⟩ := fitsA _ (List.mem_singleton.2 rfl)
  have allF : (s.shape d :: s.shape a :: b.shapes s).all Shape.isF = true := by
    simpa [fltD, fltA] using fun h hh => (fitsB h hh).1
  unfold State.velt
  rw [State.vChecked_good ready (by simp only [allF]; rfl)
    (countOk_iff.2 (List.forall_mem_cons.2 ⟨countA, fun h hh => (fitsB h hh).2⟩))]
  simp only [allF, if_true, List.headD_eq_getD]

/-- A transcendental step maps its function, rounded once (R65, R164). -/
theorem State.vtrans_flt {t : Trans} (ready : VeReady s [s.shape d, s.shape a]) (fltD : (s.shape d).isF = true)
    (fltA : (s.shape a).isF = true) (count : (s.shape a).count = (s.shape d).count ∨ (s.shape a).count = 1) :
    s.vtrans t d a rm = s.vMap (s.shape d) [s.shape a] (rm == .sr) fun l w =>
      (s.shape d).rnd rm w (transF t ((s.shape a).flt (l.getD 0 0))) := by
  unfold State.vtrans
  rw [State.vChecked_good ready (by simp [fltD, fltA]) (countOk_iff.2 (by simpa using count))]
  simp only [List.headD_eq_getD]

/-- VBULK is the VE's form while S0 can be reached (R164). -/
theorem execVbulk_up {t : Trans} (ready : VeReady s [s.shape d, s.shape a]) (fltD : (s.shape d).isF = true)
    (fltA : (s.shape a).isF = true) (count : (s.shape a).count = (s.shape d).count ∨ (s.shape a).count = 1)
    (up : s.s0Up s.cur = true) : execVbulk d a rm t s = s.vtrans t d a rm := by
  unfold execVbulk
  rw [State.vChecked_good ready (by simp [fltD, fltA]) (countOk_iff.2 (by simpa using count)), if_pos up]

/-- VFMA maps the exact product and the sum, rounded once. -/
theorem execVfma_flt {b c : BitVec 4} (ready : VeReady s [s.shape d, s.shape a, s.shape b, s.shape c])
    (fltD : (s.shape d).isF = true) (flt : (s.shape a).isF = true ∧ (s.shape b).isF = true ∧ (s.shape c).isF = true)
    (counts : ((s.shape a).count = (s.shape d).count ∨ (s.shape a).count = 1)
      ∧ ((s.shape b).count = (s.shape d).count ∨ (s.shape b).count = 1)
      ∧ ((s.shape c).count = (s.shape d).count ∨ (s.shape c).count = 1)) :
    execVfma d a b c rm s = s.vMap (s.shape d) [s.shape a, s.shape b, s.shape c] (rm == .sr) fun l w =>
      let p := FVal.mul ((s.shape a).flt (l.getD 0 0)) ((s.shape b).flt (l.getD 1 0))
      let r := FVal.add rm p.1 ((s.shape c).flt (l.getD 2 0))
      (s.shape d).rnd rm w (r.1, p.2.join r.2) := by
  unfold execVfma
  exact State.vChecked_good ready (by simp [fltD, flt]) (countOk_iff.2 (by simpa using counts)) _

end

/-- Settles O20: each step is the map of its operation over the exact integers of its operands. -/
theorem vectorIntegerSteps : Obligations.VectorIntegerSteps := by
  unfold Obligations.VectorIntegerSteps
  intro s d a b q rm z hd ha hb qv vv vq two intD intA countA
  have fitsA : (VOpd.sh a).FitsI s hd.count := List.forall_mem_singleton.2 ⟨intA, countA⟩
  refine ⟨fun intB countB ready => ?_, fun scalar ready => ?_, fun ready => ?_⟩
  · have done (g) {m i f} (run : exec i s = s.velt d a (.sh b) m f (some g)) : vv i g :=
      .of_vMap ready (run.trans (State.velt_int ready intD fitsA (List.forall_mem_singleton.2 ⟨intB, countB⟩) rfl))
    exact ⟨done (· + ·) rfl, done (· - ·) rfl, done (· * ·) rfl, done min rfl, done max rfl,
      done (m := .rne) (two (· &&& ·)) rfl, done (m := .rne) (two (· ||| ·)) rfl, done (m := .rne) (two (· ^^^ ·)) rfl,
      done (m := .rne) shlV rfl, done (m := .rne) shrV rfl⟩
  · have done (g) {m i f} (run : exec i s = s.velt d a (.q q) m f (some g)) : vq i g :=
      .of_vMap ready (run.trans (State.velt_int ready intD fitsA nofun scalar))
    exact ⟨done (· + ·) rfl, done (· - ·) rfl, done (· * ·) rfl, done min rfl, done max rfl,
      done (m := .rne) (two (· &&& ·)) rfl, done (m := .rne) (two (· ||| ·)) rfl, done (m := .rne) (two (· ^^^ ·)) rfl,
      done (m := .rne) shlV rfl, done (m := .rne) shrV rfl⟩
  · have done (g : Int → Int) {i f} (run : exec i s = s.velt d a .none rm f (some fun x _ => g x)) : vq i fun x _ => g x :=
      .of_vMap ready (run.trans (State.velt_int ready intD fitsA nofun rfl))
    exact ⟨done (fun x => x.natAbs) rfl, done (- ·) rfl⟩

/-- Settles O21: each step is the map of its operation, rounded once, over the values of its operands.
That a step of exact results (VABS, VNEG) advances the generator in SR as the others do is the model's choice (assumption 51). -/
theorem vectorFloatSteps : Obligations.VectorFloatSteps := by
  unfold Obligations.VectorFloatSteps
  intro s d a b c q rm f hd ha hb hc sr x qv fits vv v1 fltD fitsA
  have opdA : (VOpd.sh a).FitsF s hd.count := List.forall_mem_singleton.2 fitsA
  obtain ⟨fltA, countA⟩ := fitsA
  refine ⟨fun fitsB ready => ?_, fun ⟨fltB, countB⟩ ⟨fltC, countC⟩ ready => ?_, fun ready => ⟨?_, ?_, ?_⟩⟩
  · have done (f) {i g} (run : exec i s = s.velt d a (.sh b) rm (some f) g) : vv i f :=
      .of_vMap ready (run.trans (State.velt_flt ready fltD opdA (List.forall_mem_singleton.2 fitsB)))
    exact ⟨done (FVal.add rm) rfl, done (fSubV rm) rfl, done FVal.mul rfl, done (fMinMax false) rfl, done (fMinMax true) rfl⟩
  · exact .of_vMap ready (execVfma_flt ready fltD ⟨fltA, fltB, fltC⟩ ⟨countA, countB, countC⟩)
  · have done (f : FVal → FVal → FVal × FFlags) {i g} (run : exec i s = s.velt d a (.q q) rm (some f) g) : v1 i (f · qv) :=
      .of_vMap ready (run.trans (State.velt_flt ready fltD opdA nofun))
    exact ⟨done (FVal.add rm) rfl, done (fSubV rm) rfl, done FVal.mul rfl, done (fMinMax false) rfl, done (fMinMax true) rfl⟩
  · have done (f) {i g} (run : exec i s = s.velt d a .none rm (some fun x _ => f x) g) : v1 i f := by
      have maps := run.trans (State.velt_flt (b := .none) ready fltD opdA nofun)
      exact .of_vMap ready maps
    exact ⟨done (fun x => (x.abs, {})) rfl, done (fun x => (x.neg, {})) rfl⟩
  · have done (t) {i} (run : exec i s = s.vtrans t d a rm) : v1 i (transF t) :=
      .of_vMap ready (run.trans (State.vtrans_flt ready fltD fltA countA))
    exact ⟨done .exp2 rfl, done .log2 rfl, done .rcp rfl, done .rsqrt rfl, done .tanh rfl,
      fun up => done f (execVbulk_up ready fltD fltA countA up)⟩

end Sys2Proof.Machine

/-! SUPPORT. Selection, comparison, conversion, copy and fill of the VE (R153, R159-R161, R166, R167), and the statement about
them. -/

namespace Sys2Proof.Machine

/-- The comparison on exact values that the VE makes is that of Table 5-4. -/
theorem icond_eq_condInt (k : Cond) (x y : Int) : icond k x y = condInt k x y := by
  have zero (v : BitVec 64) : v.toInt = 0 ↔ v = 0 := by rw [← BitVec.toInt_inj]; rfl
  cases k with
  | eq => rfl
  | ne => exact (decide_not ..).symm
  | lt => rfl
  | ge => rfl
  | ltu => simp only [icond, condInt, BitVec.toNat_ofInt]; exact decide_eq_decide.2 (by omega)
  | geu => simp only [icond, condInt, BitVec.toNat_ofInt]; exact decide_eq_decide.2 (by omega)
  | tst => exact Bool.eq_iff_iff.2 (by simp only [icond, condInt, bit64, bne_iff_ne, ne_eq, zero, decide_eq_true_eq])
  | ntst => exact Bool.eq_iff_iff.2 (by simp only [icond, condInt, bit64, beq_iff_eq, zero, decide_eq_true_eq])

section
variable {s : State} {d a b c : BitVec 4} {rm : RMode}

section
variable (ready : VeReady s [s.shape d, s.shape a, s.shape b, s.shape c]) (mask : (s.shape c).isI = true ∨ (s.shape c).isF = true)
  (counts : ((s.shape a).count = (s.shape d).count ∨ (s.shape a).count = 1)
    ∧ ((s.shape b).count = (s.shape d).count ∨ (s.shape b).count = 1)
    ∧ ((s.shape c).count = (s.shape d).count ∨ (s.shape c).count = 1))
include ready mask counts

/-- VSEL on class I: the exact value of the chosen element, modulo 2^w. -/
theorem execVsel_int (int : (s.shape d).isI = true ∧ (s.shape a).isI = true ∧ (s.shape b).isI = true) :
    execVsel d a b c rm s = s.vMap (s.shape d) [s.shape a, s.shape b, s.shape c] false fun l _ =>
      ((s.shape d).wrap (if l.getD 2 0 ≠ 0 then (s.shape a).int (l.getD 0 0) else (s.shape b).int (l.getD 1 0)), {}) := by
  have notF := Shape.isF_of_isI int.1
  unfold execVsel
  rw [State.vChecked_good ready (by simp [int, mask.symm]) (countOk_iff.2 (by simpa using counts))]
  simp [notF]

/-- VSEL on class F: the chosen value rounded once. -/
theorem execVsel_flt (flt : (s.shape d).isF = true ∧ (s.shape a).isF = true ∧ (s.shape b).isF = true) :
    execVsel d a b c rm s = s.vMap (s.shape d) [s.shape a, s.shape b, s.shape c] (rm == .sr) fun l w =>
      (s.shape d).rnd rm w (if l.getD 2 0 ≠ 0 then (s.shape a).flt (l.getD 0 0) else (s.shape b).flt (l.getD 1 0), {}) := by
  unfold execVsel
  rw [State.vChecked_good ready (by simp [flt, mask.symm]) (countOk_iff.2 (by simpa using counts))]
  simp [flt]

end

section
variable {o : VOpd} {k : Cond} (ready : VeReady s (s.shape d :: s.shape a :: o.shapes s)) (intD : (s.shape d).isI = true)
include ready intD

/-- VCMP of class I operands: all ones where the comparison of the exact values holds. -/
theorem State.vcmp_int (fitsA : (VOpd.sh a).FitsI s (s.shape d).count) (fitsO : o.FitsI s (s.shape d).count)
    (scalar : o.isFloatConst = false) :
    s.vcmp d a o k = s.vMap (s.shape d) (s.shape a :: o.shapes s) false fun l _ =>
      (if condInt k ((s.shape a).int (l.getD 0 0)) (o.int s l) then 2 ^ (s.shape d).width - 1 else 0, {}) := by
  obtain ⟨intA, countA⟩ := fitsA _ (List.mem_singleton.2 rfl)
  have allI : (s.shape a :: o.shapes s).all Shape.isI = true := by simpa [intA] using fun h hh => (fitsO h hh).1
  have notF : (s.shape a :: o.shapes s).all Shape.isF = false := by simp [Shape.isF_of_isI intA]
  unfold State.vcmp
  rw [State.vChecked_good ready (by simp only [intD, allI, scalar]; simp)
    (countOk_iff.2 (List.forall_mem_cons.2 ⟨countA, fun h hh => (fitsO h hh).2⟩))]
  simp only [notF, Bool.false_eq_true, if_false, List.headD_eq_getD, icond_eq_condInt]

/-- VCMP of class F operands: all ones where the comparison of Table 5-4 holds, with its flags (R64). -/
theorem State.vcmp_flt (fitsA : (VOpd.sh a).FitsF s (s.shape d).count) (fitsO : o.FitsF s (s.shape d).count) :
    s.vcmp d a o k = s.vMap (s.shape d) (s.shape a :: o.shapes s) false fun l _ =>
      let r := fCompare (fcondOf k) ((s.shape a).flt (l.getD 0 0)) (o.flt s l)
      (if r.1 then 2 ^ (s.shape d).width - 1 else 0, r.2) := by
  obtain ⟨fltA, countA⟩ := fitsA _ (List.mem_singleton.2 rfl)
  have allF : (s.shape a :: o.shapes s).all Shape.isF = true := by simpa [fltA] using fun h hh => (fitsO h hh).1
  unfold State.vcmp
  rw [State.vChecked_good ready (by simp only [intD, allF]; simp)
    (countOk_iff.2 (List.forall_mem_cons.2 ⟨countA, fun h hh => (fitsO h hh).2⟩))]
  simp only [allF, if_true, List.headD_eq_getD]

end

section
variable (ready : VeReady s [s.shape d, s.shape a]) (count : (s.shape a).count = (s.shape d).count ∨ (s.shape a).count = 1)
include ready count

/-- VCVT between class I shapes saturates, with OV where it does (R161). -/
theorem execVcvt_int_int (intD : (s.shape d).isI = true) (intA : (s.shape a).isI = true) :
    execVcvt d a rm s = s.vMap (s.shape d) [s.shape a] false fun l _ =>
      let x := (s.shape a).int (l.getD 0 0)
      let y := max (s.shape d).lo (min (s.shape d).hi x)
      ((s.shape d).wrap y, { ov := decide (x ≠ y) }) := by
  unfold execVcvt
  rw [State.vChecked_good ready (by simp [intD, intA]) (countOk_iff.2 (by simpa using count))]
  simp only [Shape.isF_of_isI intD, Shape.isF_of_isI intA, Bool.or_self, Bool.and_false, Bool.false_eq_true, if_false,
    List.headD_eq_getD]

/-- An integer is rounded once into a class F shape. -/
theorem execVcvt_int_flt (fltD : (s.shape d).isF = true) (intA : (s.shape a).isI = true) :
    execVcvt d a rm s = s.vMap (s.shape d) [s.shape a] (rm == .sr) fun l w =>
      (s.shape d).rnd rm w (intVal ((s.shape a).int (l.getD 0 0)), {}) := by
  unfold execVcvt
  rw [State.vChecked_good ready (by simp [fltD, intA]) (countOk_iff.2 (by simpa using count))]
  simp only [fltD, Shape.isF_of_isI intA, Bool.true_or, Bool.and_true, Bool.false_eq_true, if_false, if_true, List.headD_eq_getD]

/-- So is a class F value. -/
theorem execVcvt_flt_flt (fltD : (s.shape d).isF = true) (fltA : (s.shape a).isF = true) :
    execVcvt d a rm s = s.vMap (s.shape d) [s.shape a] (rm == .sr) fun l w =>
      (s.shape d).rnd rm w ((s.shape a).flt (l.getD 0 0), {}) := by
  unfold execVcvt
  rw [State.vChecked_good ready (by simp [fltD, fltA]) (countOk_iff.2 (by simpa using count))]
  simp only [fltD, fltA, Bool.or_self, Bool.and_true, if_true, List.headD_eq_getD]

/-- A class F value is rounded to an integer and saturates (R161). -/
theorem execVcvt_flt_int (intD : (s.shape d).isI = true) (fltA : (s.shape a).isF = true) :
    execVcvt d a rm s = s.vMap (s.shape d) [s.shape a] (rm == .sr) fun l w =>
      let r := toIntSat rm w (s.shape d).lo (s.shape d).hi 0 ((s.shape a).flt (l.getD 0 0))
      ((s.shape d).wrap r.1, r.2) := by
  unfold execVcvt
  rw [State.vChecked_good ready (by simp [intD, fltA]) (countOk_iff.2 (by simpa using count))]
  simp only [fltA, Shape.isF_of_isI intD, Bool.or_true, Bool.and_true, Bool.false_eq_true, if_false, if_true, List.headD_eq_getD]

/-- VCOPY moves stored bits. -/
theorem execVcopy_good {z : BitVec 3} (width : (s.shape d).width = (s.shape a).width) :
    execVcopy d a z s = s.vMap (s.shape d) [s.shape a] false fun l _ => (l.getD 0 0, {}) := by
  unfold execVcopy
  rw [State.vChecked_good ready (by simp [width]) (countOk_iff.2 (by simpa using count))]
  simp only [List.headD_eq_getD]

end

section
variable {q : Src} (ready : VeReady s [s.shape d])
include ready

/-- VFILL on class I: the scalar modulo 2^w in every element. -/
theorem execVfill_int (int : (s.shape d).isI = true) (scalar : q.isFloat = false) :
    execVfill d q rm s = s.vMap (s.shape d) [] false fun _ _ => ((s.shape d).wrap (s.ev .ve q).toInt, {}) := by
  unfold execVfill
  rw [State.vChecked_good ready (by simp [int, scalar]) rfl]
  simp [Shape.isF_of_isI int]

/-- VFILL on class F: the scalar as FP32, rounded once. -/
theorem execVfill_flt (flt : (s.shape d).isF = true) :
    execVfill d q rm s = s.vMap (s.shape d) [] (rm == .sr) fun _ w =>
      (s.shape d).rnd rm w (fp32.decode (q.fval (s.cap .ve)), {}) := by
  unfold execVfill
  rw [State.vChecked_good ready (by simp [flt]) rfl]
  simp [flt]

/-- VIOTA writes the scalar plus the element number, modulo 2^w. -/
theorem execViota_int {z : BitVec 3} (int : (s.shape d).isI = true) (scalar : q.isFloat = false) :
    execViota d q z s = s.vPut (s.shape d).count (s.shape d).count ((s.shape d).outs 0 (s.shape d).count
      ((List.range (s.shape d).count).map fun (j : Nat) => (s.shape d).wrap ((s.ev .ve q).toInt + j))) s.me.rngVe 0 := by
  unfold execViota
  rw [State.vChecked_good ready (by simp [int, scalar]) rfl]
  simp only [State.vElem_ready ready, State.vHi_ready ready, Nat.sub_zero, Nat.zero_add]

end

/-- SHSET stores the scalar in its shape register, reserved bits as 0 (R153). -/
theorem execShset_spec {q : Src} {z : BitVec 3} : ∃ t, execShset d q z s = .next t
    ∧ s.Turns t { s.me with sh := vset s.me.sh d.toNat (s.ev .ve q &&& 0x1FFFFFFFFF1FFFFF), ve := s.me.ve.stepped 0 } := by
  have turn := State.Turns.upd s fun c => { c with sh := vset c.sh d.toNat (s.ev .ve q &&& 0x1FFFFFFFFF1FFFFF) }
  refine ⟨_, rfl, turn.trans ?_⟩
  have done := State.unitDone_ve (s := s.upd fun c => { c with sh := vset c.sh d.toNat (s.ev .ve q &&& 0x1FFFFFFFFF1FFFFF) }) 0
  rwa [turn.me] at done

end

/-- Settles O22: each step is the map of its function over its operands; VIOTA and SHSET write what they compute. That VSEL and
the exact conversions of VCVT advance the generator in SR is the model's choice (assumption 51). -/
theorem vectorSelectConvertFill : Obligations.VectorSelectConvertFill := by
  unfold Obligations.VectorSelectConvertFill
  intro s d a b c q rm z k hd ha hb hc sized ones cmpF qv
  refine ⟨fun mask sizeA sizeB sizeC ready => ⟨fun intD intA intB => ?_, fun fltD fltA fltB => ?_⟩,
    fun intD sizeA sizeB ready => ⟨fun intA intB => ?_, fun fltA fltB => ?_⟩,
    fun intD sizeA ready => ⟨fun intA scalar => ?_, fun fltA => ?_⟩,
    fun sizeA ready => ⟨fun intD intA => ?_, fun fltD intA => ?_, fun fltD fltA => ?_, fun intD fltA => ?_, fun width => ?_⟩,
    fun ready => ⟨fun intD scalar => ⟨?_, ?_⟩, fun fltD => ?_⟩, ?_⟩
  · exact .of_vMap ready (execVsel_int ready mask ⟨sizeA, sizeB, sizeC⟩ ⟨intD, intA, intB⟩)
  · exact .of_vMap ready (execVsel_flt ready mask ⟨sizeA, sizeB, sizeC⟩ ⟨fltD, fltA, fltB⟩)
  · exact .of_vMap ready (State.vcmp_int (o := .sh b) ready intD (List.forall_mem_singleton.2 ⟨intA, sizeA⟩)
      (List.forall_mem_singleton.2 ⟨intB, sizeB⟩) rfl)
  · exact .of_vMap ready (State.vcmp_flt (o := .sh b) ready intD (List.forall_mem_singleton.2 ⟨fltA, sizeA⟩)
      (List.forall_mem_singleton.2 ⟨fltB, sizeB⟩))
  · exact .of_vMap ready (State.vcmp_int (o := .q q) ready intD (List.forall_mem_singleton.2 ⟨intA, sizeA⟩) nofun scalar)
  · exact .of_vMap ready (State.vcmp_flt (o := .q q) ready intD (List.forall_mem_singleton.2 ⟨fltA, sizeA⟩) nofun)
  · exact .of_vMap ready (execVcvt_int_int ready sizeA intD intA)
  · exact .of_vMap ready (execVcvt_int_flt ready sizeA fltD intA)
  · exact .of_vMap ready (execVcvt_flt_flt ready sizeA fltD fltA)
  · exact .of_vMap ready (execVcvt_flt_int ready sizeA intD fltA)
  · exact .of_vMap ready (execVcopy_good (z := z) ready sizeA width)
  · exact .of_vMap ready (execVfill_int ready intD scalar)
  · exact .of_outs ready (List.mem_singleton.2 rfl) (execViota_int (z := z) ready intD scalar) le_rfl (by simp)
  · exact .of_vMap ready (execVfill_flt ready fltD)
  · obtain ⟨t, run, turn⟩ := execShset_spec (s := s) (d := d) (q := q) (z := z)
    refine ⟨t, run, ?_, ?_, fun j other => ?_, ?_, turn.elsewhere⟩ <;> rw [turn.me]
    · exact vget_vset_same _ _ _ d.isLt
    · exact vget_vset_ne _ _ _ other

end Sys2Proof.Machine

/-! SUPPORT. Reductions, running sums and block formats of the VE (R162, R163, R165), and the statement about them. -/

namespace Sys2Proof.Machine

/-! ## Lane words, sums and blocks -/

/-- Each group of R62 gives 32 lane words. -/
theorem length_laneGroups (g : Nat) (x : BitVec 32) : (laneGroups g x).1.length = 32 * g := by
  induction g generalizing x with
  | zero => rfl
  | succ g ih => simp only [laneGroups, List.length_append, List.length_map, List.length_range, ih]; omega

/-- There is a lane word for every element. -/
theorem le_length_lanes (sr : Bool) (x : BitVec 32) (n : Nat) : n ≤ (lanes sr x n).1.length := by
  cases sr with
  | false => simp [lanes]
  | true => simp only [lanes, if_true, length_laneGroups]; omega

theorem slice_all {α : Type} {n : Nat} {l : List α} (h : l.length = n) : slice 0 n l = l := by
  simp [slice, ← h]

/-- Exact results raise no flags. -/
theorem joinAll_exact {α : Type} (f : α → Nat) (l : List α) : joinAll (l.map fun x => (f x, {})) = {} := by
  unfold joinAll
  induction l with
  | nil => rfl
  | cons x l ih => exact ih

@[simp] theorem length_runningSums (xs : List Int) (acc : Int) : (runningSums xs acc).length = xs.length := by
  induction xs generalizing acc with
  | nil => rfl
  | cons x xs ih => simp [runningSums, ih]

theorem scanInts_eq_runningSums (xs : List Int) (acc : Int) : scanInts xs acc = runningSums xs acc := by
  induction xs generalizing acc with
  | nil => rfl
  | cons x xs ih => simp only [scanInts, runningSums, ih]

@[simp] theorem length_scanFixed (xs : List Nat) (acc : Nat) : (scanFixed xs acc).length = xs.length := by
  induction xs generalizing acc with
  | nil => rfl
  | cons x xs ih => simp [scanFixed, ih]

theorem maxInts_eq_foldl (xs : List Int) : maxInts xs = xs.tail.foldl max (xs.headD 0) := by cases xs <;> rfl

/-- The greatest of numbers that are not negative is the greatest of them and 0. -/
theorem maxInts_natAbs (xs : List Int) :
    maxInts (xs.map fun x => (x.natAbs : Int)) = (xs.map fun x => (x.natAbs : Int)).foldl max 0 := by
  cases xs with
  | nil => rfl
  | cons x xs => simp [maxInts]

/-- What R162 asks of the counts: blocks of one length fill the shape. -/
theorem blockLen_spec {n k b : Nat} (h : blockLen n k = some b) : 0 < b ∧ k * b = n := by
  unfold blockLen at h
  split at h
  · next x => cases h; exact ⟨by omega, x.2⟩
  · split at h
    · next x => cases h; exact ⟨by omega, x.2⟩
    · cases h

section
variable {α : Type}

@[simp] theorem length_groupsOf (b k : Nat) (l : List α) : (groupsOf b k l).length = k := by
  induction k generalizing l with
  | zero => rfl
  | succ k ih => simp [groupsOf, ih]

theorem length_of_mem_groupsOf {b k : Nat} {l g : List α} (enough : k * b ≤ l.length) (member : g ∈ groupsOf b k l) :
    g.length = b := by
  induction k generalizing l with
  | zero => cases member
  | succ k ih =>
    rw [Nat.succ_mul] at enough
    rcases List.mem_cons.1 member with rfl | later
    · rw [List.length_take]; omega
    · exact ih (by rw [List.length_drop]; omega) later

theorem length_flatten_of_all {b : Nat} {l : List (List α)} (h : ∀ x, x ∈ l → x.length = b) :
    l.flatten.length = l.length * b := by
  rw [List.length_flatten, List.sum_eq_card_nsmul _ b (by simpa using h), List.length_map, smul_eq_mul]

end

@[simp] theorem length_quantBlock_elems (el : MxElem) (rm : RMode) (xs : List (FVal × Nat)) :
    (quantBlock el rm xs).elems.length = xs.length := by
  unfold quantBlock
  split
  · simp
  · split <;> simp

/-! ## Reductions and running sums -/

section
variable (s : State) (d a : BitVec 4) (rm : RMode)

theorem execVrsum_eq : exec (.vrsum d a rm) s = s.vred d a rm (fun h l =>
    (fp32.decode (sumFixed ((h.f32s l).map (·.1))).1, (joinAll (h.f32s l)).join (sumFixed ((h.f32s l).map (·.1))).2))
    sumInts := rfl
theorem execVrmax_eq : exec (.vrmax d a rm) s = s.vred d a rm (fun h l => maxAll (l.map h.flt)) maxInts := rfl
theorem execVamax_eq : exec (.vamax d a rm) s = s.vred d a rm (fun h l => maxAll (l.map fun v => (h.flt v).abs))
    fun l => maxInts (l.map fun x => (x.natAbs : Int)) := rfl

end

section
variable {s : State} {d a b : BitVec 4} {rm : RMode} {f : Shape → List Nat → FVal × FFlags} {g : List Int → Int}

section
variable (ready : VeReady s [s.shape d, s.shape a])
include ready

/-- A reduction of exact integers, modulo 2^w. -/
theorem State.vred_int (intD : (s.shape d).isI = true) (intA : (s.shape a).isI = true) (one : (s.shape d).count = 1) :
    s.vred d a rm f g = s.vPut 0 0 ((s.shape d).outs 0 (s.shape d).count
      [(s.shape d).wrap (g (((s.shape a).readIn s.me.spad).map (s.shape a).int))]) s.me.rngVe 0 := by
  unfold State.vred
  rw [State.vChecked_good ready (by simp [intD, intA]) (by simp [one])]
  simp only [State.vTry_got ready, State.vHi_ready ready, lt_irrefl, if_false, Shape.isF_of_isI intD, Bool.false_and,
    Bool.false_eq_true, List.map_cons, List.headD_cons, one]
  rfl

/-- A reduction of class F values, rounded once. -/
theorem State.vred_flt (fltD : (s.shape d).isF = true) (fltA : (s.shape a).isF = true) (one : (s.shape d).count = 1) :
    let n := lanes (rm == .sr) s.me.rngVe 1
    let r := (s.shape d).rnd rm (n.1.headD 0) (f (s.shape a) ((s.shape a).readIn s.me.spad))
    s.vred d a rm f g = s.vPut 0 0 ((s.shape d).outs 0 (s.shape d).count [r.1]) n.2 (veFlags r.2) := by
  unfold State.vred
  rw [State.vChecked_good ready (by simp [fltD, fltA]) (by simp [one])]
  simp only [State.vTry_got ready, State.vHi_ready ready, lt_irrefl, if_false, fltD, fltA, Bool.and_self, Bool.true_and, if_true,
    List.map_cons, List.headD_cons, one]

/-- VSCAN of exact integers, each sum modulo 2^w. -/
theorem execVscan_int (intD : (s.shape d).isI = true) (intA : (s.shape a).isI = true)
    (same : (s.shape d).count = (s.shape a).count) :
    execVscan d a rm s = s.vPut (s.shape d).count (s.shape d).count ((s.shape d).outs 0 (s.shape d).count
      ((runningSums (((s.shape a).readIn s.me.spad).map (s.shape a).int) 0).map (s.shape d).wrap)) s.me.rngVe 0
      ((s.shape a).readIn s.me.spad) := by
  have all : slice 0 (s.shape d).count (scanInts (((s.shape a).readIn s.me.spad).map (s.shape a).int) 0) =
      runningSums (((s.shape a).readIn s.me.spad).map (s.shape a).int) 0 := by
    rw [scanInts_eq_runningSums, slice_all (by simp [same])]
  unfold execVscan
  rw [State.vChecked_good ready (by simp [intD, intA]) (by simp [same])]
  simp only [State.vTry_got ready, State.vElem_ready ready, State.vHi_ready ready, Shape.isF_of_isI intD, Bool.false_and,
    Bool.false_eq_true, if_false, List.map_cons, List.headD_cons, all, joinAll_exact, List.map_map]
  rfl

/-- VSCAN of class F values: the sums of Table 2-11, each rounded once. -/
theorem execVscan_flt (fltD : (s.shape d).isF = true) (fltA : (s.shape a).isF = true)
    (same : (s.shape d).count = (s.shape a).count) :
    let n := lanes (rm == .sr) s.me.rngVe (s.shape d).count
    let s32 := (s.shape a).f32s ((s.shape a).readIn s.me.spad)
    let sums := scanFixed (s32.map (·.1)) 0x80000000
    let rs := (List.range (s.shape d).count).map fun j =>
      let p := sums.getD j (0, {})
      let r := (s.shape d).rnd rm (n.1.getD j 0) (fp32.decode p.1, p.2)
      (r.1, r.2.join (s32.getD j (0, {})).2)
    execVscan d a rm s = s.vPut (s.shape d).count (s.shape d).count ((s.shape d).outs 0 (s.shape d).count (rs.map (·.1))) n.2
      (veFlags (joinAll rs)) ((s.shape a).readIn s.me.spad) := by
  intro n s32 sums rs
  have len32 : s32.length = (s.shape d).count := by simp [s32, Shape.f32s, same]
  have lenSums : sums.length = (s.shape d).count := by simp [sums, len32]
  have lenLanes : (s.shape d).count ≤ n.1.length := le_length_lanes ..
  have results : ((((slice 0 (s.shape d).count sums).zip n.1).map fun p =>
      (s.shape d).rnd rm p.2 (fp32.decode p.1.1, p.1.2)).zip (slice 0 (s.shape d).count s32)).map
        (fun p => (p.1.1, p.1.2.join p.2.2)) = rs := by
    rw [slice_all len32, slice_all lenSums]
    refine List.ext_getElem (by simp [rs, len32, lenSums, lenLanes]) fun j left right => ?_
    have inside : j < (s.shape d).count := by simpa [rs] using right
    simp [rs, inside, len32, lenSums, inside.trans_le lenLanes]
  unfold execVscan
  rw [State.vChecked_good ready (by simp [fltD, fltA]) (by simp [same])]
  simp only [State.vTry_got ready, State.vElem_ready ready, State.vHi_ready ready, fltD, fltA, Bool.and_self, Bool.true_and,
    if_true, List.map_cons, List.headD_cons, Nat.sub_zero]
  rw [← results]

end

/-! ## Block formats (R162, R163) -/

section
variable {el : MxElem} {n : Nat} (ready : VeReady s [s.shape d, s.shape a, s.shape b]) (codes : (s.shape b).ty = 0x10)
  (same : (s.shape d).count = (s.shape a).count) (blocks : blockLen (s.shape a).count (s.shape b).count = some n)
include ready codes same blocks

/-- VQUANT: the scale codes, then the elements. -/
theorem execVquant_good {sr : Bool} (fltA : (s.shape a).isF = true) (mx : tyM (s.shape d).ty = some el) :
    let m := lanes sr s.me.rngVe (s.shape a).count
    let qs := (groupsOf n (s.shape b).count ((((s.shape a).readIn s.me.spad).map (s.shape a).flt).zip m.1)).map
      (quantBlock el (if sr then .sr else .rne))
    execVquant d a b sr s = s.vPut (s.shape a).count (s.shape a).count
      ((s.shape b).outs 0 (s.shape b).count (qs.map (·.code))
        ++ (s.shape d).outs 0 (s.shape d).count (qs.map (·.elems)).flatten) m.2
      (veFlags (qs.foldl (fun f q => f.join q.flags) {}) (qs.any (·.scaleUf))) ((s.shape a).readIn s.me.spad) := by
  obtain ⟨pos, fill⟩ := blockLen_spec blocks
  have number : (s.shape a).count / n = (s.shape b).count := by rw [← fill, Nat.mul_div_cancel _ pos]
  have mode : ((if sr then .sr else .rne : RMode) == .sr) = sr := by cases sr <;> rfl
  unfold execVquant
  rw [State.vChecked_good ready (by simp [fltA, mx, codes]) (by simp [same, blocks])]
  simp only [mx, blocks, State.vTry_got ready, State.vElem_ready ready, State.vHi_ready ready, List.map_cons, List.headD_cons,
    Nat.sub_zero, Nat.zero_div, number, slice_all (Shape.length_readIn ..), same]

/-- VDEQ: each element scaled by its block's code, rounded once; code 255 gives a NaN. -/
theorem execVdeq_good (fltD : (s.shape d).isF = true) (mx : tyM (s.shape a).ty = some el) :
    let m := lanes (rm == .sr) s.me.rngVe (s.shape a).count
    let one := fun (k : Nat) (x : Nat × Nat) => if k = 255 then (s.shape d).rnd rm x.2 (.nan false, {})
      else (s.shape d).rnd rm x.2 ((el.decode x.1).scale ((k : Int) - 127), {})
    let rs := (((groupsOf n (s.shape b).count (((s.shape a).readIn s.me.spad).zip m.1)).zip
      ((s.shape b).readIn s.me.spad)).map fun p => p.1.map (one p.2)).flatten
    execVdeq d a b rm s = s.vPut (s.shape a).count (s.shape a).count
      ((s.shape d).outs 0 (s.shape d).count (rs.map (·.1))) m.2 (veFlags (joinAll rs))
      ([s.shape a, s.shape b].map fun h => h.readIn s.me.spad).flatten := by
  obtain ⟨pos, fill⟩ := blockLen_spec blocks
  have number : (s.shape a).count / n = (s.shape b).count := by rw [← fill, Nat.mul_div_cancel _ pos]
  unfold execVdeq
  rw [State.vChecked_good ready (by simp [fltD, mx, codes]) (by simp [same, blocks])]
  simp only [mx, blocks, State.vTry_got ready, State.vElem_ready ready, State.vHi_ready ready, List.map_cons, List.getD_cons_zero,
    List.getD_cons_succ, Nat.sub_zero, Nat.zero_div, number, slice_all (Shape.length_readIn ..), same]

end

end

/-- Settles O23: each step writes what it computes of its sources, with its flags and the generator as computed. One group
of lane words for a reduction, and one conversion for each element of VSCAN, are the model's choice (assumption 51), as is the
order of VQUANT's writes (assumption 65). -/
theorem vectorReductionsAndBlocks : Obligations.VectorReductionsAndBlocks := by
  unfold Obligations.VectorReductionsAndBlocks
  intro s d a b rm sr hd ha hb es xs put g
  refine ⟨fun intD intA _ ready => ⟨fun one => ?_, fun same => ?_⟩, fun fltD fltA same ready => ?_,
    fun fltD fltA one ready => ?_, fun el n fltA mx codes same blocks ready => ?_, fun el n fltD mx codes same blocks ready => ?_⟩
  · have done {i f k} (run : exec i s = s.vred d a rm f k) : VeDone i s (put [hd.wrap (k xs)]) g 0 :=
      .of_outs ready (List.mem_cons_self ..) (run.trans (State.vred_int ready intD intA one)) le_rfl one.symm
    rw [← maxInts_eq_foldl, ← maxInts_natAbs]
    have sums := done (execVrsum_eq s d a rm)
    have greatest := done (execVrmax_eq s d a rm)
    have magnitude := done (execVamax_eq s d a rm)
    exact ⟨sums, greatest, magnitude⟩
  · exact .of_outs ready (List.mem_cons_self ..) (execVscan_int (rm := rm) ready intD intA same) le_rfl
      (by simp [hd, ha, xs, es, same])
  · exact .of_outs ready (List.mem_cons_self ..) (execVscan_flt (rm := rm) ready fltD fltA same) le_rfl (by simp [hd])
  · intro n out s32 sum
    have done {i f k} (run : exec i s = s.vred d a rm f k) : out i (f ha es) :=
      .of_outs ready (List.mem_cons_self ..) (run.trans (State.vred_flt ready fltD fltA one)) le_rfl one.symm
    have sums := done (execVrsum_eq s d a rm)
    have greatest := done (execVrmax_eq s d a rm)
    have magnitude := done (execVamax_eq s d a rm)
    exact ⟨sums, greatest, magnitude⟩
  · intro m qs
    obtain ⟨_, _, _, good⟩ := id ready
    obtain ⟨_, fill⟩ := blockLen_spec blocks
    have lenLanes : ha.count ≤ m.1.length := le_length_lanes ..
    have lenCodes : (qs.map (·.code)).length = hb.count := by simp [qs]
    have lenElems : (qs.map (·.elems)).flatten.length = hd.count := by
      rw [length_flatten_of_all (b := n), List.length_map, List.length_map, length_groupsOf, fill, same]
      simp only [qs, List.forall_mem_map, length_quantBlock_elems]
      exact fun x hx => length_of_mem_groupsOf (by simp [es, fill, ha]; omega) hx
    rw [← Shape.putOuts_outs, ← Shape.putOuts_outs, ← putOuts_append]
    exact .of_vPut ready (execVquant_good ready codes same blocks fltA mx) le_rfl
      ((Shape.outs_spad (good hb (by simp)) lenCodes).append (Shape.outs_spad (good hd (by simp)) lenElems))
  · intro m one rs
    obtain ⟨_, fill⟩ := blockLen_spec blocks
    have lenLanes : ha.count ≤ m.1.length := le_length_lanes ..
    have lenElems : rs.length = hd.count := by
      rw [length_flatten_of_all (b := n), List.length_map, List.length_zip, length_groupsOf, Shape.length_readIn, min_self,
        fill, same]
      simp only [List.forall_mem_map, List.length_map]
      exact fun p hp => length_of_mem_groupsOf (by simp [es, fill, ha]; omega) (List.of_mem_zip hp).1
    exact .of_outs ready (List.mem_cons_self ..) (execVdeq_good ready codes same blocks fltD mx) le_rfl
      ((List.length_map ..).trans lenElems)

end Sys2Proof.Machine

/-! SUPPORT. Gather and scatter of the VE by offsets of the scratchpad (R166), and the words that steer its micro-program
(R22, R169). -/

namespace Sys2Proof.Machine

theorem Core.VeFree.withProgress {c : Core} (h : c.VeFree) (elem : Nat) (limit : Option Nat) (parts : List Nat) :
    ({ c with ve := { c.ve with elem := elem, limit := limit, parts := parts } } : Core).VeFree :=
  ⟨h.tiles, h.open_, h.ask, h.hit, h.fails⟩

theorem Shape.size_pos_of_movable {h : Shape} (good : h.check = none) (movable : h.movable = true) : 0 < h.size :=
  Shape.size_pos good (by simp [Shape.movable] at movable; exact movable.1)

/-- Pairs of a list with its indices. -/
theorem range_zip_eq_zipIdx {α : Type} (l : List α) : (List.range l.length).zip l = l.zipIdx.map fun x => (x.2, x.1) := by
  refine List.ext_getElem (by simp) fun j left right => ?_
  simp

section
variable {s : State}

/-- A step that makes its last writes and is done. -/
theorem State.unitOut_done {ws : List (Bool × Nat × List Byte)} (outs : SpadOuts ws) (free : s.me.VeFree) (rng : BitVec 32)
    (elem : Option Nat) : ∃ t, s.unitOut .ve { ws := ws, rng := rng } (fun t => .next (t.unitDone .ve)) elem = .next t
      ∧ s.Turns t { s.me with spad := putOuts ws s.me.spad, ve := s.me.ve.stepped 0 } := by
  obtain ⟨t, turn, run⟩ := State.unitOut_ve (o := { ws := ws, rng := rng }) outs free
  have done := t.unitDone_ve 0
  rw [turn.me] at done
  exact ⟨_, run .., turn.trans done⟩

/-- The elements of a gather are the bytes that stand at its offsets. -/
theorem readElems_ve (free : s.me.VeFree) (size : Nat) (l : List Nat) (acc : List (List Byte)) :
    readElems true size l acc s = .ok (acc.reverse ++ l.map fun a => s.me.spad.rdBytes a size, none) s := by
  induction l generalizing acc with
  | nil => simp [readElems]
  | cons a l ih => simp [readElems, State.rdA_ve free, ih]

/-- A scatter writes its elements one after another. -/
theorem scatterFrom_ve (o : State) {size : Nat} (pos : 0 < size) (l : List (Nat × Int × Nat)) {s : State} (free : s.me.VeFree) :
    ∃ t, scatterFrom o true size l s = .next t ∧ s.Turns t { s.me with
      spad := (l.map (·.2)).foldl (fun m x => m.wrBytes x.1.toNat (leBytes size x.2)) s.me.spad, ve := s.me.ve.stepped 0 } := by
  induction l generalizing s with
  | nil => exact ⟨_, rfl, s.unitDone_ve 0⟩
  | cons x l ih =>
    obtain ⟨j, a, v⟩ := x
    have some_ : leBytes size v ≠ [] := List.ne_nil_of_length_pos (by rwa [length_leBytes])
    have turn := State.Turns.upd s fun c => { c with spad := c.spad.wrBytes a.toNat (leBytes size v) }
    obtain ⟨t, run, rest⟩ := ih (turn.me ▸ free.withSpad _)
    rw [turn.me] at rest
    exact ⟨t, by simpa [scatterFrom, State.unitWr_ve free _ some_, State.noteFail] using run, turn.trans rest⟩

/-- A gather or scatter at its start keeps what it has read until its end. -/
theorem State.vOnce_start (start : s.me.ve.parts = []) (l : List Nat) : (s.vOnce l).2 = l
    ∧ s.Turns (s.vOnce l).1 { s.me with ve := { s.me.ve with parts := l } } := by
  rw [State.vOnce, start]
  exact ⟨rfl, State.Turns.upd s fun c => { c with ve := { c.ve with parts := l } }⟩

/-- The writes of a gather that has read its elements at the offsets `ix` of `m`. -/
def gatherOuts (h : Shape) (m : Memory) (ix : List Int) : List (Bool × Nat × List Byte) :=
  ix.zipIdx.map fun x => (true, (h.off x.2).toNat, m.rdBytes x.1.toNat h.size)

theorem gatherOuts_spad {h : Shape} (pos : 0 < h.size) (m : Memory) (ix : List Int) : SpadOuts (gatherOuts h m ix) :=
  List.forall_mem_map.2 fun _ _ => ⟨rfl, List.ne_nil_of_length_pos (by simpa using pos)⟩

/-- Element `j` takes the bytes that offset index `j` had before the step. -/
theorem putOuts_gatherOuts {h : Shape} {ix : List Int} {n : Nat} (all : ix.length = n) (m old : Memory) :
    putOuts (gatherOuts h m ix) old =
      ((List.range n).zip ix).foldl (fun m' x => m'.wrBytes (h.off x.1).toNat (m.rdBytes x.2.toNat h.size)) old := by
  rw [← all, range_zip_eq_zipIdx, List.foldl_map, putOuts, gatherOuts, List.foldl_map]

/-- The end of a gather all of whose elements have been read. -/
theorem State.gatherPut_all (h : Shape) (m : Memory) (ix : List Int) :
    s.gatherPut h 0 ((ix.map Int.toNat).map fun a => m.rdBytes a h.size) none =
      s.unitOut .ve { ws := gatherOuts h m ix, rng := s.me.rngVe } (fun t => .next (t.unitDone .ve)) (some 0) := by
  simp [State.gatherPut, gatherOuts, List.zipIdx_map, Function.comp_def]

section
variable {d a b : BitVec 4} {z : BitVec 3} (intA : (s.shape a).isI = true) (width : (s.shape a).width = 32)
include intA width

section
variable (movable : (s.shape d).movable = true) (count : (s.shape a).count = (s.shape d).count ∨ (s.shape a).count = 1)
  (ready : VeReady s [s.shape d, s.shape a])
  (inside : s.vIndexFail true (s.shape d).size (s.shape d).runs
    ((bcast (s.shape d).count ((s.shape a).readIn s.me.spad)).map (s.shape a).int) = none)
include movable count ready inside

/-- A gather whose indices pass their checks has read its elements and writes them. -/
theorem execVgather_good : let u := (s.vOnce ((s.shape a).readIn s.me.spad)).1
    execVgather d a z s = u.unitOut .ve
      { ws := gatherOuts (s.shape d) s.me.spad ((bcast (s.shape d).count ((s.shape a).readIn s.me.spad)).map (s.shape a).int)
        rng := u.me.rngVe } (fun t => .next (t.unitDone .ve)) (some 0) := by
  have ⟨_, _, ⟨_, _, start, _⟩, _⟩ := ready
  obtain ⟨kept, turn⟩ := State.vOnce_start start ((s.shape a).readIn s.me.spad)
  intro u
  have free : u.me.VeFree := turn.me ▸ (Core.VeFree.of_ready ready).withProgress s.me.ve.elem s.me.ve.limit _
  have spad : u.me.spad = s.me.spad := by rw [turn.me]
  have index : (s.shape a).index = (s.shape a).int := rfl
  unfold execVgather
  rw [State.vChecked_good ready (by simp [intA, width, movable]) (countOk_iff.2 (by simpa using count))]
  simp only [State.vTry_got ready, State.vElem_ready ready, width, BEq.rfl, List.map_cons, List.headD_cons, kept, index, if_true,
    inside, List.drop_zero]
  rw [show (s.vOnce ((s.shape a).readIn s.me.spad)).1 = u from rfl, readElems_ve free, spad]
  exact State.gatherPut_all ..

/-- VGATHER is done with the scratchpad that R166 gives. -/
theorem veDone_vgather :
    VeDone (.vgather d a z) s (((List.range (s.shape d).count).zip
      ((bcast (s.shape d).count ((s.shape a).readIn s.me.spad)).map (s.shape a).int)).foldl (fun m x =>
        m.wrBytes ((s.shape d).off x.1).toNat (s.me.spad.rdBytes x.2.toNat (s.shape d).size)) s.me.spad) s.me.rngVe 0 := by
  have ⟨_, _, ⟨_, _, start, _⟩, good⟩ := ready
  have pos := Shape.size_pos_of_movable (good _ (List.mem_cons_self ..)) movable
  obtain ⟨_, turn⟩ := State.vOnce_start start ((s.shape a).readIn s.me.spad)
  obtain ⟨t, run, rest⟩ := State.unitOut_done (gatherOuts_spad pos s.me.spad _)
    (turn.me ▸ (Core.VeFree.of_ready ready).withProgress s.me.ve.elem s.me.ve.limit _) _ (some 0)
  rw [turn.me] at rest
  rw [← putOuts_gatherOuts (by simp)]
  exact .of_turns ((execVgather_good (z := z) intA width movable count ready inside).trans run) (turn.trans rest)

end

section
variable (movable : (s.shape b).movable = true) (count : (s.shape b).count = (s.shape a).count ∨ (s.shape b).count = 1)
  (ready : VeReady s [s.shape a, s.shape b])
  (inside : s.vIndexFail true (s.shape b).size (s.shape b).runs (((s.shape a).readIn s.me.spad).map (s.shape a).int) = none)
include movable count ready inside

/-- A scatter whose indices pass their checks writes its elements at them. -/
theorem execVscatter_good :
    let vs := bcast (s.shape a).count ((s.shape b).readIn s.me.spad)
    let u := (s.vOnce ((s.shape a).readIn s.me.spad ++ vs)).1
    execVscatter a b z s = scatterFrom u true (s.shape b).size ((List.range (s.shape a).count).zip
      ((((s.shape a).readIn s.me.spad).map (s.shape a).int).zip vs)) u := by
  intro vs u
  have ⟨_, _, ⟨_, _, start, _⟩, _⟩ := ready
  have kept : (s.vOnce ((s.shape a).readIn s.me.spad ++ vs)).2 = (s.shape a).readIn s.me.spad ++ vs := (State.vOnce_start start _).1
  have index : (s.shape a).index = (s.shape a).int := rfl
  have indices : ((s.shape a).readIn s.me.spad ++ vs).take (s.shape a).count = (s.shape a).readIn s.me.spad :=
    List.take_left' (Shape.length_readIn ..)
  have values : ((s.shape a).readIn s.me.spad ++ vs).drop (s.shape a).count = vs := List.drop_left' (Shape.length_readIn ..)
  unfold execVscatter
  rw [State.vChecked_good ready (by simp [intA, width, movable]) (countOk_iff.2 (by simpa using count))]
  simp only [start, List.isEmpty_nil, if_true, State.vReads_ve (.of_ready ready), State.unitTry, State.vElem_ready ready, width,
    BEq.rfl, List.map_cons, List.map_nil, List.getD_cons_zero, List.getD_cons_succ, List.drop_zero, index]
  simp only [show bcast (s.shape a).count ((s.shape b).readIn s.me.spad) = vs from rfl, kept, indices, values, inside]
  rfl

/-- So is VSCATTER. -/
theorem veDone_vscatter :
    VeDone (.vscatter a b z) s (((((s.shape a).readIn s.me.spad).map (s.shape a).int).zip
      (bcast (s.shape a).count ((s.shape b).readIn s.me.spad))).foldl (fun m x =>
        m.wrBytes x.1.toNat (leBytes (s.shape b).size x.2)) s.me.spad) s.me.rngVe 0 := by
  have ⟨_, _, ⟨_, _, start, _⟩, good⟩ := ready
  have pos := Shape.size_pos_of_movable (good (s.shape b) (by simp)) movable
  have scatter := execVscatter_good (z := z) intA width movable count ready inside
  extract_lets vs u at scatter
  have turn : s.Turns u _ := (State.vOnce_start start _).2
  obtain ⟨t, run, rest⟩ := scatterFrom_ve u pos ((List.range (s.shape a).count).zip
      ((((s.shape a).readIn s.me.spad).map (s.shape a).int).zip vs))
    (turn.me ▸ (Core.VeFree.of_ready ready).withProgress s.me.ve.elem s.me.ve.limit _)
  rw [turn.me, List.map_snd_zip (by simp [vs])] at rest
  exact .of_turns (scatter.trans run) (turn.trans rest)

end

end

/-! ## The words that steer the micro-program -/

/-- VRUN enters its micro-program with all indices 0 (R22). -/
theorem exec_vrun_spec (s : State) (e : BitVec 12) : ∃ t, exec (.vrun e) s = .next t ∧ s.Turns t { s.me with
    ve := { s.me.ve with upc := e.toNat, idx := Vector.replicate 6 0, due := none, elem := 0 } } :=
  ⟨_, rfl, State.Turns.upd s fun c => { c with
    ve := { c.ve with upc := e.toNat, idx := Vector.replicate 6 0, due := none, elem := 0 } }⟩

/-- VEND finishes the entry (R169). -/
theorem exec_vend_spec (s : State) : ∃ t, exec .vend s = .next t ∧ s.Turns t { s.me with ve := s.me.ve.finish 0 } :=
  ⟨_, rfl, State.Turns.upd s fun c => { c with ve := c.ve.finish 0 }⟩

end

end Sys2Proof.Machine

/-! SUPPORT. Chains of the VE (R168): a chain of any words is its words one after another, and one of class I words completes on
conditions on the state alone; with the statement about them, gather and scatter, and the words that steer a micro-program. -/

namespace Sys2Proof.Machine

/-! ## The words of a chain -/

/-- A list of attempts that all succeed: as many results, each of one of them. -/
theorem mapM_eq_some_spec {α β : Type} {f : α → Option β} {l : List α} {r : List β} (h : l.mapM f = some r) :
    r.length = l.length ∧ ∀ y, y ∈ r → ∃ x, f x = some y := by
  induction l generalizing r with
  | nil =>
    cases h
    exact ⟨rfl, nofun⟩
  | cons x l ih =>
    rw [List.mapM_cons] at h
    obtain ⟨y, first, h⟩ := Option.bind_eq_some_iff.1 h
    obtain ⟨ys, rest, h⟩ := Option.bind_eq_some_iff.1 h
    cases h
    obtain ⟨length, members⟩ := ih rest
    exact ⟨congrArg Nat.succ length, List.forall_mem_cons.2 ⟨⟨x, first⟩, members⟩⟩

/-- The words after a VCHAIN are as many as it says, stand in the section, and are chainable. -/
theorem Core.chainWords_spec {c : Core} {n : Nat} {is : List Instr} (words : c.chainWords n = some is) :
    is.length = n ∧ c.ve.upc + n ≤ 4095 ∧ ∀ i, i ∈ is → (linkOf i).isSome = true := by
  unfold Core.chainWords at words
  dsimp only at words
  split at words
  · cases words
  · next inside =>
    obtain ⟨length, members⟩ := mapM_eq_some_spec words
    refine ⟨length.trans List.length_range, Nat.le_of_not_lt inside, fun i member => ?_⟩
    obtain ⟨k, word⟩ := members i member
    split at word
    · split at word
      · next link => cases word; exact link
      · cases word
    · cases word

/-- A chainable word does in a chain what it does alone. -/
theorem execLink_eq_exec {i : Instr} (link : (linkOf i).isSome = true) (s : State) : execLink i s = exec i s := by
  unfold linkOf at link
  split at link
  on_goal -1 => cases link
  all_goals rfl

/-! ## The run of a chain -/

/-- The state in which a word of a chain starts: at element 0. -/
def State.chained (s : State) : State := s.updEng s.cur .ve fun e => { e with elem := 0, limit := none, parts := [] }

theorem State.turns_chained (s : State) :
    s.Turns s.chained { s.me with ve := { s.me.ve with elem := 0, limit := none, parts := [] } } :=
  State.Turns.upd s fun c => { c with ve := { c.ve with elem := 0, limit := none, parts := [] } }

section
variable {s t u : State} {i : Instr} {is : List Instr}

/-- A word that completes hands on to the rest of the chain. -/
theorem chainRun_cons (link : (linkOf i).isSome = true) (run : exec i s.chained = .next u) (moved : u.me.ve.upc ≠ s.me.ve.upc) :
    chainRun 0 none (i :: is) s = chainRun 0 none is u := by
  have upc : s.chained.me.ve.upc = s.me.ve.upc := by rw [s.turns_chained.me]
  have word : execLink i s.chained = .next u := (execLink_eq_exec link _).trans run
  rw [chainRun, show (s.updEng s.cur .ve fun e => { e with elem := 0, limit := none, parts := [] }) = s.chained from rfl]
  simp only [word, upc, Option.isSome_none, Bool.false_eq_true, if_false, bne_iff_ne, ne_eq, moved, not_false_eq_true, if_true]

/-- Words each of which completes make the whole chain complete (R168). -/
theorem chainRun_of_steps (links : ∀ i, i ∈ is → (linkOf i).isSome = true) (steps : ChainSteps is s t) :
    chainRun 0 none is s = .ok t := by
  induction is generalizing s with
  | nil => exact congrArg _ steps
  | cons i is ih =>
    obtain ⟨u, run, moved, rest⟩ := steps
    obtain ⟨link, links⟩ := List.forall_mem_cons.1 links
    exact (chainRun_cons link run moved).trans (ih links rest)

/-- A chain whose words, checks and overlaps are good runs its words from its own next word on. -/
theorem execVchain_of_run {n : BitVec 3} (words : s.me.chainWords (n.toNat + 1) = some is) (check : chainCheck s is = none)
    (apart : s.chainBad (is.filterMap linkOf) = false) (start : s.me.ve.elem = 0) (limit : s.me.ve.limit = none)
    (run : chainRun 0 none is (s.unitDone .ve) = .ok t) :
    exec (.vchain n) s = .next (t.updEng t.cur .ve fun e => { e with parts := [] }) := by
  show execVchain n s = _
  unfold execVchain
  simp only [words, check, apart, limit, State.vElem, start, Option.isSome_none, Bool.false_eq_true, if_false, run]

/-! ## Words of class I (R159) -/

/-- Such a word is an element-wise step with its operation. -/
theorem exec_of_chainOp {d a b : BitVec 4} {f : Int → Int → Int} (op : chainOp i = some (d, a, b, f)) :
    ∃ rm g, ∀ s, exec i s = s.velt d a (.sh b) rm g (some f) := by
  unfold chainOp at op
  dsimp only at op
  split at op
  case h_1 | h_2 | h_3 | h_4 | h_5 => cases op; exact ⟨_, _, fun _ => rfl⟩
  case h_6 | h_7 | h_8 => cases op; exact ⟨.rne, _, fun _ => rfl⟩
  case h_9 => cases op

/-- Such a word is chainable. -/
theorem linkOf_of_chainOp {x : BitVec 4 × BitVec 4 × BitVec 4 × (Int → Int → Int)} (op : chainOp i = some x) :
    (linkOf i).isSome = true := by
  unfold chainOp at op
  dsimp only at op
  split at op
  case h_9 => cases op
  all_goals rfl

/-- A state in which a class I word of the chain of `s` can start: the shapes are those of `s`, and the VE can run. -/
structure State.ChainsFrom (s u : State) : Prop where
  shapes : ∀ r, u.shape r = s.shape r
  ready : VeReady u []

/-- `VeDone` is one change of the core. -/
theorem VeDone.turns {m : Memory} {x : BitVec 32} {fl : BitVec 64} (done : VeDone i s m x fl) : ∃ t, exec i s = .next t
    ∧ s.Turns t { s.me with spad := m, rngVe := x, ve := s.me.ve.stepped fl } := by
  obtain ⟨t, run, rfl, rfl, ve, frame, elsewhere⟩ := done
  exact ⟨t, run, by rw [← ve, ← frame], elsewhere⟩

/-- A class I word of a chain whose operands pass their checks completes, with its result in the scratchpad. -/
theorem exec_chainable (word : ChainableInt s i) (can : s.ChainsFrom u) : ∃ t, exec i u = .next t
    ∧ u.Turns t { u.me with spad := s.linked i u.me.spad, ve := u.me.ve.stepped 0 } := by
  obtain ⟨d, a, b, f, op, operands⟩ := word
  obtain ⟨shapes, tiles, open_, fresh, _⟩ := can
  simp only [← shapes] at operands
  obtain ⟨intD, goodD, _⟩ := operands (u.shape d) (by simp)
  obtain ⟨intA, goodA, countA⟩ := operands (u.shape a) (by simp)
  obtain ⟨intB, goodB, countB⟩ := operands (u.shape b) (by simp)
  have ready : VeReady u [u.shape d, u.shape a, u.shape b] := ⟨tiles, open_, fresh, by simp [goodD, goodA, goodB]⟩
  obtain ⟨rm, g, run⟩ := exec_of_chainOp op
  have maps := VeMaps.of_vMap ready ((run u).trans (State.velt_int (b := .sh b) ready intD
    (List.forall_mem_singleton.2 ⟨intA, countA⟩) (List.forall_mem_singleton.2 ⟨intB, countB⟩) rfl))
  have done : VeDone i u (s.linked i u.me.spad) u.me.rngVe 0 := by
    simpa [VeMaps, State.linked, op, shapes, lanes, joinAll_exact, VOpd.shapes, VOpd.int, Function.comp_def,
      show veFlags {} = 0 from rfl] using maps
  exact done.turns

/-! ## A chain of class I words -/

theorem State.shape_congr (sh : u.me.sh = s.me.sh) (r : BitVec 4) : u.shape r = s.shape r := by
  simp only [State.shape, sh]

theorem Core.guarded_congr {c d : Core} (ch : c.ch = d.ch) (obs off n : Nat) : c.guarded obs off n = d.guarded obs off n := by
  simp only [Core.guarded, ch]

/-- A change that leaves shapes, windows and channels lets the chain go on, if the VE stands at a start. -/
theorem State.ChainsFrom.of_turns {c : Core} (can : s.ChainsFrom u) (turn : u.Turns t c) (sh : c.sh = u.me.sh)
    (tiles : c.tiles = u.me.tiles) (ch : c.ch = u.me.ch) (fresh : c.ve.Fresh) : s.ChainsFrom t := by
  obtain ⟨shapes, none, open_, _, good⟩ := can
  obtain ⟨rfl, _⟩ := turn
  exact ⟨fun r => (State.shape_congr sh r).trans (shapes r), tiles.trans none,
    fun off n => (Core.guarded_congr ch 0 off n).trans (open_ off n), fresh, good⟩

/-- After a step nothing is left of its progress. -/
theorem Engine.fresh_stepped (e : Engine) (fl : BitVec 64) : (e.stepped fl).Fresh := by
  unfold Engine.stepped
  dsimp only
  split <;> exact ⟨rfl, rfl, rfl, rfl, rfl, rfl, rfl⟩

/-- A word of a micro-program leads to the next one. -/
theorem Engine.upc_stepped {e : Engine} (inside : e.upc ≤ 4095) (fl : BitVec 64) :
    (e.stepped fl).upc = if 4095 ≤ e.upc then pastEnd else e.upc + 1 := by
  have inProg : e.inProg = true := by simp only [Engine.inProg, noUpc, bne_iff_ne]; omega
  rw [← Engine.stepped_eq, if_pos inProg]
  rfl

theorem Engine.upc_stepped_ne {e : Engine} (inside : e.upc ≤ 4095) (fl : BitVec 64) : (e.stepped fl).upc ≠ e.upc := by
  rw [Engine.upc_stepped inside, pastEnd]
  split <;> omega

/-- The words of such a chain complete one after another. -/
theorem chainRun_int (words : ∀ i, i ∈ is → ChainableInt s i) (can : s.ChainsFrom u)
    (inside : is ≠ [] → u.me.ve.upc + is.length ≤ 4096) : ∃ t, chainRun 0 none is u = .ok t ∧ u.Turns t { u.me with
      spad := is.foldl (fun m i => s.linked i m) u.me.spad, ve := is.foldl (fun e _ => e.stepped 0) u.me.ve } := by
  induction is generalizing u with
  | nil => exact ⟨u, rfl, .refl u⟩
  | cons i is ih =>
    obtain ⟨word, words⟩ := List.forall_mem_cons.1 words
    have room : u.me.ve.upc + is.length < 4096 := inside (List.cons_ne_nil i is)
    have start := u.turns_chained
    have ⟨_, _, _, ⟨_, outs, _, _, ask, hit, fails⟩, _⟩ := can
    obtain ⟨v, run, turn⟩ := exec_chainable word (can.of_turns start rfl rfl rfl ⟨rfl, outs, rfl, rfl, ask, hit, fails⟩)
    have whole := start.trans turn
    rw [start.me] at whole
    have upc : v.me.ve.upc = (u.me.ve.stepped 0).upc := by rw [whole.me]; rfl
    obtain ⟨t, rest, turns⟩ := ih words (can.of_turns whole rfl rfl rfl (Engine.fresh_stepped ..)) fun more => by
      have some_ := List.length_pos_iff.2 more
      rw [upc, Engine.upc_stepped (by omega), if_neg (by omega)]
      omega
    obtain ⟨d, a, b, f, op, _⟩ := word
    rw [whole.me] at turns
    have moved : v.me.ve.upc ≠ u.me.ve.upc := upc ▸ Engine.upc_stepped_ne (by omega) 0
    exact ⟨t, (chainRun_cons (linkOf_of_chainOp op) run moved).trans rest, whole.trans turns⟩

/-- None of its words raises a fault when the checks are tried. -/
theorem chainCheck_int (words : ∀ i, i ∈ is → ChainableInt s i) (can : s.ChainsFrom s) : chainCheck s is = none := by
  induction is with
  | nil => rfl
  | cons i is ih =>
    obtain ⟨word, words⟩ := List.forall_mem_cons.1 words
    have ⟨_, _, _, fresh, _⟩ := can
    have tried := State.Turns.upd s fun c => { c with status := .running, call := none }
    obtain ⟨t, run, turn⟩ := exec_chainable word (can.of_turns tried rfl rfl rfl fresh)
    obtain ⟨d, a, b, f, op, _⟩ := word
    have link := (execLink_eq_exec (linkOf_of_chainOp op) _).trans run
    rw [tried.me] at turn
    have running : t.me.status = .running := by rw [turn.me]
    have uc : t.me.uc = s.me.uc := by rw [turn.me]
    have probe : s.probe (execLink i) = none := by simp [State.probe, link, running, uc]
    simp only [chainCheck, probe, ih words]

end

theorem foldl_stepped_fresh {e : Engine} (fresh : e.Fresh) (is : List Instr) : (is.foldl (fun e _ => e.stepped 0) e).Fresh := by
  induction is generalizing e with
  | nil => exact fresh
  | cons i is ih => exact ih (e.fresh_stepped 0)

theorem Core.clear_parts {c : Core} (clear : c.ve.parts = []) : ({ c with ve := { c.ve with parts := [] } } : Core) = c := by
  rw [← clear]

/-- A chain of class I words completes, with each word's result in the scratchpad in turn. -/
theorem exec_vchain_int {s : State} {n : BitVec 3} {is : List Instr} (words : s.me.chainWords (n.toNat + 1) = some is)
    (apart : s.chainBad (is.filterMap linkOf) = false) (ready : VeReady s []) (int : ∀ i, i ∈ is → ChainableInt s i) :
    ∃ t, exec (.vchain n) s = .next t ∧ s.Turns t { s.me with
      spad := is.foldl (fun m i => s.linked i m) s.me.spad, ve := is.foldl (fun e _ => e.stepped 0) (s.me.ve.stepped 0) } := by
  obtain ⟨length, inside, _⟩ := Core.chainWords_spec words
  have ⟨_, _, ⟨elem, _, _, limit, _⟩, _⟩ := ready
  have can : s.ChainsFrom s := ⟨fun _ => rfl, ready⟩
  have first := s.unitDone_ve 0
  have upc : (s.unitDone .ve).me.ve.upc = s.me.ve.upc + 1 := by
    rw [first.me]
    exact (Engine.upc_stepped (by omega) 0).trans (if_neg (by omega))
  obtain ⟨t, run, turn⟩ := chainRun_int int (can.of_turns first rfl rfl rfl (Engine.fresh_stepped ..)) fun _ => by omega
  rw [first.me] at turn
  have ⟨_, _, parts, _⟩ := foldl_stepped_fresh (s.me.ve.fresh_stepped 0) is
  have last := State.Turns.upd t fun c => { c with ve := { c.ve with parts := [] } }
  rw [Core.clear_parts (by rw [turn.me]; exact parts)] at last
  have whole := (first.trans turn).trans last
  rw [turn.me] at whole
  exact ⟨_, execVchain_of_run words (chainCheck_int int can) apart elem limit run, whole⟩

/-- Settles O24: gather and scatter access each element at its offset; a chain is its words one after another. -/
theorem vectorGatherScatterAndPrograms : Obligations.VectorGatherScatterAndPrograms := by
  unfold Obligations.VectorGatherScatterAndPrograms
  refine ⟨fun s d a b z => ?_, fun s e => ⟨?_, ?_⟩, fun s t n is words check apart fresh steps => ?_,
    fun s n is words apart ready int => ?_⟩
  · intro hd ha hb ix intA width
    have indices : ix ha.count = (ha.readIn s.me.spad).map ha.int :=
      congrArg _ (bcast_self (Shape.length_readIn ..))
    refine ⟨fun movable count ready inside => veDone_vgather intA width movable count ready inside,
      fun movable count ready inside => ?_⟩
    rw [indices] at inside ⊢
    exact veDone_vscatter intA width movable count ready inside
  · obtain ⟨t, run, turn⟩ := exec_vrun_spec s e
    refine ⟨t, run, ?_, ?_, ?_, ?_, ?_, ?_, turn.elsewhere⟩ <;> rw [turn.me]
  · obtain ⟨t, run, turn⟩ := exec_vend_spec s
    refine ⟨t, run, ?_, ?_, turn.elsewhere⟩ <;> rw [turn.me]
    rfl
  · obtain ⟨elem, _, _, limit, _⟩ := fresh
    obtain ⟨_, _, links⟩ := Core.chainWords_spec words
    exact execVchain_of_run words check apart elem limit (chainRun_of_steps links steps)
  · obtain ⟨t, run, turn⟩ := exec_vchain_int words apart ready int
    refine ⟨t, run, ?_, ?_, ?_, turn.elsewhere⟩ <;> rw [turn.me]

end Sys2Proof.Machine

/-! SUPPORT. What a step of the ME leaves of the state: the core that executes it, the arrays that it visits one after another,
and nothing else (R172, R177), with the start and the end of a step. -/

namespace Sys2Proof.Machine

/-! ## Steps that visit arrays -/

/-- From `s` to `t` the current core has become `c`, each array of `ks` has gone from one content to another as `R` says of
its number, and nothing else has changed. -/
structure State.Visits (s t : State) (ks : List (Nat × Nat)) (R : Nat → ArraySt → ArraySt → Prop) (c : Core) : Prop where
  me : t.me = c
  cores : ∀ n, n ≠ s.cur → t.core n = s.core n
  rest : { t with cores := s.cores, arrays := s.arrays } = s
  others : ∀ k, (∀ j, j ∈ ks → j.2 ≠ k) → t.array k = s.array k
  each : ∀ k, k ∈ ks → R k.2 (s.array k.2) (t.array k.2)

/-- Whether two dies reach each other is a matter of the links alone. -/
theorem State.dieReach_congr {s t : State} (fab : t.fab = s.fab) (a b : Nat) : t.dieReach a b = s.dieReach a b := by
  have up : t.linksUp = s.linksUp := by rw [State.linksUp, fab, State.linksUp]
  have hop : ∀ x y, t.dieHop x y = s.dieHop x y := fun x y => by rw [State.dieHop, up, State.dieHop]
  have walk : ∀ n x y, t.dieWalk y n x = s.dieWalk y n x := fun n => by
    induction n with
    | zero => exact fun _ _ => rfl
    | succ n ih => exact fun x y => by simp only [State.dieWalk, hop, ih]
  simp only [State.dieReach, fab, walk]

namespace State.Visits

variable {s t u : State} {ks ls : List (Nat × Nat)} {P Q R : Nat → ArraySt → ArraySt → Prop} {c d : Core}

theorem cur (h : s.Visits t ks R c) : t.cur = s.cur :=
  show ({ t with cores := s.cores, arrays := s.arrays } : State).cur = s.cur from congrArg State.cur h.rest

theorem fab (h : s.Visits t ks R c) : t.fab = s.fab :=
  show ({ t with cores := s.cores, arrays := s.arrays } : State).fab = s.fab from congrArg State.fab h.rest

theorem reach (h : s.Visits t ks R c) (a b : Nat) : t.dieReach a b = s.dieReach a b := dieReach_congr h.fab a b

theorem of_turns (h : s.Turns t c) (R : Nat → ArraySt → ArraySt → Prop) : s.Visits t [] R c := by
  have rest := h.elsewhere.rest
  have arrays : t.arrays = s.arrays :=
    show ({ t with cores := s.cores } : State).arrays = s.arrays from congrArg State.arrays rest
  refine ⟨h.me, h.elsewhere.cores, ?_, fun k _ => by rw [State.array, arrays, State.array], nofun⟩
  rw [← arrays]
  exact rest

theorem upd (h : s.Visits t ks R c) (f : Core → Core) : s.Visits (t.upd f) ks R (f c) where
  me := by rw [State.me_upd, h.me]
  cores := fun n other => (t.core_upd_ne f (h.cur ▸ other)).trans (h.cores n other)
  rest := h.rest
  others := h.others
  each := h.each

theorem setArray {k : Nat × Nat} {x : ArraySt} (h : R k.2 (s.array k.2) x) : s.Visits (s.setArray k.2 x) [k] R s.me where
  me := rfl
  cores := fun _ _ => rfl
  rest := rfl
  others := fun j other => s.array_setArray_ne x fun e => other k (.head _) e.symm
  each := List.forall_mem_singleton.2 <| by
    rw [s.array_setArray_same k.2 x]
    exact h

/-- Some arrays after others. -/
theorem append (first : s.Visits u ks R d) (second : u.Visits t ls R c) (apart : ∀ j, j ∈ ks → ∀ l, l ∈ ls → j.2 ≠ l.2) :
    s.Visits t (ks ++ ls) R c where
  me := second.me
  cores := fun n other => (second.cores n (first.cur ▸ other)).trans (first.cores n other)
  rest := by
    have later := congrArg (fun x : State => { x with cores := s.cores, arrays := s.arrays }) second.rest
    exact later.trans first.rest
  others := fun k other =>
    (second.others k fun j hj => other j (List.mem_append_right _ hj)).trans
      (first.others k fun j hj => other j (List.mem_append_left _ hj))
  each := fun k member => by
    rcases List.mem_append.1 member with early | late
    · rw [second.others k.2 fun l hl => (apart k early l hl).symm]
      exact first.each k early
    · rw [← first.others k.2 fun j hj => apart j hj k late]
      exact second.each k late

/-- One array before others. -/
theorem cons {k : Nat × Nat} (first : s.Visits u [k] R d) (rest : u.Visits t ks R c) (new : k.2 ∉ ks.map (·.2)) :
    s.Visits t (k :: ks) R c :=
  first.append rest <| List.forall_mem_singleton.2 fun _ member e => new (List.mem_map.2 ⟨_, member, e.symm⟩)

/-- One array twice. -/
theorem again {k : Nat × Nat} (first : s.Visits u [k] P d) (second : u.Visits t [k] Q c)
    (both : ∀ x y z, P k.2 x y → Q k.2 y z → R k.2 x z) : s.Visits t [k] R c where
  me := second.me
  cores := fun n other => (second.cores n (first.cur ▸ other)).trans (first.cores n other)
  rest := by
    have later := congrArg (fun x : State => { x with cores := s.cores, arrays := s.arrays }) second.rest
    exact later.trans first.rest
  others := fun j other => (second.others j other).trans (first.others j other)
  each := List.forall_mem_singleton.2 (both _ _ _ (first.each k (.head _)) (second.each k (.head _)))

theorem mono (h : s.Visits t ks P c) (imp : ∀ k, k ∈ ks → ∀ x y, P k.2 x y → R k.2 x y) : s.Visits t ks R c :=
  ⟨h.me, h.cores, h.rest, h.others, fun k member => imp k member _ _ (h.each k member)⟩

/-- What every array keeps that each visit keeps. -/
theorem keeps {α : Type} (h : s.Visits t ks R c) (g : ArraySt → α) (visit : ∀ n x y, R n x y → g y = g x) (n : Nat) :
    g (t.array n) = g (s.array n) := by
  by_cases visited : ∃ j, j ∈ ks ∧ j.2 = n
  · obtain ⟨j, member, rfl⟩ := visited
    exact visit _ _ _ (h.each j member)
  · rw [h.others n fun j member e => visited ⟨j, member, e⟩]

end State.Visits

/-! ## The end of a step (R27, R177) -/

theorem State.me_meDone (s : State) (fl : BitVec 64) : (s.meDone fl).me =
    { s.me with fmtHeld := none, meProg := Vector.replicate 4 0, meFlags := 0, me := s.me.me.stepped fl } := by
  rw [State.meDone, State.unitDone_me, (State.updEng_me _ _).2.2, State.me_upd]

theorem State.Visits.me_meDone {s u : State} {ks : List (Nat × Nat)} {R : Nat → ArraySt → ArraySt → Prop} {c : Core}
    (h : s.Visits u ks R c) (fl : BitVec 64) : (u.meDone fl).me =
      { c with fmtHeld := none, meProg := Vector.replicate 4 0, meFlags := 0, me := c.me.stepped fl } := by
  rw [State.me_meDone, h.me]

/-- A step that ends after it has visited arrays is done, where `f` takes back what else it has changed of its core. -/
theorem State.Visits.meDone {s u : State} {ks : List (Nat × Nat)} {R : Nat → ArraySt → ArraySt → Prop} {c : Core}
    (h : s.Visits u ks R c) (fl : BitVec 64) {f : Core → Core} (engine : c.me = s.me.me)
    (back : f { c with me := s.me.me, fmtHeld := s.me.fmtHeld, meProg := s.me.meProg, meFlags := s.me.meFlags } = s.me) :
    MeDone s (u.meDone fl) fl f := by
  obtain ⟨⟨_, _, _, _, _, cores, rest⟩, arrays⟩ := u.meDone_spec fl
  unfold MeDone
  rw [h.me_meDone, engine]
  refine ⟨rfl, rfl, rfl, rfl, back, fun n other => (cores n (h.cur ▸ other)).trans (h.cores n other), ?_⟩
  have later := congrArg (fun x : State => { x with cores := s.cores, arrays := s.arrays }) rest
  exact later.trans h.rest

/-! ## The start of a step (R175, R177) -/

/-- The slots that MASK selects are different ones of the four. -/
theorem Core.selected_slots {c : Core} {n : Nat} {ks : List (Nat × Nat)} (h : c.selected n = some ks) :
    (ks.map (·.1)).Nodup ∧ ∀ k, k ∈ ks → k.1 < 4 := by
  have slots : ∀ {l : List Nat} {r : List (Nat × Nat)},
      (l.mapM fun k => (c.slotArray n k).map fun a => (k, a)) = some r → r.map (·.1) = l := by
    intro l
    induction l with
    | nil => intro r h; cases h; rfl
    | cons x l ih =>
      intro r h
      rw [List.mapM_cons] at h
      obtain ⟨y, first, h⟩ := Option.bind_eq_some_iff.1 h
      obtain ⟨ys, rest, h⟩ := Option.bind_eq_some_iff.1 h
      obtain ⟨a, _, rfl⟩ := Option.map_eq_some_iff.1 first
      cases h
      exact congrArg _ (ih rest)
  simp only [Core.selected] at h
  split at h
  · cases h
  · have names := slots h
    refine ⟨names ▸ (List.nodup_range).filter _, fun k member => ?_⟩
    have slot := List.mem_map_of_mem (f := Prod.fst) member
    rw [names] at slot
    exact List.mem_range.1 (List.mem_filter.1 slot).1

/-- No selected slot has a saved block or row where none has. -/
theorem Core.selected_fresh {c : Core} {n : Nat} {ks : List (Nat × Nat)} (h : c.selected n = some ks)
    (fresh : c.meProg = Vector.replicate 4 0) : ∀ k, k ∈ ks → vget c.meProg 0 k.1 = 0 := fun k member => by
  have := (Core.selected_slots h).2 k member
  rw [fresh]
  simp [vget, this]

section
variable {s : State}

theorem State.meOwned_of_selected {ks : List (Nat × Nat)} (selected : s.me.selected s.cur = some ks)
    (joined : ∀ k, k ∈ ks → s.dieReach (dieOf s.cur) (arrayDie k.2) = true) (f : List (Nat × Nat) → Res) :
    s.meOwned f = f ks := by
  have up : (ks.all fun x => s.arrayUp s.cur x.2) = true := List.all_eq_true.2 joined
  simp only [State.meOwned, selected, up, if_true]

/-- The core with its format word held, taken from the queue where none was. -/
def Core.popped (c : Core) (w : BitVec 128) : Core :=
  { c with fmtq := if c.fmtHeld.isSome then c.fmtq else c.fmtq.drop 1, fmtHeld := some w }

theorem State.mePop_of_head {w : BitVec 128} {ok : BitVec 128 → Bool}
    (head : s.me.fmtHeld = some w ∨ (s.me.fmtHeld = none ∧ s.me.fmtq.head? = some w)) (legal : ok w = true) :
    ∃ t, s.Turns t (s.me.popped w) ∧ ∀ f, s.mePop ok f = f w t := by
  rcases head with held | ⟨free, first⟩
  · have same : s.me.popped w = s.me := by simp only [Core.popped, held, Option.isSome_some, if_true]; rw [← held]
    exact ⟨s, same ▸ .refl s, fun f => by simp only [State.mePop, held, legal, if_true]⟩
  · obtain ⟨r, queue⟩ := List.head?_eq_some_iff.1 first
    have core : s.me.popped w = { s.me with fmtq := r, fmtHeld := some w } := by
      rw [Core.popped, free, queue]
      rfl
    refine ⟨s.upd fun c => { c with fmtq := r, fmtHeld := some w }, ?_, fun f => by
      simp only [State.mePop, free, queue, legal, if_true]⟩
    rw [core]
    exact .upd s _

end

end Sys2Proof.Machine

/-! SUPPORT. Ownership of arrays (R172, R173): MOWN grants an array or raises OWN_DENIED, MREL gives it back; and the statement
about them. -/

namespace Sys2Proof.Machine

theorem exec_mown_eq (n : BitVec 4) (q : Src) (s : State) : exec (.mown n q) s = execMown n q s := rfl
theorem exec_mrel_eq (n : BitVec 4) (q : Src) (s : State) : exec (.mrel n q) s = execMrel n q s := rfl

/-! ## Slots -/

/-- What a slot of 1 to 3 is given stands in it, and in no other. -/
theorem Core.slotArray_set (c : Core) (n : Nat) {k : Nat} (first : 1 ≤ k) (last : k ≤ 3) (x : Option Nat) :
    ({ c with slots := vset c.slots (k - 1) x }).slotArray n k = x
      ∧ ∀ j, j ≠ k → ({ c with slots := vset c.slots (k - 1) x }).slotArray n j = c.slotArray n j := by
  refine ⟨?_, fun j other => ?_⟩
  · rw [Core.slotArray, if_neg (by omega)]
    exact vget_vset_same _ _ _ (by omega)
  · unfold Core.slotArray
    by_cases partner : j = 0
    · rw [if_pos partner, if_pos partner]
    · rw [if_neg partner, if_neg partner]
      exact vget_vset_ne _ _ _ (by omega)

/-! ## A fault of the ME (R309) -/

theorem State.meFault_raised {s : State} (uc : s.me.uc = none) (running : s.me.status = .running) (cause : Cause) (sub : Nat)
    (info : Word) : ∃ r, (s.meFault cause sub info).me.call = some (.fault r) ∧ r.cause = cause ∧ r.sub = sub ∧ r.info0 = info
      ∧ r.obs = 1 ∧ (s.meFault cause sub info).me.slots = s.me.slots ∧ (s.meFault cause sub info).arrays = s.arrays
      ∧ (s.meFault cause sub info).mem = s.mem := by
  let t := s.unitStand .me
  let r : FaultRec := { cause := cause, obs := 1, sub := sub, info0 := info, rpc := t.me.pc }
  obtain ⟨e, core⟩ : ∃ e, t.me = { s.me with me := e } := ⟨_, (s.updEng_me _).2.2⟩
  have running' : (t.core t.cur).status = .running := by rw [show t.core t.cur = _ from core]; exact running
  have raise : s.meFault cause sub info = t.raise t.cur r := by
    have live : t.me.live t.frameClk = true := by
      rw [Core.live, show t.me.status = _ from running']
      rfl
    have uc' : (t.core t.cur).uc = none := by rw [show t.core t.cur = _ from core]; exact uc
    have fault : s.meFault cause sub info =
        if t.me.live t.frameClk || t.me.uc.isSome then t.faultOn t.cur r
        else t.upd fun c => { c with heldFaults := c.heldFaults ++ [r] } := rfl
    rw [fault, live, Bool.true_or, if_pos rfl, State.faultOn, uc']
  obtain ⟨me, _⟩ := t.raise_running t.cur r running'
  have me' : (t.raise t.cur r).me = _ := me
  have slots : t.me.slots = s.me.slots := by rw [core]
  rw [raise, me']
  exact ⟨r, rfl, rfl, rfl, rfl, rfl, slots, rfl, rfl⟩

/-! ## MOWN and MREL -/

section
variable {s : State} {n : BitVec 4} {q : Src} {dev die : Nat} (bound : s.vdie s.cur (fld (s.ev .me q) 0 10) = .bound dev die)

/-- What a grant leaves in array `k`. -/
def State.grantedArray (s : State) (n k : Nat) : ArraySt :=
  let w := (s.drawArray (undefinedFor (s.array k).lastRegion s.me.region)).1
  { tiles := w.1, accs := w.2.1, sparse := w.2.2, holder := some (s.me.cr.getD 0, n), lastRegion := some s.me.region }

/-- An array of another region's last holder comes empty. -/
theorem State.grantedArray_of_other {k r : Nat} (last : (s.array k).lastRegion = some r) (other : r ≠ s.me.region) (n : Nat) :
    (s.grantedArray n k).sparse = [] ∧ ∀ x, (s.grantedArray n k).tiles.rd x = 0 ∧ (s.grantedArray n k).accs.rd x = 0 := by
  have zero : undefinedFor (s.array k).lastRegion s.me.region = false := by simp [undefinedFor, last, other]
  simp only [State.grantedArray, State.drawArray, zero]
  exact ⟨rfl, fun _ => ⟨rfl, rfl⟩⟩

/-- An array of the same region's last holder, or of none, comes undefined. -/
theorem State.grantedArray_of_same {k : Nat} (same : ∀ r, (s.array k).lastRegion = some r → r = s.me.region) (n : Nat) :
    (s.grantedArray n k).sparse = freeSparse (s.draws + 2)
      ∧ ∀ x, (s.grantedArray n k).tiles.rd x = Config.freeByte s.draws x
        ∧ (s.grantedArray n k).accs.rd x = Config.freeByte (s.draws + 1) x := by
  have free : undefinedFor (s.array k).lastRegion s.me.region = true := by
    cases last : (s.array k).lastRegion with
    | none => rfl
    | some r => simp [undefinedFor, same r last]
  simp only [State.grantedArray, State.drawArray, free]
  exact ⟨rfl, fun _ => ⟨rfl, rfl⟩⟩

/-- A step that has put array `k`, or nothing, in slot `n`. -/
theorem State.meDone_slot (s : State) {n : Nat} (first : 1 ≤ n) (last : n ≤ 3) (k : Nat) (x : ArraySt) (a : Option Nat) :
    let t := ((s.setArray k x).upd fun c => { c with slots := vset c.slots (n - 1) a }).meDone 0
    t.me.slotArray s.cur n = a ∧ (∀ j, j ≠ n → t.me.slotArray s.cur j = s.me.slotArray s.cur j)
      ∧ t.array k = x ∧ (∀ j, j ≠ k → t.array j = s.array j) ∧ MeDone s t 0 fun y => { y with slots := s.me.slots } := by
  intro t
  have visit := (State.Visits.setArray (s := s) (R := fun _ _ y => y = x) (k := (n, k)) rfl).upd fun c =>
    { c with slots := vset c.slots (n - 1) a }
  have me : t.me = _ := visit.me_meDone 0
  obtain ⟨here, elsewhere⟩ := s.me.slotArray_set s.cur first last a
  refine ⟨me ▸ here, me ▸ elsewhere, visit.each (n, k) (.head _), fun j other => visit.others j ?_, visit.meDone 0 rfl rfl⟩
  exact List.forall_mem_singleton.2 other.symm

include bound

theorem execMown_granted {k : Nat} (uc : s.me.uc = none) (decided : s.mownDecide n.toNat (s.ev .me q) dev die = .ok k) :
    let u := { s with draws := s.draws + 3 }
    exec (.mown n q) s = .next (((u.setArray k (s.grantedArray n.toNat k)).upd fun c =>
      { c with slots := vset c.slots (n.toNat - 1) (some k) }).meDone 0) := by
  rw [exec_mown_eq, execMown, State.unitNotUc, uc]
  simp only [bound, decided]
  rfl

theorem execMown_denied {e : Nat} (uc : s.me.uc = none) (decided : s.mownDecide n.toNat (s.ev .me q) dev die = .error e) :
    exec (.mown n q) s = .next (s.meFault .ownDenied e (s.ev .me q)) := by
  rw [exec_mown_eq, execMown, State.unitNotUc, uc]
  simp only [bound, decided]
  rfl

theorem execMrel_held {k : Nat} (held : s.me.slotArray s.cur n.toNat = some k)
    (named : fld (s.ev .me q) 14 50 = 0 ∧ dev = s.fab.fabId ∧ 2 ≤ die ∧ die ≤ 9 ∧ fld (s.ev .me q) 10 4 ≤ 10)
    (array : k = 11 * (die - 2) + fld (s.ev .me q) 10 4) :
    exec (.mrel n q) s = .next (((s.setArray k { s.array k with holder := none, lastRegion := some s.me.region }).upd fun c =>
      { c with slots := vset c.slots (n.toNat - 1) none }).meDone 0) := by
  rw [exec_mrel_eq, execMrel]
  simp only [bound, held, if_pos named, ← array, if_true]

end

/-- Settles O27: a grant, a refusal, and the return of an array. -/
theorem arrayOwnershipSteps : Obligations.ArrayOwnershipSteps := by
  unfold Obligations.ArrayOwnershipSteps
  intro s n q c v frame first last dev die bound
  refine ⟨fun k uc decided => ?_, fun e uc running decided => ?_, fun k held unused here low high tile array => ?_⟩
  · obtain ⟨slot, others, content, frame, done⟩ :=
      State.meDone_slot { s with draws := s.draws + 3 } first last k (s.grantedArray n.toNat k) (some k)
    refine ⟨_, execMown_granted bound uc decided, slot, ?_, ?_, frame, fun r last other => ?_, fun same => ?_, others, done⟩
    · rw [content]; rfl
    · rw [content]; rfl
    · rw [content]; exact State.grantedArray_of_other last other _
    · rw [content]; exact State.grantedArray_of_same same _
  · obtain ⟨r, raised⟩ := State.meFault_raised uc running .ownDenied e v
    exact ⟨_, r, execMown_denied bound uc decided, raised⟩
  · obtain ⟨slot, -, content, frame, done⟩ := s.meDone_slot first last k
      { s.array k with holder := none, lastRegion := some s.me.region } none
    refine ⟨_, execMrel_held bound held ⟨unused, here, low, high, tile⟩ array, slot, ?_, ?_, frame, ?_, done⟩ <;> rw [content]

end Sys2Proof.Machine

/-! SUPPORT. Bytes of tiles and accumulators, and the steps that write one tile of every selected array: MZERO, MNARROW and MTRANS
(R176, R181), with the statement about them. -/

namespace Sys2Proof.Machine

theorem exec_mzero_eq (d : BitVec 4) (q : BitVec 7) (s : State) : exec (.mzero d q) s = execMzero d q s := rfl
theorem exec_mnarrow_eq (d a : BitVec 4) (q : BitVec 7) (s : State) : exec (.mnarrow d a q) s = execMnarrow d a q s := rfl
theorem exec_mtrans_eq (d a : BitVec 4) (q : BitVec 7) (s : State) : exec (.mtrans d a q) s = execMtrans d a q s := rfl

/-! ## Bytes and numbers -/

/-- The bytes written are read back, and no other byte has changed. -/
theorem Memory.wrBytes_spec (m : Memory) (a : Nat) {n : Nat} {bs : List Byte} (length : bs.length = n) :
    (m.wrBytes a bs).rdBytes a n = bs ∧ ∀ x, x < a ∨ a + n ≤ x → (m.wrBytes a bs).rd x = m.rd x := by
  subst length
  refine ⟨?_, fun x outside => by rw [Memory.rd_wrBytes, if_neg (by omega)]⟩
  rw [Memory.rdBytes_eq]
  refine List.ext_getElem (by simp) fun k _ inside => ?_
  rw [List.getElem_map, List.getElem_range, Memory.rd_wrBytes, if_pos (by omega), Nat.add_sub_cancel_left]
  simp [inside]

theorem Memory.rdBytes_add (m : Memory) (a k n : Nat) : m.rdBytes a (k + n) = m.rdBytes a k ++ m.rdBytes (a + k) n := by
  simp only [Memory.rdBytes_eq, List.range_add, List.map_append, List.map_map, Function.comp_def, Nat.add_assoc]

/-- The numbers of `k` bytes that a run of bytes makes. -/
theorem chunks_rdBytes (m : Memory) (k a n : Nat) :
    chunks k n (m.rdBytes a (k * n)) = (List.range n).map fun i => m.rdN (a + k * i) k := by
  induction n generalizing a with
  | zero => rfl
  | succ n ih =>
    have first : (m.rdBytes a k).length = k := m.length_rdBytes a k
    rw [Nat.mul_succ, Nat.add_comm (k * n), Memory.rdBytes_add, chunks, List.take_left' first, List.drop_left' first, ih,
      List.range_succ_eq_map, List.map_cons, List.map_map]
    refine congrArg _ (List.map_congr_left fun i _ => ?_)
    simp only [Function.comp_apply, Nat.succ_eq_add_one]
    congr 1
    ring

theorem leBytes_leNat (bs : List Byte) : leBytes bs.length (leNat bs) = bs := by
  induction bs with
  | nil => rfl
  | cons b r ih =>
    have := b.isLt
    rw [List.length_cons, leBytes, leNat, show (b.toNat + 256 * leNat r) / 256 = leNat r by omega, ih]
    congr 1
    apply BitVec.eq_of_toNat_eq
    rw [BitVec.toNat_ofNat]
    omega

theorem leBytes_rdN (m : Memory) (a k : Nat) : leBytes k (m.rdN a k) = m.rdBytes a k := by
  have := leBytes_leNat (m.rdBytes a k)
  rwa [m.length_rdBytes] at this

/-! ## Every selected array in turn -/

theorem State.onArrays_visits (s : State) {ks : List (Nat × Nat)} (distinct : (ks.map (·.2)).Nodup) (f : ArraySt → ArraySt) :
    s.Visits (s.onArrays ks f) ks (fun _ x y => y = f x) s.me := by
  induction ks generalizing s with
  | nil => exact .of_turns (.refl s) _
  | cons k ks ih =>
    obtain ⟨new, distinct⟩ := List.nodup_cons.1 distinct
    exact (State.Visits.setArray rfl).cons (ih _ distinct) new

/-! ## MNARROW (R62, R181) -/

/-- An accumulator times the scale, rounded to the format. -/
def narrowElem (f : FFmt) (rm : RMode) (ts v w : Nat) : Nat × FFlags :=
  let v := mul32 v ts
  if f = fp32 then v
  else
    let o := f.round rm w (fp32.decode v.1)
    (o.1, v.2.join o.2)

theorem narrowElem_fst (f : FFmt) (rm : RMode) (ts v w : Nat) : (narrowElem f rm ts v w).1 =
    if f = fp32 then (mul32 v ts).1 else (f.round rm w (fp32.decode (mul32 v ts).1)).1 := by
  unfold narrowElem
  split <;> rfl

theorem flatten_groupsOf {α : Type} {b k : Nat} {l : List α} (all : l.length = b * k) : (groupsOf b k l).flatten = l := by
  induction k generalizing l with
  | zero => exact (List.length_eq_zero_iff.1 all).symm
  | succ k ih =>
    rw [groupsOf, List.flatten_cons, ih (by rw [List.length_drop, all, Nat.mul_succ]; omega), List.take_append_drop]

/-- Where no word is drawn, every element is narrowed by itself. -/
theorem narrowArray_exact (f : FFmt) (rm : RMode) (ts : Nat) {rows : List (List Nat)} (x : BitVec 32)
    (all : ∀ row, row ∈ rows → row.length = 16) :
    narrowArray f rm false ts rows x = (rows.flatten.map fun v => narrowElem f rm ts v 0, x) := by
  induction rows with
  | nil => rfl
  | cons row rows ih =>
    obtain ⟨first, rest⟩ := List.forall_mem_cons.1 all
    have zip : row.zip (List.replicate 16 0) = row.map fun v => (v, 0) := by
      refine List.ext_getElem (by simp [first]) fun k _ _ => ?_
      simp only [List.getElem_zip, List.getElem_map, List.getElem_replicate]
    simp only [narrowArray, lanes, Bool.false_eq_true, if_false, ih rest, zip, List.map_map, List.flatten_cons, List.map_append]
    rfl

section
variable (w : BitVec 128) (td ta : Nat)

/-- The format and the mode of a format word for an MNARROW, and whether its elements draw words of the generator. -/
def narrowTo : FFmt := narrowFmt (bitsOf w.toNat 15 4)
def narrowMode : RMode := rmOfCode (bitsOf w.toNat 12 3)
def narrowDraws : Bool := narrowMode w == .sr && narrowTo w != fp32

theorem narrowDraws_eq_false (plain : narrowMode w ≠ .sr ∨ narrowTo w = fp32) : narrowDraws w = false := by
  rw [narrowDraws]
  rcases plain with mode | format
  · simp [mode]
  · simp [format]

/-- The bytes of a tile that an MNARROW without a draw writes. -/
def narrowBytes (x : ArraySt) : List Byte :=
  ((chunks 4 512 (x.accs.rdBytes (accBase ta) 2048)).map fun v =>
    leBytes ((narrowTo w).bits / 8) (narrowElem (narrowTo w) (narrowMode w) (narrowScale w).1 v 0).1).flatten

/-- An array whose tile has been written by an MNARROW. -/
def NarrowedTo (_ : Nat) (x y : ArraySt) : Prop :=
  ∃ bs, y = { x with tiles := x.tiles.wrBytes (tileBase td) bs } ∧ (narrowDraws w = false → bs = narrowBytes w ta x)

/-- The accumulators of a tile, row by row. -/
def accRows (x : ArraySt) : List (List Nat) := groupsOf 16 32 (chunks 4 512 (x.accs.rdBytes (accBase ta) 2048))

theorem length_of_mem_accRows (x : ArraySt) : ∀ row, row ∈ accRows ta x → row.length = 16 :=
  fun _ => length_of_mem_groupsOf (by simp)

theorem length_narrowBytes (x : ArraySt) : (narrowBytes w ta x).length = 512 * ((narrowTo w).bits / 8) := by
  rw [narrowBytes, length_flatten_of_all (b := (narrowTo w).bits / 8) (by simp), List.length_map, length_chunks]

/-- The rows of one array that a step which starts narrows. -/
theorem narrowRows_cons {s : State} {ka : Nat × Nat} {r : List (Nat × Nat)} {m : Nat} (enough : 32 ≤ m)
    (start : vget s.me.meProg 0 ka.1 = 0) :
    let x := s.array ka.2
    let o := narrowArray (narrowTo w) (narrowMode w) (narrowDraws w) (narrowScale w).1 (accRows ta x) s.me.rngMe
    let y := { x with tiles := x.tiles.wrBytes (tileBase td) (o.1.map fun r => leBytes ((narrowTo w).bits / 8) r.1).flatten }
    narrowRows w td ta (ka :: r) m s = narrowRows w td ta r (m - 32) ((s.setArray ka.2 y).upd fun c =>
      { c with rngMe := o.2, meProg := vset c.meProg ka.1 32, meFlags := c.meFlags ||| meFlags (joinAll o.1) }) := by
  have all : ∀ x, slice 0 32 (accRows ta x) = accRows ta x := fun x => slice_all (length_groupsOf ..)
  have count : Nat.min m (32 - 0) = 32 := Nat.min_eq_right enough
  intro x o y
  rw [narrowRows]
  simp only [start, count, Nat.zero_add, Nat.zero_mul, Nat.add_zero]
  rw [show groupsOf 16 32 (chunks 4 512 ((s.array ka.2).accs.rdBytes (accBase ta) 2048)) = accRows ta x from rfl, all]
  rfl

theorem narrowRows_visits {ks : List (Nat × Nat)} {m : Nat} {s : State} (slots : (ks.map (·.1)).Nodup)
    (arrays : (ks.map (·.2)).Nodup) (start : ∀ k, k ∈ ks → vget s.me.meProg 0 k.1 = 0) (enough : 32 * ks.length ≤ m) :
    ∃ x p fl, s.Visits (narrowRows w td ta ks m s) ks (NarrowedTo w td ta)
        { s.me with rngMe := x, meProg := p, meFlags := fl }
      ∧ (narrowDraws w = false → x = s.me.rngMe) := by
  induction ks generalizing s m with
  | nil => exact ⟨_, _, _, .of_turns (.refl s) _, fun _ => rfl⟩
  | cons k ks ih =>
    obtain ⟨newSlot, slots⟩ := List.nodup_cons.1 slots
    obtain ⟨newArray, arrays⟩ := List.nodup_cons.1 arrays
    obtain ⟨first, rest⟩ := List.forall_mem_cons.1 start
    rw [List.length_cons] at enough
    rw [narrowRows_cons w td ta (by omega) first]
    generalize result : narrowArray (narrowTo w) (narrowMode w) (narrowDraws w) (narrowScale w).1 (accRows ta (s.array k.2))
      s.me.rngMe = o
    have alone : narrowDraws w = false → o = ((accRows ta (s.array k.2)).flatten.map fun v =>
        narrowElem (narrowTo w) (narrowMode w) (narrowScale w).1 v 0, s.me.rngMe) := fun no => by
      rw [← narrowArray_exact _ _ _ _ (length_of_mem_accRows ta _), ← no, result]
    have visit : NarrowedTo w td ta k.2 (s.array k.2) { s.array k.2 with
        tiles := (s.array k.2).tiles.wrBytes (tileBase td)
          (o.1.map fun r => leBytes ((narrowTo w).bits / 8) r.1).flatten } := by
      refine ⟨_, rfl, fun no => ?_⟩
      rw [alone no, accRows, flatten_groupsOf (by simp), List.map_map]
      rfl
    have step := (State.Visits.setArray visit).upd fun c =>
      { c with rngMe := o.2, meProg := vset c.meProg k.1 32, meFlags := c.meFlags ||| meFlags (joinAll o.1) }
    obtain ⟨x, p, fl, later, kept⟩ := ih (m := m - 32) slots arrays (fun l member => by
      rw [step.me]
      exact (vget_vset_ne _ _ _ fun e => newSlot (List.mem_map.2 ⟨l, member, e⟩)).trans (rest l member)) (by omega)
    rw [step.me] at later kept
    exact ⟨x, p, fl, step.cons later newArray, fun no => (kept no).trans (by rw [alone no])⟩

end

section
variable {s : State} {ks : List (Nat × Nat)} (d a : BitVec 4) (q : BitVec 7) (selected : s.me.selected s.cur = some ks)
  (distinct : (ks.map (·.2)).Nodup) (joined : ∀ k, k ∈ ks → s.dieReach (dieOf s.cur) (arrayDie k.2) = true)
include selected distinct joined

theorem exec_mnarrow_visits (fresh : s.me.meProg = Vector.replicate 4 0) {w : BitVec 128}
    (head : s.me.fmtHeld = some w ∨ (s.me.fmtHeld = none ∧ s.me.fmtq.head? = some w)) (legal : fmtOkNarrow w = true) :
    ∃ u x p fl, exec (.mnarrow d a q) s = .next (u.meDone (u.me.meFlags ||| meFlags (narrowScale w).2))
      ∧ s.Visits u ks (NarrowedTo w (s.me.effD d) (s.me.effA a)) { s.me.popped w with rngMe := x, meProg := p, meFlags := fl }
      ∧ (narrowDraws w = false → x = s.me.rngMe) := by
  obtain ⟨slots, _⟩ := Core.selected_slots selected
  obtain ⟨t, turn, pop⟩ := State.mePop_of_head head legal
  have start : ∀ k, k ∈ ks → vget t.me.meProg 0 k.1 = 0 := by
    rw [turn.me]
    exact Core.selected_fresh selected fresh
  obtain ⟨x, p, fl, visits, kept⟩ := narrowRows_visits w (s.me.effD d) (s.me.effA a) slots distinct start (Nat.le_refl _)
  rw [turn.me] at visits kept
  refine ⟨_, x, p, fl, ?_, (State.Visits.of_turns turn _).append visits nofun, kept⟩
  rw [exec_mnarrow_eq, execMnarrow, State.meOwned_of_selected selected joined, pop]

theorem exec_mzero_visits : ∃ u, exec (.mzero d q) s = .next (u.meDone 0) ∧ s.Visits u ks (fun _ x y =>
    y = { x with accs := x.accs.wrBytes (accBase (s.me.effD d)) (List.replicate 2048 0) }) s.me := by
  refine ⟨_, ?_, s.onArrays_visits distinct _⟩
  rw [exec_mzero_eq, execMzero, State.meOwned_of_selected selected joined]

/-! ## MTRANS (R181) -/

/-- The bytes of a tile of whole-byte elements, row and column exchanged. -/
def Tdesc.transposed (ds : Tdesc) (ta : Nat) (x : ArraySt) : List Byte :=
  let k := mmWidth ds.fmt / 8
  (List.range ds.cols).flatMap fun i => (List.range ds.rows).flatMap fun j =>
    x.tiles.rdBytes (tileBase ta + k * (j * ds.cols + i)) k

omit selected distinct joined in
/-- The formats of codes 0 to 4 have whole bytes. -/
theorem Tdesc.elemBytes_of_fmt {ds : Tdesc} (whole : ds.fmt ≤ 4) :
    ds.elemBytes = mmWidth ds.fmt / 8 * (ds.rows * ds.cols) := by
  have width : ∀ f, f < 5 → mmWidth f = 8 * (mmWidth f / 8) := by decide
  rw [Tdesc.elemBytes, width ds.fmt (by omega), Nat.mul_div_cancel_left _ (by decide), Nat.mul_assoc, Nat.mul_assoc]
  omega

omit selected distinct joined in
theorem Tdesc.length_transposed {ds : Tdesc} (whole : ds.fmt ≤ 4) (ta : Nat) (x : ArraySt) :
    (ds.transposed ta x).length = ds.elemBytes := by
  rw [Tdesc.elemBytes_of_fmt whole]
  simp only [Tdesc.transposed, List.length_flatMap, Memory.length_rdBytes, List.map_const', List.sum_replicate, smul_eq_mul,
    List.length_range]
  ring

omit selected distinct joined in
/-- What the model writes: the numbers of the source tile in the order of the destination. -/
theorem Tdesc.transposed_eq {ds : Tdesc} (whole : ds.fmt ≤ 4) (ta : Nat) (x : ArraySt) :
    let k := mmWidth ds.fmt / 8
    let es := chunks k (ds.rows * ds.cols) (x.tiles.rdBytes (tileBase ta) ds.elemBytes)
    (((List.range ds.cols).flatMap fun c => (List.range ds.rows).map fun r => es.getD (r * ds.cols + c) 0).map
      fun v => leBytes k v).flatten = ds.transposed ta x := by
  intro k es
  have numbers : es = (List.range (ds.rows * ds.cols)).map fun i => x.tiles.rdN (tileBase ta + k * i) k := by
    rw [← chunks_rdBytes, ← Tdesc.elemBytes_of_fmt whole]
  rw [← List.flatMap_def, List.flatMap_assoc, Tdesc.transposed]
  refine List.flatMap_congr fun c col => ?_
  rw [List.flatMap_map]
  refine List.flatMap_congr fun r row => ?_
  have inside : r * ds.cols + c < ds.rows * ds.cols := by
    have := Nat.mul_le_mul_right ds.cols (List.mem_range.1 row)
    have := List.mem_range.1 col
    rw [Nat.succ_mul] at *
    omega
  rw [numbers, List.getD_eq_getElem?_getD, List.getElem?_map, List.getElem?_range inside]
  exact leBytes_rdN ..

theorem exec_mtrans_visits (good : (s.me.tdesc (s.me.effA a)).valid = true) (whole : (s.me.tdesc (s.me.effA a)).fmt ≤ 4)
    (dest : s.me.tdesc (s.me.effD d) = { s.me.tdesc (s.me.effA a) with
      krow := (s.me.tdesc (s.me.effD d)).krow
      rows := (s.me.tdesc (s.me.effA a)).cols
      cols := (s.me.tdesc (s.me.effA a)).rows })
    (fits : (s.me.tdesc (s.me.effA a)).elemBytes ≤ 16384) :
    ∃ u, exec (.mtrans d a q) s = .next (u.meDone 0) ∧ s.Visits u ks (fun _ x y =>
      y = { x with
        tiles := x.tiles.wrBytes (tileBase (s.me.effD d)) ((s.me.tdesc (s.me.effA a)).transposed (s.me.effA a) x) }) s.me := by
  have good' : (s.me.tdesc (s.me.effD d)).valid = true := by
    rw [dest]
    simp only [Tdesc.valid, decide_eq_true_eq] at good ⊢
    omega
  refine ⟨_, ?_, s.onArrays_visits distinct _⟩
  rw [exec_mtrans_eq, execMtrans, State.meOwned_of_selected selected joined]
  simp only [Tdesc.transposed_eq whole]
  rw [if_pos]
  simp only [good, good', whole, fits, Bool.true_and, decide_true, Bool.and_true]
  rw [dest]
  simp

end

/-- A tile that has been written: the bytes of it, and what else of the array. -/
theorem ArraySt.tile_written {x y : ArraySt} {td n : Nat} {bs : List Byte} (length : bs.length = n)
    (written : y = { x with tiles := x.tiles.wrBytes (tileBase td) bs }) :
    { y with tiles := x.tiles } = x ∧ y.tiles.rdBytes (tileBase td) n = bs
      ∧ ∀ k, k < tileBase td ∨ tileBase td + n ≤ k → y.tiles.rd k = x.tiles.rd k := by
  subst written
  exact ⟨rfl, x.tiles.wrBytes_spec _ length⟩

/-- Settles O26: each step visits the selected arrays one after another and writes one tile, or one accumulator tile, of each. -/
theorem matrixTileSteps : Obligations.MatrixTileSteps := by
  unfold Obligations.MatrixTileSteps
  intro s ks d a q c td ta same tile selected distinct joined fresh _
  refine ⟨?_, fun w head legal => ?_, ?_⟩
  · obtain ⟨u, run, visits⟩ := exec_mzero_visits d q selected distinct joined
    refine ⟨_, run, visits.meDone 0 rfl rfl, visits.others, fun k member => ?_⟩
    have zeros : (u.meDone 0).array k.2 = _ := visits.each k member
    obtain ⟨bytes, rest⟩ := (s.array k.2).accs.wrBytes_spec (accBase td) (List.length_replicate (n := 2048) (a := (0 : Byte)))
    rw [zeros]
    exact ⟨bytes, rfl, rest⟩
  · intro f rm ts put
    obtain ⟨u, x, p, fl, run, visits, kept⟩ := exec_mnarrow_visits d a q selected distinct joined fresh head legal
    have popped := visits.me_meDone (u.me.meFlags ||| meFlags (narrowScale w).2)
    refine ⟨_, _, run, visits.others, by rw [popped]; rfl, fun plain => ⟨?_, fun k member => ?_⟩, visits.meDone _ rfl rfl⟩
    · rw [popped]
      exact kept (narrowDraws_eq_false w plain)
    · obtain ⟨bs, written, bytes⟩ := visits.each k member
      have put_eq : put k.2 = narrowBytes w ta (s.array k.2) := by
        simp only [narrowBytes, narrowElem_fst]
        rfl
      rw [bytes (narrowDraws_eq_false w plain)] at written
      rw [put_eq]
      exact ArraySt.tile_written (length_narrowBytes ..) written
  · intro ds k good whole dest fits
    obtain ⟨u, run, visits⟩ := exec_mtrans_visits d a q selected distinct joined good whole dest fits
    exact ⟨_, run, visits.meDone 0 rfl rfl, visits.others, fun k member =>
      ArraySt.tile_written (Tdesc.length_transposed whole ..) (visits.each k member)⟩

end Sys2Proof.Machine

/-! SUPPORT. MMA and MMAS (R56-R60, R178-R180): one block of one array, the blocks of an array, the arrays of a step; and the
statement about them. -/

namespace Sys2Proof.Machine

theorem exec_mma_eq (sparse : Bool) (d a b : BitVec 4) (m : BitVec 2) (q : BitVec 7) (s : State) :
    exec (if sparse then .mmas d a b m q else .mma d a b m q) s = s.mma sparse d a b m q := by
  cases sparse <;> rfl

/-! ## Lists -/

/-- Row `r`, column `c` of a table that is written row by row. -/
theorem getElem?_table {α : Type} (g : Nat → Nat → α) {n b r c : Nat} (row : r < n) (col : c < b) :
    ((List.range n).flatMap fun r => (List.range b).map (g r))[b * r + c]? = some (g r c) := by
  induction n with
  | zero => omega
  | succ n ih =>
    have length : ((List.range n).flatMap fun r => (List.range b).map (g r)).length = b * n := by
      simp [List.length_flatMap, Nat.mul_comm]
    rw [List.range_succ, List.flatMap_append, List.flatMap_singleton]
    rcases Nat.lt_or_eq_of_le (Nat.le_of_lt_succ row) with before | rfl
    · have := Nat.mul_le_mul_left b before
      rw [Nat.mul_succ] at this
      rw [List.getElem?_append_left (by omega), ih before]
    · rw [List.getElem?_append_right (by omega), length, Nat.add_sub_cancel_left]
      simp [col]

/-- A list of attempts that all succeed holds the result of each. -/
theorem mapM_eq_some_getD {α β : Type} {f : α → Option β} {l : List α} {r : List β} (h : l.mapM f = some r) (d : β) {i : Nat}
    (inside : i < l.length) : f l[i] = some (r.getD i d) := by
  induction l generalizing r i with
  | nil => cases inside
  | cons x l ih =>
    rw [List.mapM_cons] at h
    obtain ⟨y, first, h⟩ := Option.bind_eq_some_iff.1 h
    obtain ⟨ys, rest, h⟩ := Option.bind_eq_some_iff.1 h
    cases h
    cases i with
    | zero => exact first
    | succ i => exact ih rest (Nat.lt_of_succ_lt_succ inside)

/-- Numbers written as bytes are read back, as far as they fit. -/
theorem chunks_flatten_leBytes (k : Nat) (l : List Nat) :
    chunks k l.length (l.map (leBytes k)).flatten = l.map (· % 2 ^ (8 * k)) := by
  induction l with
  | nil => rfl
  | cons v l ih =>
    have first : (leBytes k v).length = k := length_leBytes k v
    rw [List.map_cons, List.flatten_cons, List.length_cons, chunks, List.take_left' first, List.drop_left' first, ih,
      leNat_leBytes, List.map_cons]

/-- Words written one after another are read back one by one. -/
theorem Memory.rdN_wrBytes_flatten (m : Memory) (a k : Nat) (l : List Nat) {i : Nat} (inside : i < l.length) :
    (m.wrBytes a (l.map (leBytes k)).flatten).rdN (a + k * i) k = l[i] % 2 ^ (8 * k) := by
  have length : (l.map (leBytes k)).flatten.length = k * l.length := by
    rw [length_flatten_of_all (b := k) (by simp), List.length_map, Nat.mul_comm]
  have read := congrArg (fun l => l[i]?)
    ((chunks_rdBytes (m.wrBytes a (l.map (leBytes k)).flatten) k a l.length).symm.trans
      ((congrArg _ (m.wrBytes_spec a length).1).trans (chunks_flatten_leBytes k l)))
  simpa [inside] using read

/-! ## One block of one array (R56-R60, R178, R179) -/

namespace MmaUse

variable (u : MmaUse) (ma mb acc : Memory)

/-- The element codes of row `r` of block `kb` of A. -/
def rawA (kb r : Nat) : List Nat :=
  let n := if u.sparse then u.b / 2 else u.b
  tileElems ma (tileBase u.ta) (mmWidth u.da.fmt) (r * u.da.cols + kb * n) n

/-- The nibbles of row `r` of a sparsity entry. -/
def nibbles (entry : List Byte) (r : Nat) : List Nat :=
  ((bitFields 4 (32 * (u.b / 4)) (leNat entry)).drop (r * (u.b / 4))).take (u.b / 4)

/-- Row `r` of block `kb` of A with its dropped elements in place; none where a nibble is out of order. -/
def rowA (kb : Nat) (entry : List Byte) (r : Nat) : Option (List (Option Nat)) :=
  if u.sparse then unsparse (u.nibbles entry r) (u.rawA ma kb r) else some ((u.rawA ma kb r).map some)

def valA (x : Option Nat) : FVal := x.elim (.fin false 0 0) ((mmFmt u.da.fmt).getD (.flt fp32)).decode

/-- Column `c` of block `kb` of B. -/
def colB (kb c : Nat) : List FVal := (List.range u.b).map fun j =>
  ((mmFmt u.db.fmt).getD (.flt fp32)).decode
    ((tileElems mb (tileBase u.tb) (mmWidth u.db.fmt) ((kb * u.b + j) * 16) 16).getD c 0)

/-- The scale codes of a row of A and a column of B. -/
def scaleA (kb r : Nat) : Nat :=
  if mmScaled u.da.fmt then (ma.rd (tileBase u.ta + u.da.soff + r * (u.k / u.b) + kb)).toNat else 127
def scaleB (kb c : Nat) : Nat :=
  if mmScaled u.db.fmt then (mb.rd (tileBase u.tb + u.db.soff + kb * 16 + c)).toNat else 127

/-- The block term of accumulator (r, c). -/
def term (kb : Nat) (entry : List Byte) (r c : Nat) : Nat × FFlags :=
  blockTerm ((((u.rowA ma kb entry r).getD []).map u.valA).zip (u.colB mb kb c)) (u.scaleA ma kb r) (u.scaleB mb kb c)

/-- Accumulator (r, c) after one block more. -/
def addBlock (r c x : Nat) (km : Nat × List Byte) : Nat := (add32 x (u.term ma mb km.1 km.2 r c).1).1

theorem mmaCell_eq_foldl (metas : List (List Byte)) (r c x : Nat) :
    mmaCell u ma mb metas r c x = ((List.range (u.k / u.b)).zip metas).foldl (u.addBlock ma mb r c) x := by
  unfold mmaCell
  congr 1
  funext x km
  unfold addBlock term rowA rawA
  cases u.sparse <;> rfl

/-- The formats of both operands are element formats. -/
structure Formats (u : MmaUse) : Prop where
  a : (mmFmt u.da.fmt).isSome
  b : (mmFmt u.db.fmt).isSome

variable {u ma mb acc}

/-- Whether a block passes does not hang on the accumulators. -/
theorem isSome_mmaBlock (acc' : Memory) (kb : Nat) (entry : List Byte) :
    (mmaBlock u ma mb acc kb entry).isSome = (mmaBlock u ma mb acc' kb entry).isSome := by
  unfold mmaBlock
  dsimp only
  split
  · rfl
  · simp only [Option.isSome_some]

/-- A dense block always passes. -/
theorem isSome_mmaBlock_of_dense (dense : u.sparse = false) (kb : Nat) (entry : List Byte) :
    (mmaBlock u ma mb acc kb entry).isSome := by
  have all : ∀ (g : Nat → List FVal) (l : List Nat), (l.mapM fun r => some (g r)) = some (l.map g) := fun g l => by
    induction l with
    | nil => rfl
    | cons x l ih => rw [List.mapM_cons, ih]; rfl
  unfold mmaBlock
  simp only [dense, Bool.false_and, Bool.false_eq_true, if_false, all]
  rfl

/-- A column of B, taken from its rows. -/
theorem colB_eq {g : MxElem} (format : mmFmt u.db.fmt = some g) {c : Nat} (col : c < 16) (kb : Nat) :
    ((List.range 16).map fun c => ((List.range u.b).map fun j =>
      (tileElems mb (tileBase u.tb) (mmWidth u.db.fmt) ((kb * u.b + j) * 16) 16).map fun v => g.decode v).map
        fun l => l.getD c (.nan false)).getD c [] = u.colB mb kb c := by
  rw [List.getD_eq_getElem _ _ (by simpa using col), List.getElem_map, List.getElem_range, List.map_map, colB, format]
  refine List.map_congr_left fun j _ => ?_
  have length : c < (tileElems mb (tileBase u.tb) (mmWidth u.db.fmt) ((kb * u.b + j) * 16) 16).length := by
    simpa [tileElems] using col
  rw [Function.comp_apply, List.getD_eq_getElem _ _ (by simpa using length), List.getElem_map, List.getD_eq_getElem _ _ length,
    Option.getD_some]

/-- A block that passes gives every accumulator its term. -/
theorem mmaBlock_spec (formats : u.Formats) {kb : Nat} {entry : List Byte} {new : List (Nat × FFlags)} {nan : Bool}
    (passes : mmaBlock u ma mb acc kb entry = some (new, nan)) : new.length = 512 ∧ ∀ r c, r < 32 → c < 16 →
      (new[16 * r + c]?).map (·.1) = some (u.addBlock ma mb r c (acc.rdN (accBase u.ac + 4 * (16 * r + c)) 4) (kb, entry)) := by
  obtain ⟨f, hf⟩ := Option.isSome_iff_exists.1 formats.a
  obtain ⟨g, hg⟩ := Option.isSome_iff_exists.1 formats.b
  unfold mmaBlock at passes
  simp only [hf, hg] at passes
  split at passes
  · cases passes
  · next rows result =>
    cases passes
    split at result
    · cases result
    · refine ⟨by simp [List.length_flatMap], fun r c row col => ?_⟩
      have rowR := mapM_eq_some_getD result [] (i := r) (by simpa using row)
      rw [getElem?_table _ row col]
      rw [List.getElem_range] at rowR
      have values : rows.getD r [] = ((u.rowA ma kb entry r).getD []).map u.valA := by
        unfold rowA rawA nibbles
        cases kind : u.sparse with
        | true =>
          simp only [kind, if_true] at rowR ⊢
          obtain ⟨l, places, values⟩ := Option.map_eq_some_iff.1 rowR
          rw [places, Option.getD_some, ← values]
          exact List.map_congr_left fun x _ => by cases x <;> simp [valA, hf]
        | false =>
          simp only [kind, Bool.false_eq_true, if_false, Option.some_inj] at rowR ⊢
          rw [← rowR, Option.getD_some, List.map_map]
          exact List.map_congr_left fun v _ => by simp [valA, hf]
      have old : (chunks 4 512 (acc.rdBytes (accBase u.ac) 2048)).getD (r * 16 + c) 0
          = acc.rdN (accBase u.ac + 4 * (16 * r + c)) 4 := by
        rw [chunks_rdBytes acc 4 (accBase u.ac) 512, Nat.mul_comm r 16]
        have : 16 * r + c < 512 := by omega
        simp [this]
      rw [Option.map_some, values, colB_eq hg col, old]
      rfl

/-! ## The blocks of one array (R178, R179) -/

/-- What an array that has taken the blocks `kms`, each with its number and its sparsity entry, has become. -/
structure Ran (u : MmaUse) (ma mb : Memory) (kms : List (Nat × List Byte)) (x y : ArraySt) : Prop where
  cells : ∀ r c, r < 32 → c < 16 → y.cell u.ac r c = kms.foldl (u.addBlock ma mb r c) (x.cell u.ac r c)
  rest : ∀ a, a < accBase u.ac ∨ accBase u.ac + 2048 ≤ a → y.accs.rd a = x.accs.rd a
  frame : { y with accs := x.accs, sparse := x.sparse } = x
  queue : y.sparse = if u.sparse then x.sparse.drop kms.length else x.sparse

theorem Ran.nil (x : ArraySt) : u.Ran ma mb [] x x :=
  ⟨fun _ _ _ _ => rfl, fun _ _ => rfl, rfl, by simp⟩

theorem Ran.tiles {kms : List (Nat × List Byte)} {x y : ArraySt} (h : u.Ran ma mb kms x y) : y.tiles = x.tiles :=
  show ({ y with accs := x.accs, sparse := x.sparse } : ArraySt).tiles = x.tiles from congrArg ArraySt.tiles h.frame

theorem Ran.append {ks ls : List (Nat × List Byte)} {x y z : ArraySt} (h : u.Ran ma mb ks x y) (k : u.Ran ma mb ls y z) :
    u.Ran ma mb (ks ++ ls) x z where
  cells := fun r c row col => by rw [k.cells r c row col, h.cells r c row col, List.foldl_append]
  rest := fun a outside => (k.rest a outside).trans (h.rest a outside)
  frame := by
    have later := congrArg (fun w : ArraySt => { w with accs := x.accs, sparse := x.sparse }) k.frame
    exact later.trans h.frame
  queue := by
    rw [k.queue, h.queue, List.length_append]
    cases u.sparse with
    | true => simp
    | false => rfl

theorem addBlock_lt (r c x : Nat) (km : Nat × List Byte) : u.addBlock ma mb r c x km < 2 ^ (8 * 4) := fp32_finish_lt ..

/-- The array after one block whose results are `new`. -/
def taken (u : MmaUse) (x : ArraySt) (new : List (Nat × FFlags)) : ArraySt :=
  { x with
    accs := x.accs.wrBytes (accBase u.ac) (new.map fun r => leBytes 4 r.1).flatten
    sparse := if u.sparse then x.sparse.drop 1 else x.sparse }

theorem ran_taken (formats : u.Formats) {x : ArraySt} {kb : Nat} {entry : List Byte} {new : List (Nat × FFlags)} {nan : Bool}
    (passes : mmaBlock u ma mb x.accs kb entry = some (new, nan)) : u.Ran ma mb [(kb, entry)] x (u.taken x new) := by
  obtain ⟨length, cells⟩ := mmaBlock_spec formats passes
  have bytes : (new.map fun r => leBytes 4 r.1).flatten = ((new.map (·.1)).map (leBytes 4)).flatten := by
    rw [List.map_map]; rfl
  have size : (new.map fun r => leBytes 4 r.1).flatten.length = 2048 := by
    rw [length_flatten_of_all (b := 4) (List.forall_mem_map.2 fun _ _ => length_leBytes ..), List.length_map, length]
  refine ⟨fun r c row col => ?_, (x.accs.wrBytes_spec (accBase u.ac) size).2, rfl, rfl⟩
  have cell := cells r c row col
  rw [← List.getElem?_map] at cell
  obtain ⟨inside, value⟩ := List.getElem?_eq_some_iff.1 cell
  have read := x.accs.rdN_wrBytes_flatten (accBase u.ac) 4 (new.map (·.1)) inside
  rw [value, ← bytes, Nat.mod_eq_of_lt (addBlock_lt ..)] at read
  exact read

/-- The entries that successive blocks take: the head of the queue, or none where the operands are dense. -/
def Feeds (u : MmaUse) : List (List Byte) → List (List Byte) → Prop
  | [], _ => True
  | m :: ms, q => (if u.sparse then q.head? else some []) = some m ∧ u.Feeds ms (if u.sparse then q.drop 1 else q)

theorem feeds_take (sparse : u.sparse = true) (n : Nat) (q : List (List Byte)) : u.Feeds (q.take n) q := by
  induction q generalizing n with
  | nil => simp [Feeds]
  | cons m q ih =>
    cases n with
    | zero => trivial
    | succ n =>
      simp only [List.take_succ_cons, Feeds, sparse, if_true, List.head?_cons, List.drop_one, List.tail_cons, true_and]
      exact ih n

theorem feeds_replicate (dense : u.sparse = false) (n : Nat) (q : List (List Byte)) : u.Feeds (List.replicate n []) q := by
  induction n with
  | zero => trivial
  | succ n ih =>
    simp only [List.replicate_succ, Feeds, dense, Bool.false_eq_true, if_false, true_and]
    exact ih

/-- Blocks that all pass, from number `kb` on. -/
def Passes (u : MmaUse) (ma mb : Memory) (kms : List (Nat × List Byte)) : Prop :=
  ∀ km, km ∈ kms → ∀ acc, (mmaBlock u ma mb acc km.1 km.2).isSome

theorem mmaBlocks_visits (formats : u.Formats) {metas : List (List Byte)} {kb : Nat} {s : State} {k : Nat × Nat} {aA aB : Nat}
    (reach : s.dieReach (arrayDie k.2) (arrayDie aA) = true ∧ s.dieReach (arrayDie k.2) (arrayDie aB) = true)
    (tilesA : (s.array aA).tiles = ma) (tilesB : (s.array aB).tiles = mb) (feeds : u.Feeds metas (s.array k.2).sparse)
    (passes : u.Passes ma mb ((List.range' kb metas.length).zip metas)) :
    ∃ t p fl, mmaBlocks u k.1 k.2 aA aB metas.length kb s = (.done, t)
      ∧ s.Visits t [k] (fun _ => u.Ran ma mb ((List.range' kb metas.length).zip metas)) { s.me with meProg := p, meFlags := fl }
      ∧ ∀ j, j ≠ k.1 → vget p 0 j = vget s.me.meProg 0 j := by
  induction metas generalizing kb s with
  | nil =>
    refine ⟨s, _, _, rfl, ⟨rfl, fun _ _ => rfl, rfl, fun _ _ => rfl, fun _ _ => Ran.nil _⟩, fun _ _ => rfl⟩
  | cons m ms ih =>
    obtain ⟨head, feeds⟩ := feeds
    rw [List.length_cons, List.range'_succ, List.zip_cons_cons] at passes ⊢
    obtain ⟨first, passes⟩ := List.forall_mem_cons.1 passes
    obtain ⟨⟨new, nan⟩, block⟩ := Option.isSome_iff_exists.1 (first (s.array k.2).accs)
    have step := (State.Visits.setArray (R := fun _ => u.Ran ma mb [(kb, m)]) (ran_taken formats block)).upd fun c =>
      { c with meProg := vset c.meProg k.1 (kb + 1), meFlags := c.meFlags ||| meFlags (joinAll new) nan }
    have tiles := step.keeps (·.tiles) fun _ _ _ h => h.tiles
    have queue := (step.each k (.head _)).queue
    obtain ⟨t, p, fl, run, visits, others⟩ := ih (by rwa [step.reach, step.reach]) ((tiles aA).trans tilesA)
      ((tiles aB).trans tilesB) (queue ▸ feeds) passes
    rw [step.me] at visits others
    refine ⟨t, p, fl, ?_, step.again visits fun _ _ _ h k => h.append k, fun j other =>
      (others j other).trans (vget_vset_ne _ _ _ other)⟩
    rw [mmaBlocks, reach.1, reach.2]
    simp only [Bool.and_self, Bool.not_true, Bool.false_eq_true, if_false, head, tilesA, tilesB, block]
    exact run

/-! ## The arrays of a step (R178-R180) -/

/-- Array `a` can take all blocks of the step, with the tiles `ma` of array `aA`, `mb` of `aB`, and the entries `metas`. -/
structure CanRun (u : MmaUse) (s : State) (a aA aB : Nat) (ma mb : Memory) (metas : List (List Byte)) : Prop where
  reach : s.dieReach (arrayDie a) (arrayDie aA) = true ∧ s.dieReach (arrayDie a) (arrayDie aB) = true
  count : metas.length = u.k / u.b
  feeds : u.Feeds metas (s.array a).sparse
  passes : u.Passes ma mb ((List.range (u.k / u.b)).zip metas)

theorem CanRun.congr {s t : State} {a aA aB : Nat} {metas : List (List Byte)} (h : u.CanRun s a aA aB ma mb metas)
    (fab : t.fab = s.fab) (same : t.array a = s.array a) : u.CanRun t a aA aB ma mb metas :=
  ⟨by simpa only [State.dieReach_congr fab] using h.reach, h.count, same ▸ h.feeds, h.passes⟩

theorem CanRun.length {s : State} {a aA aB : Nat} {metas : List (List Byte)} (h : u.CanRun s a aA aB ma mb metas) :
    ((List.range (u.k / u.b)).zip metas).length = u.k / u.b := by
  rw [List.length_zip, List.length_range, h.count, Nat.min_self]

theorem canRun_of_dense (dense : u.sparse = false) {s : State} {a aA aB : Nat}
    (reach : s.dieReach (arrayDie a) (arrayDie aA) = true ∧ s.dieReach (arrayDie a) (arrayDie aB) = true) :
    u.CanRun s a aA aB ma mb (List.replicate (u.k / u.b) []) :=
  ⟨reach, List.length_replicate, feeds_replicate dense _ _, fun _ _ _ => isSome_mmaBlock_of_dense dense _ _⟩

theorem canRun_of_sparse (sparse : u.sparse = true) {s : State} {a aA aB : Nat}
    (reach : s.dieReach (arrayDie a) (arrayDie aA) = true ∧ s.dieReach (arrayDie a) (arrayDie aB) = true)
    (enough : u.k / u.b ≤ (s.array a).sparse.length)
    (pass : ∀ j, j < u.k / u.b → (mmaBlock u ma mb acc j ((s.array a).sparse.getD j [])).isSome) :
    u.CanRun s a aA aB ma mb ((s.array a).sparse.take (u.k / u.b)) := by
  refine ⟨reach, List.length_take_of_le enough, feeds_take sparse _ _, fun km member acc' => ?_⟩
  obtain ⟨j, inside, rfl⟩ := List.mem_iff_getElem.1 member
  rw [List.length_zip, List.length_range] at inside
  have block := pass j (by omega)
  rw [List.getD_eq_getElem _ _ (by omega)] at block
  simpa only [List.getElem_zip, List.getElem_range, List.getElem_take, isSome_mmaBlock acc'] using block

/-- Every array of a step that starts takes all its blocks: none has taken any, and their tiles are `tiles`. -/
theorem mmaArrays_visits (formats : u.Formats) (tiles : Nat → Memory) (fromA fromB : Nat → Nat) (used : Nat → List (List Byte))
    {ks : List (Nat × Nat)} {s : State} (slots : (ks.map (·.1)).Nodup) (arrays : (ks.map (·.2)).Nodup)
    (start : ∀ k, k ∈ ks → vget s.me.meProg 0 k.1 = 0) (held : ∀ n, (s.array n).tiles = tiles n)
    (can : ∀ k, k ∈ ks →
      u.CanRun s k.2 (fromA k.2) (fromB k.2) (tiles (fromA k.2)) (tiles (fromB k.2)) (used k.2)) :
    ∃ t p fl, mmaArrays u (fun k => (fromA k.2, fromB k.2)) (u.k / u.b) ks .done s = (.done, t)
      ∧ s.Visits t ks (fun n => u.Ran (tiles (fromA n)) (tiles (fromB n)) ((List.range (u.k / u.b)).zip (used n)))
          { s.me with meProg := p, meFlags := fl } := by
  induction ks generalizing s with
  | nil => exact ⟨s, _, _, rfl, .of_turns (.refl s) _⟩
  | cons k ks ih =>
    obtain ⟨newSlot, slots⟩ := List.nodup_cons.1 slots
    obtain ⟨newArray, arrays⟩ := List.nodup_cons.1 arrays
    obtain ⟨first, start⟩ := List.forall_mem_cons.1 start
    obtain ⟨⟨reach, count, feeds, passes⟩, can⟩ := List.forall_mem_cons.1 can
    rw [← count, List.range_eq_range'] at passes
    obtain ⟨v, p, fl, run, visit, others⟩ := mmaBlocks_visits formats reach (held _) (held _) feeds passes
    rw [count, ← List.range_eq_range'] at visit
    have apart : ∀ l, l ∈ ks → l.2 ≠ k.2 := fun l member e => newArray (List.mem_map.2 ⟨l, member, e⟩)
    obtain ⟨t, p', fl', rest, visits⟩ := ih (s := v) slots arrays
      (fun l member => by
        rw [visit.me]
        exact (others _ fun e => newSlot (List.mem_map.2 ⟨l, member, e⟩)).trans (start l member))
      (fun n => (visit.keeps (·.tiles) (fun _ _ _ h => h.tiles) n).trans (held n))
      (fun l member => (can l member).congr visit.fab <|
        visit.others _ (List.forall_mem_singleton.2 (apart l member).symm))
    rw [visit.me] at visits
    refine ⟨t, p', fl', ?_, (visit.mono (List.forall_mem_singleton.2 fun _ _ => id)).cons visits newArray⟩
    rw [mmaArrays, first]
    simp only [Nat.sub_zero]
    rw [show Nat.min (u.k / u.b) (u.k / u.b) = (used k.2).length from (Nat.min_self _).trans count.symm, run]
    exact rest

end MmaUse

/-! ## The operands of a step -/

/-- The codes of a legal pairing have elements (R54). -/
theorem mmFmt_of_mmPair {a b : Nat} (legal : mmPair a b = true) : (mmFmt a).isSome ∧ (mmFmt b).isSome := by
  have element : ∀ c, c < 13 → 1 ≤ c → (mmFmt c).isSome := by decide
  have range : (1 ≤ a ∧ a ≤ 12) ∧ 1 ≤ b ∧ b ≤ 12 := by
    simp only [mmPair, mmScaled, Bool.or_eq_true, Bool.and_eq_true, beq_iff_eq, decide_eq_true_eq] at legal
    omega
  exact ⟨element a (by omega) range.1.1, element b (by omega) range.2.1⟩

theorem MmaUse.formats_of_shapeOk {u : MmaUse} {w : BitVec 128} {sparse : Bool} (legal : fmtOkMma w sparse = true)
    (shape : u.shapeOk (bitsOf w.toNat 0 4) (bitsOf w.toNat 4 4) = true) : u.Formats := by
  simp only [fmtOkMma, Bool.and_eq_true] at legal
  simp only [MmaUse.shapeOk, Bool.and_eq_true, beq_iff_eq] at shape
  obtain ⟨⟨⟨⟨⟨-, b⟩, -⟩, -⟩, a⟩, -⟩ := shape.1
  obtain ⟨⟨⟨-, pair⟩, -⟩, -⟩ := legal
  obtain ⟨fa, fb⟩ := mmFmt_of_mmPair pair
  exact ⟨a ▸ fa, b ▸ fb⟩

/-- Where m is 0, or q names an array, each selected array reads A and B from itself or from that array (R180). -/
theorem State.mmaSrc_spec {s : State} {m : BitVec 2} {q : BitVec 7}
    (named : m ≠ 0 → fld (s.ev .me (srcOfField q.toNat)) 2 62 = 0
      ∧ (s.me.slotArray s.cur (fld (s.ev .me (srcOfField q.toNat)) 0 2)).isSome) :
    ∃ x, s.mmaSrc m q = some x ∧ mmaPick m x = fun k =>
      (if m.getLsbD 0 then (s.me.slotArray s.cur (fld (s.ev .me (srcOfField q.toNat)) 0 2)).getD k.2 else k.2,
        if m.getLsbD 1 then (s.me.slotArray s.cur (fld (s.ev .me (srcOfField q.toNat)) 0 2)).getD k.2 else k.2) := by
  by_cases none : m = 0
  · subst none
    exact ⟨_, rfl, rfl⟩
  · obtain ⟨word, slot⟩ := named none
    obtain ⟨x, slot⟩ := Option.isSome_iff_exists.1 slot
    have set : (m.toNat != 0) = true := by
      simpa using fun e => none (BitVec.eq_of_toNat_eq e)
    refine ⟨some x, ?_, ?_⟩
    · simp only [State.mmaSrc, set, if_true, word, slot, Option.map_some]
    · rw [slot]; rfl

theorem exec_mma_visits {s : State} {ks : List (Nat × Nat)} {w : BitVec 128} {d a b : BitVec 4} {m : BitVec 2} {q : BitVec 7}
    {sparse : Bool} {u : MmaUse} {src : Option Nat} {fromA fromB : Nat → Nat} {used : Nat → List (List Byte)}
    (begins : MeStart s ks w) (distinct : (ks.map (·.2)).Nodup) (legal : fmtOkMma w sparse = true)
    (operands : s.me.mmaUse w sparse d a b = u) (shape : u.shapeOk (bitsOf w.toNat 0 4) (bitsOf w.toNat 4 4) = true)
    (whole : u.k % u.b = 0) (named : s.mmaSrc m q = some src) (pick : mmaPick m src = fun k => (fromA k.2, fromB k.2))
    (can : ∀ k, k ∈ ks →
      u.CanRun s k.2 (fromA k.2) (fromB k.2) (s.array (fromA k.2)).tiles (s.array (fromB k.2)).tiles (used k.2)) :
    ∃ t p fl, exec (if sparse then .mmas d a b m q else .mma d a b m q) s = .next (t.meDone t.me.meFlags)
      ∧ s.Visits t ks (fun n => u.Ran (s.array (fromA n)).tiles (s.array (fromB n)).tiles ((List.range (u.k / u.b)).zip (used n)))
          { s.me.popped w with meProg := p, meFlags := fl } := by
  obtain ⟨slots, _⟩ := Core.selected_slots begins.slots
  obtain ⟨v, turn, pop⟩ := State.mePop_of_head (ok := (fmtOkMma · sparse)) begins.head legal
  have popped := State.Visits.of_turns turn fun n =>
    u.Ran (s.array (fromA n)).tiles (s.array (fromB n)).tiles ((List.range (u.k / u.b)).zip (used n))
  have same : ∀ n, v.array n = s.array n := fun n => popped.others n nofun
  have start : ∀ k, k ∈ ks → vget v.me.meProg 0 k.1 = 0 := by
    rw [turn.me]
    exact Core.selected_fresh begins.slots begins.fresh.1
  obtain ⟨t, p, fl, run, visits⟩ := MmaUse.mmaArrays_visits (MmaUse.formats_of_shapeOk legal shape)
    (fun n => (s.array n).tiles) fromA fromB used slots distinct start (fun n => by rw [same])
    (fun k member => (can k member).congr popped.fab (same _))
  rw [turn.me] at visits
  refine ⟨t, p, fl, ?_, popped.append visits nofun⟩
  rw [exec_mma_eq, State.mma, State.meOwned_of_selected begins.slots begins.joined, named]
  dsimp only
  rw [pop, operands, shape, if_neg (by simp), if_neg (not_not.2 whole), pick, run]

/-- Settles O25: each selected array takes its blocks one after another, and each accumulator their terms. -/
theorem matrixMultiplySteps : Obligations.MatrixMultiplySteps := by
  unfold Obligations.MatrixMultiplySteps
  intro s ks w d a b m q sparse c u v src fromA fromB used begins distinct legal shape whole named reach feeds
  obtain ⟨x, source, pick⟩ := s.mmaSrc_spec named
  have can : ∀ k, k ∈ ks → u.CanRun s k.2 (fromA k.2) (fromB k.2) (s.array (fromA k.2)).tiles (s.array (fromB k.2)).tiles
      (used k.2) := fun k member => by
    cases kind : sparse with
    | true =>
      obtain ⟨enough, pass⟩ := feeds kind k member
      rw [show used k.2 = (s.array k.2).sparse.take (u.k / u.b) from if_pos kind]
      exact MmaUse.canRun_of_sparse kind (reach k member) enough pass
    | false =>
      rw [show used k.2 = List.replicate (u.k / u.b) [] from if_neg (by simp [kind])]
      exact MmaUse.canRun_of_dense kind (reach k member)
  obtain ⟨t, p, fl, run, visits⟩ := exec_mma_visits (u := u) begins distinct legal rfl shape whole source pick can
  refine ⟨_, _, run, ?_, visits.meDone _ rfl rfl, visits.others, fun k member => ?_⟩
  · rw [visits.me_meDone]; rfl
  · obtain ⟨cells, rest, frame, queue⟩ := visits.each k member
    refine ⟨fun i j row col => ?_, rest, frame, ?_⟩
    · rw [MmaUse.mmaCell_eq_foldl]
      exact cells i j row col
    · rw [(can k member).length] at queue
      exact queue

end Sys2Proof.Machine

/-! SUPPORT. A transfer channel of the current core: what a change of it leaves of the rest (R186), and the statement about the
registers that arm its watermark and set its origins (R196). -/

namespace Sys2Proof.Machine

/-! ## A core with one channel changed -/

theorem vset_vget_self {α : Type} {n : Nat} (v : Vector α n) (d : α) (i : Nat) : vset v i (vget v d i) = v := by
  refine Vector.ext fun j hj => ?_
  by_cases same : i = j
  · subst same
    simp [vset, vget, hj]
  · simp [vset, Vector.getElem_setIfInBounds_ne, same]

theorem vset_vset_same {α : Type} {n : Nat} (v : Vector α n) (i : Nat) (x y : α) : vset (vset v i x) i y = vset v i y := by
  refine Vector.ext fun j hj => ?_
  by_cases same : i = j
  · subst same
    simp [vset]
  · simp [vset, same]

/-- The core with channel `k` as given. -/
def Core.withCh (c : Core) (k : Nat) (h : Channel) : Core := { c with ch := vset c.ch k h }

section
variable (c : Core) (k : Nat) (g h : Channel)

theorem Core.withCh_self : c.withCh k (vget c.ch .zero k) = c := by
  rw [Core.withCh, vset_vget_self]

@[simp] theorem Core.withCh_withCh : (c.withCh k g).withCh k h = c.withCh k h :=
  congrArg (fun v => { c with ch := v }) (vset_vset_same c.ch k g h)

theorem Core.vget_withCh_same {k : Nat} (is : k < 8) : vget (c.withCh k h).ch .zero k = h := vget_vset_same _ _ _ is

theorem Core.vget_withCh_ne {j : Nat} (other : j ≠ k) : vget (c.withCh k h).ch .zero j = vget c.ch .zero j :=
  vget_vset_ne _ _ _ other

end

/-- A change of one channel of the current core changes nothing else. -/
theorem State.turns_updChan (s : State) (k : Nat) (f : Channel → Channel) :
    s.Turns (s.updChan s.cur k f) (s.me.withCh k (f (vget s.me.ch .zero k))) :=
  State.Turns.upd s fun c => c.withCh k (f (vget c.ch .zero k))

/-! ## The registers of a channel that the S slot writes (R186, R196) -/

theorem exec_wmarm_eq (a : Src) (s : State) : exec (.wmarm a) s = execWmarm a s := rfl
theorem exec_chOrg_eq (ch : BitVec 3) (a : Src) (s : State) : exec (.chOrg ch a) s = execChOrg ch a s := rfl

/-- The S word has issued and changed one channel. -/
def State.issuedCh (s : State) (k : Nat) (f : Channel → Channel) : State := (s.issueS 1 id).updChan s.cur k f

section
variable {s : State} {k : Nat} {f : Channel → Channel}

theorem State.me_issuedCh : (s.issuedCh k f).me = (s.issueS 1 id).me.withCh k (f (vget s.me.ch .zero k)) := by
  have turn := (s.issueS 1 id).turns_updChan k f
  have ch : (s.issueS 1 id).me.ch = s.me.ch := (congrArg Core.ch (State.me_upd s _) :)
  rw [ch] at turn
  exact turn.me

theorem State.issued_issuedCh : Issued s (s.issuedCh k f) 1 fun c => { c with ch := s.me.ch } where
  pc := by rw [State.me_issuedCh]; exact (issued_id s 1).pc
  interval := by rw [State.me_issuedCh]; exact (issued_id s 1).interval
  went := by rw [State.me_issuedCh]; exact (issued_id s 1).went
  frame := by
    rw [State.me_issuedCh]
    exact congrArg (fun c => { c with ch := s.me.ch }) (issued_id s 1).frame
  elsewhere := (issued_id s 1).elsewhere.trans ((s.issueS 1 id).turns_updChan k f).elsewhere

theorem State.vget_issuedCh_same (is : k < 8) : vget (s.issuedCh k f).me.ch .zero k = f (vget s.me.ch .zero k) := by
  rw [State.me_issuedCh, Core.vget_withCh_same _ _ is]

theorem State.vget_issuedCh_ne {j : Nat} (other : j ≠ k) :
    vget (s.issuedCh k f).me.ch .zero j = vget s.me.ch .zero j := by
  have ch : (s.issueS 1 id).me.ch = s.me.ch := (congrArg Core.ch (State.me_upd s _) :)
  rw [State.me_issuedCh, Core.vget_withCh_ne _ _ _ other, ch]

end

/-- Settles O33: WMARM checks its bounds and arms, and CHn_ORG waits for its channel. -/
theorem watermarkAndOriginRegisters : Obligations.WatermarkAndOriginRegisters := by
  unfold Obligations.WatermarkAndOriginRegisters
  intro s ch a v st en k h others
  have channel : k < 8 := Nat.mod_lt _ (by decide)
  refine ⟨fun ordered inside => ?_, fun outside running uc => ?_, fun idle empty => ?_, fun busy => ?_⟩
  · have run := (exec_wmarm_eq a s).trans (if_neg (not_or.2 ⟨not_lt.2 ordered, not_lt.2 inside⟩))
    exact ⟨_, _, run, State.vget_issuedCh_same channel, rfl, rfl, rfl, rfl, rfl, rfl,
      fun j other => State.vget_issuedCh_ne other, State.issued_issuedCh⟩
  · obtain ⟨call, slot, rpc, status, frame, elsewhere⟩ := State.sFault_raised uc running .spadRange v 0 0 0 0 false
    exact ⟨_, _, (exec_wmarm_eq a s).trans (if_pos outside), call, rfl, rfl, slot, rpc, status, frame, elsewhere⟩
  · exact ⟨_, (exec_chOrg_eq ch a s).trans (if_neg (by simp [idle, empty])), State.vget_issuedCh_same ch.isLt,
      fun j other => State.vget_issuedCh_ne other, State.issued_issuedCh⟩
  · exact (exec_chOrg_eq ch a s).trans (if_pos (by simp [busy]))

end Sys2Proof.Machine

/-! SUPPORT. The steps of a transfer channel of the current core: how a change of it follows another, its accesses to the scratchpad
where no window and no other channel's watermark stands in the way (R196), and the end of a copy (R189). -/

namespace Sys2Proof.Machine

/-! ## One change after another -/

section
variable {s t : State} {c : Core} {k : BitVec 3} {h : Channel}

theorem State.turns_withCh_self (s : State) (k : BitVec 3) : s.Turns s (s.me.withCh k.toNat (s.xc k)) := by
  rw [State.xc, Core.withCh_self]
  exact .refl s

section
variable (turn : s.Turns t (c.withCh k.toNat h))
include turn

theorem State.Turns.xc : t.xc k = h := by
  rw [State.xc, turn.me, Core.vget_withCh_same _ _ k.isLt]

theorem State.Turns.updX (f : Channel → Channel) : s.Turns (t.updX k f) (c.withCh k.toNat (f h)) := by
  have next := t.turns_updChan k.toNat f
  rw [show vget t.me.ch .zero k.toNat = h from turn.xc, turn.me, Core.withCh_withCh] at next
  exact turn.trans next

theorem State.Turns.updEng_ch (f : Engine → Engine) :
    s.Turns (t.updEng t.cur (.ch k) f) (c.withCh k.toNat { h with eng := f h.eng }) :=
  turn.updX fun g => { g with eng := f g.eng }

theorem State.Turns.unitDone_ch (fl : BitVec 64) :
    s.Turns (t.unitDone (.ch k) fl) (c.withCh k.toNat { h with eng := h.eng.stepped fl }) := by
  have done := turn.updEng_ch fun e => if e.inProg then e.nextWord fl else e.finish fl
  rw [Engine.stepped_eq] at done
  exact done

/-- A change that is the channel's alone but for what `f` takes back. -/
theorem State.Turns.xElse (ch : c.ch = s.me.ch) {f : Core → Core} (back : f { c with ch := s.me.ch } = s.me) : XElse s t k f := by
  refine ⟨fun j other => ?_, ?_, turn.elsewhere.cores⟩
  · rw [turn.me, Core.vget_withCh_ne _ _ _ other, ch]
  · rw [turn.me]
    exact back

end

/-- A change of the scratchpad leaves the channels. -/
theorem State.Turns.updSpad (turn : s.Turns t (c.withCh k.toNat h)) (f : Memory → Memory) :
    s.Turns (t.upd fun x => { x with spad := f x.spad }) ({ c with spad := f c.spad }.withCh k.toNat h) := by
  have next := State.Turns.upd t fun x => { x with spad := f x.spad }
  rw [turn.me] at next
  exact turn.trans next

end

/-! ## Accesses of a channel to its own scratchpad -/

/-- A channel's own watermark does not guard against it. -/
theorem Core.guarded_withCh (c : Core) (k : BitVec 3) (h : Channel) (off n : Nat) :
    (c.withCh k.toNat h).guarded (8 + k.toNat) off n = c.guarded (8 + k.toNat) off n := by
  refine List.any_congr rfl fun j => ?_
  by_cases own : j = k.toNat
  · simp [own]
  · simp only [Core.vget_withCh_ne _ _ _ own]

/-- Nothing stands between channel `k` and its core's scratchpad: no window is open, no other channel's watermark is armed, the
channel waits for nothing, and no access of its step has failed. -/
structure State.XFree (s : State) (k : BitVec 3) : Prop where
  tiles : s.me.tiles = []
  arms : ∀ off n, s.me.guarded (8 + k.toNat) off n = false
  ask : (s.xc k).eng.ask = none
  hit : (s.xc k).eng.hit = false
  fails : (s.xc k).eng.fails = []

section
variable {s t : State} {k : BitVec 3}

theorem State.XFree.of_start (start : XStart s k) : s.XFree k := by
  obtain ⟨⟨_, _, _, _, ask, hit, fails⟩, _⟩ := start.fresh
  exact { tiles := start.tiles, arms := start.arms, ask := ask, hit := hit, fails := fails }

/-- Writes of the scratchpad and of the watermark leave a channel as free as it was. -/
theorem State.XFree.of_turns (free : s.XFree k) {c : Core} {h : Channel} (turn : s.Turns t (c.withCh k.toNat h))
    (tiles : c.tiles = s.me.tiles) (ch : c.ch = s.me.ch) (ask : h.eng.ask = (s.xc k).eng.ask)
    (hit : h.eng.hit = (s.xc k).eng.hit) (fails : h.eng.fails = (s.xc k).eng.fails) : t.XFree k where
  tiles := by rw [turn.me]; exact tiles.trans free.tiles
  arms := fun off n => by rw [turn.me, Core.guarded_withCh, Core.guarded_congr ch, free.arms]
  ask := by rw [turn.xc, ask, free.ask]
  hit := by rw [turn.xc, hit, free.hit]
  fails := by rw [turn.xc, fails, free.fails]

theorem unitOfObs_ch (k : BitVec 3) : unitOfObs (8 + k.toNat) = some (.ch k) := by
  have last : 8 + k.toNat ≤ 15 := by omega
  simp [unitOfObs, last, show 8 + k.toNat ≠ 1 by omega, show 8 + k.toNat ≠ 2 by omega]

/-- A channel that asks for nothing has nothing to note when an access is over (R321). -/
theorem State.noteAsk_ch_of_none (none : (s.xc k).eng.ask = none) (sp wr : Bool) (a len : Nat) :
    s.noteAsk s.cur (8 + k.toNat) sp wr a len false = s := by
  have ask : ((s.core s.cur).eng (.ch k)).ask = Option.none := none
  simp [State.noteAsk, unitOfObs_ch, Engine.asking, ask]

/-- Otherwise its request is over at the most. -/
theorem State.turns_noteAsk_ch (sp wr : Bool) (a len : Nat) : ∃ q,
    s.Turns (s.noteAsk s.cur (8 + k.toNat) sp wr a len false)
      (s.me.withCh k.toNat { s.xc k with eng := { (s.xc k).eng with ask := q } }) := by
  have self := s.turns_withCh_self k
  simp only [State.noteAsk, unitOfObs_ch, Bool.not_false, if_true]
  split
  · exact ⟨none, self.updEng_ch fun e => { e with ask := none }⟩
  · exact ⟨_, self⟩

/-- A free channel reads the bytes that stand in the scratchpad. -/
theorem State.rdA_ch (free : s.XFree k) (a len : Nat) :
    s.rdA s.cur (8 + k.toNat) true a len = .ok (s.me.spad.rdBytes a len) s := by
  have ask : ((s.core s.cur).eng (.ch k)).ask = none := free.ask
  have hit : ((s.core s.cur).eng (.ch k)).hit = false := free.hit
  have tiles : (s.core s.cur).tiles = [] := free.tiles
  have arms : (s.core s.cur).guarded (8 + k.toNat) a len = false := free.arms a len
  have read : s.rdS s.cur a len = .ok (s.me.spad.rdBytes a len) s := by
    by_cases h : len = 0
    · simp [State.rdS, Core.spPieces, tiles, h, readSp, Memory.rdBytes_eq]
    · simp [State.rdS, Core.spPieces, tiles, h, readSp, Core.tileSp, State.me]
  simp [State.rdA, State.gaveUp, State.isHit, State.handed, unitOfObs_ch, Engine.asking, ask, hit, arms, read, Try.noted,
    State.noteAsk_ch_of_none free.ask]

section
variable (tiles : s.me.tiles = []) (fails : (s.xc k).eng.fails = [])
include tiles fails

/-- A write of a channel that nothing guards against puts its bytes into the scratchpad, and is over. -/
theorem State.unitWr_ch (a : Nat) {bs : List Byte} (arms : s.me.guarded (8 + k.toNat) a bs.length = false) (some_ : bs ≠ []) :
    s.unitWr (.ch k) true a bs = .ok none
      ((s.upd fun c => { c with spad := c.spad.wrBytes a bs }).noteAsk s.cur (8 + k.toNat) true true a bs.length false) := by
  have unfailed : (s.eng (.ch k)).failOf true a = none := by
    rw [Engine.failOf, show (s.eng (.ch k)).fails = [] from fails]; rfl
  have tiles : (s.core s.cur).tiles = [] := tiles
  have arms : (s.core s.cur).guarded (8 + k.toNat) a bs.length = false := arms
  have wrote : s.wrS s.cur (8 + k.toNat) a bs = .ok none (s.upd fun c => { c with spad := c.spad.wrBytes a bs }) := by
    simp [State.wrS, Core.spPieces, tiles, some_, writeSp, Core.tileSp, State.upd]
  simp [State.unitWr, unfailed, State.wrF, unitObs, arms, wrote, Try.noted]

/-- An atomic update of a channel at a scratchpad offset that nothing guards is made at once. -/
theorem State.unitRmw_ch (a size : Nat) (arms : s.me.guarded (8 + k.toNat) a size = false) (f : Nat → Nat) :
    s.unitRmw (.ch k) true a size f = .ok none (s.upd fun c => { c with spad := c.spad.wrN a size (f (c.spad.rdN a size)) }) := by
  have unfailed : (s.eng (.ch k)).failOf true a = none := by
    rw [Engine.failOf, show (s.eng (.ch k)).fails = [] from fails]; rfl
  have tiles : (s.core s.cur).tiles = [] := tiles
  have arms : (s.core s.cur).guarded (8 + k.toNat) a size = false := arms
  simp [State.unitRmw, unfailed, State.rmwA, unitObs, arms, Core.tileSp, tiles, State.upd]

end

end

/-! ## The watermark after several writes (R196) -/

section
variable (h : Channel) (fill : List (Nat × Nat))

@[simp] theorem Channel.early_advance : h.advance.early = h.early := by unfold Channel.advance; split <;> rfl
@[simp] theorem Channel.eng_advance : h.advance.eng = h.eng := by unfold Channel.advance; split <;> rfl
@[simp] theorem Channel.copyFail_advance : h.advance.copyFail = h.copyFail := by unfold Channel.advance; split <;> rfl

@[simp] theorem Channel.eng_wrote (a n : Nat) : (h.wrote a n).eng = h.eng := by unfold Channel.wrote; split <;> simp
@[simp] theorem Channel.copyFail_wrote (a n : Nat) : (h.wrote a n).copyFail = h.copyFail := by
  unfold Channel.wrote; split <;> simp

@[simp] theorem Channel.filledBy_nil : h.filledBy [] = h := by unfold Channel.filledBy; split <;> rfl

/-- Ranges that are filled one after another are noted one after another. -/
theorem Channel.filledBy_cons (r : Nat × Nat) : h.filledBy (r :: fill) = (h.wrote r.1 r.2).filledBy fill := by
  cases early : h.early <;> simp [Channel.filledBy, Channel.wrote, early]

@[simp] theorem Channel.eng_filledBy : (h.filledBy fill).eng = h.eng := by
  induction fill generalizing h with
  | nil => simp
  | cons r fill ih => simp [Channel.filledBy_cons, ih]

@[simp] theorem Channel.copyFail_filledBy : (h.filledBy fill).copyFail = h.copyFail := by
  induction fill generalizing h with
  | nil => simp
  | cons r fill ih => simp [Channel.filledBy_cons, ih]

end

/-! ## The end of a copy (R189, R190) -/

section
variable {s t : State} {c : Core} {k : BitVec 3} {h : Channel}

/-- The end of a copy without a failed write. -/
theorem State.Turns.copyEnd (turn : s.Turns t (c.withCh k.toNat h)) (none : h.copyFail = none) : s.Turns (t.copyEnd k)
    (c.withCh k.toNat { h with early := false, emitted := false, eng := { h.eng with outs := Option.none, parts := [] } }) := by
  have fine : (t.xc k).copyFail = Option.none := by rw [turn.xc, none]
  have ended := (turn.updEng_ch fun e => { e with outs := Option.none, parts := [] }).updX fun h =>
    { h with early := false, emitted := false }
  simp only [State.copyEnd, fine]
  exact ended

end

end Sys2Proof.Machine

/-! SUPPORT. The copy-class words of a transfer channel (R188-R194): the bytes that a copy reads and the writes that it makes, and the
two statements about them. -/

namespace Sys2Proof.Machine

/-! ## A copy-class word that can begin (R189, R190) -/

theorem exec_xcopy_eq (ch : BitVec 3) (a : Src) (s : State) : exec (.xcopy ch a) s = s.xcopyWord ch (.copy (s.xv ch a)) := rfl
theorem exec_xtile_eq (ch : BitVec 3) (a b : Src) (s : State) :
    exec (.xtile ch a b) s = s.xcopyWord ch (.tile (s.xv ch a) (s.xv ch b)) := rfl
theorem exec_xmeta_eq (ch : BitVec 3) (a b : Src) (s : State) :
    exec (.xmeta ch a b) s = s.xcopyWord ch (.sparse (s.xv ch a) (s.xv ch b)) := rfl
theorem exec_xgather_eq (ch : BitVec 3) (a b : Src) (s : State) :
    exec (.xgather ch a b) s = s.xcopyWord ch (.gather (s.xv ch a) (s.xv ch b)) := rfl
theorem exec_xred_eq (ch : BitVec 3) (a b : Src) (s : State) :
    exec (.xred ch a b) s = s.xcopyWord ch (.red (s.xv ch a) (s.xv ch b)) := rfl

/-- Where a channel's copy takes its addresses from (R187, R188). -/
def Channel.xargs (h : Channel) : XArgs :=
  { src := h.active.src, dst := h.active.dst, srcA := h.addr 0 (fld h.active.src 0 56), dstA := h.addr 1 (fld h.active.dst 0 56)
    rstr := h.active.rstr }

/-- What a copy-class word does when its copy is done. -/
def State.xdone (k : BitVec 3) (t : State) : Res := .next ((t.updX k fun h => { h with copied := true }).unitDone (.ch k))

theorem State.xcopyWord_of_first {s : State} {ch : BitVec 3}
    (first : ¬ ((s.xc (s.xch ch)).copied = true ∧ (s.xc (s.xch ch)).eng.inProg = true)) (o : XOp) :
    s.xcopyWord ch o = s.xop (s.xch ch) o (s.xc (s.xch ch)).xargs (State.xdone (s.xch ch)) :=
  if_neg first

/-- A length of 1 to 4,096 bytes (Table 9-7). -/
theorem length_in_range {l : Word} (pos : 1 ≤ l.toNat) (most : l.toNat ≤ 4096) : decide (l.toNat < 1 ∨ 4096 < l.toNat) = false :=
  decide_eq_false (by omega)

section
variable {s : State} {k : BitVec 3} {x : XArgs} {ss ds : XSpace} {f : State → Res} (edge : s.me.edgeHeld k.toNat = false)
  (src : spaceOf x.src = some ss) (dst : spaceOf x.dst = some ds)
include edge src dst

theorem State.xop_copy {l : Word} (pos : 1 ≤ l.toNat) (most : l.toNat ≤ 4096) :
    s.xop k (.copy l) x f = s.xcopyRuns k ⟨ss, [(x.srcA, l.toNat)]⟩ ⟨ds, [(x.dstA, l.toNat)]⟩ f := by
  have legal : (XOp.copy l).cfgBad x = false := by
    simp only [XOp.cfgBad, length_in_range pos most, src, dst]
    rfl
  simp only [State.xop, legal, edge, src, dst, Bool.false_eq_true, if_false, Option.getD_some]

theorem State.xop_tile {l r : Word} (pos : 1 ≤ l.toNat) (rows : 1 ≤ r.toNat ∧ r.toNat ≤ 64) (most : l.toNat * r.toNat ≤ 4096) :
    s.xop k (.tile l r) x f = s.xcopyRuns k ⟨ss, tileRuns x.srcA l.toNat r.toNat (sextNat 32 (fld x.rstr 0 32))⟩
      ⟨ds, tileRuns x.dstA l.toNat r.toNat (sextNat 32 (fld x.rstr 32 32))⟩ f := by
  have legal : (XOp.tile l r).cfgBad x = false := by
    have size : decide (r.toNat < 1 ∨ 64 < r.toNat ∨ 4096 < l.toNat * r.toNat) = false := decide_eq_false (by omega)
    simp only [XOp.cfgBad, length_in_range pos ((Nat.le_mul_of_pos_right _ rows.1).trans most), size, src, dst]
    rfl
  simp only [State.xop, legal, edge, src, dst, Bool.false_eq_true, if_false, Option.getD_some]

theorem State.xop_gather {l m : Word} (size : l.toNat = 1 ∨ l.toNat = 2 ∨ l.toNat = 4 ∨ l.toNat = 8) (pos : 1 ≤ fld m 0 10)
    (most : fld m 0 10 ≤ 512) (rest : fld m 11 53 = 0) (aligned : x.srcA % 8 = 0) :
    s.xop k (.gather l m) x f = s.xgather k ⟨ss, [(x.srcA, 8 * fld m 0 10)]⟩ ⟨ds, [(x.dstA, l.toNat * fld m 0 10)]⟩
      (fld m 10 1 == 1) l.toNat (fld m 0 10) x.dstA f := by
  have sizes : (l == 1 || l == 2 || l == 4 || l == 8) = true := by
    simpa [← BitVec.toNat_inj, or_assoc] using size
  have legal : (XOp.gather l m).cfgBad x = false := by
    have count : decide (fld m 0 10 < 1 ∨ 512 < fld m 0 10) = false := decide_eq_false (by omega)
    simp only [XOp.cfgBad, sizes, count, rest, src, dst]
    rfl
  simp only [State.xop, legal, edge, src, dst, aligned, ne_eq, not_true_eq_false, Bool.false_eq_true, if_false, Option.getD_some]

omit src in
theorem State.xop_fill {l pat : Word} (pos : 1 ≤ l.toNat) (most : l.toNat ≤ 4096)
    (sound : (⟨ds, [(x.dstA, l.toNat)]⟩ : Side).fail s.me s.cur = none) : s.xop k (.fill l pat) x f =
      s.xagain k ds false f (s.xput k ds false (((segs false (ds == .glob) 3 0 x.dstA.toNat l.toNat).map fun p =>
        (p.2.1, (((List.range l.toNat).map fun j => BitVec.ofNat 8 (fld pat (8 * (j % 8)) 8)).drop p.1).take p.2.2)).drop
          (s.eng (.ch k)).elem) none f) := by
  have legal : (XOp.fill l pat).cfgBad x = false := by
    simp only [XOp.cfgBad, length_in_range pos most, dst]
    rfl
  simp only [State.xop, legal, edge, dst, sound, Bool.false_eq_true, if_false, Option.getD_some]

omit dst in
theorem State.xop_sparse {l slot : Word} (size : l.toNat = 64 ∨ l.toNat = 128) (most : slot.toNat ≤ 3) :
    s.xop k (.sparse l slot) x f = s.xmeta k ⟨ss, [(x.srcA, l.toNat)]⟩ slot.toNat f := by
  have sizes : (l == 64 || l == 128) = true := by simpa [← BitVec.toNat_inj] using size
  have legal : (XOp.sparse l slot).cfgBad x = false := by
    have named : decide (3 < slot.toNat) = false := decide_eq_false (by omega)
    simp only [XOp.cfgBad, sizes, named, src]
    rfl
  simp only [State.xop, legal, edge, src, Bool.false_eq_true, if_false, Option.getD_some]

/-- The types that XRED combines (R192). -/
def RedType (t : Nat) : Prop := t = 0 ∨ t = 1 ∨ t = 2 ∨ t = 0x0E ∨ t = 0x0F ∨ t = 0x12 ∨ t = 0x13

theorem State.xop_red {l op : Word} (type : RedType (fld op 0 5)) (five : fld op 5 1 = 0) (kind : fld op 6 2 ≤ 2)
    (rest : fld op 8 56 = 0) (pos : 1 ≤ l.toNat) (most : l.toNat ≤ 4096) (whole : l.toNat % (tyWidth (fld op 0 5) / 8) = 0)
    (noTile : ds ≠ .tile) (alignS : x.srcA % (tyWidth (fld op 0 5) / 8 : Nat) = 0)
    (alignD : x.dstA % (tyWidth (fld op 0 5) / 8 : Nat) = 0) :
    s.xop k (.red l op) x f = s.xred k ⟨ss, [(x.srcA, l.toNat)]⟩ ⟨ds, [(x.dstA, l.toNat)]⟩ (fld op 0 5) (fld op 6 2)
      (tyWidth (fld op 0 5) / 8) (l.toNat / (tyWidth (fld op 0 5) / 8)) x.srcA x.dstA f := by
  have legal : (XOp.red l op).cfgBad x = false := by
    have kinds : (fld op 6 2 == 3) = false := beq_false_of_ne (by omega)
    have types : (fld op 0 5 == 0 || fld op 0 5 == 1 || fld op 0 5 == 2 || fld op 0 5 == 0x0E || fld op 0 5 == 0x0F
        || fld op 0 5 == 0x12 || fld op 0 5 == 0x13) = true := by
      simpa [or_assoc, RedType] using type
    simp only [XOp.cfgBad, length_in_range pos most, types, five, kinds, rest, whole, src, dst]
    simpa using noTile
  simp only [State.xop, legal, edge, src, dst, alignS, alignD, ne_eq, not_true_eq_false, Bool.false_eq_true, if_false,
    Option.getD_some]

end

/-! ## Segments (R191) -/

/-- A run that crosses no 64 KiB boundary of a global side is one segment. -/
theorem segs_of_no_boundary {gs gd : Bool} {a b n : Nat} (pos : 1 ≤ n) (src : gs = true → a % 65536 + n ≤ 65536)
    (dst : gd = true → b % 65536 + n ≤ 65536) : segs gs gd 3 a b n = [(a, b, n)] := by
  have whole : Nat.min n (Nat.min (if gs then 65536 - a % 65536 else n) (if gd then 65536 - b % 65536 else n)) = n := by
    cases gs <;> cases gd <;> simp at src dst ⊢ <;> omega
  simp [segs, whole, Nat.ne_of_gt pos]

/-- In the scratchpad every run is one segment. -/
theorem segs_spad {a b n : Nat} (pos : 1 ≤ n) : segs false false 3 a b n = [(a, b, n)] := segs_of_no_boundary pos nofun nofun

/-! ## A copy in one segment (R188, R189) -/

section
variable {s : State} {k : BitVec 3} {d : XSpace}

/-- A copy whose writes are all made ends. -/
theorem State.xput_of_done {whole : Bool} {ws : List (Nat × List Byte)} {f : State → Res} {t : State}
    (done : sideWrites k d ws (s.eng (.ch k)).elem s = .done t) : s.xput k d whole ws none f = f (t.copyEnd k) := by
  simp only [State.xput, done]

/-- A copy that has no writes left over from an earlier try goes on from its reads. -/
theorem State.xagain_of_none {whole : Bool} {f : State → Res} {g : Res} (outs : (s.xc k).eng.outs = none) :
    s.xagain k d whole f g = g := by
  have outs' : (s.eng (.ch k)).outs = none := outs
  simp only [State.xagain, outs']

/-- A copy in one segment: one read, then one write. -/
theorem State.xcopyRuns_single {t u : State} {ss : XSpace} {x y : Int} {n : Nat} {bs : List Byte} {f : State → Res}
    (elem : (s.xc k).eng.elem = 0) (outs : (s.xc k).eng.outs = none)
    (src : (⟨ss, [(x, n)]⟩ : Side).fail s.me s.cur = none) (dst : (⟨d, [(y, n)]⟩ : Side).fail s.me s.cur = none)
    (apart : (⟨ss, [(x, n)]⟩ : Side).meets ⟨d, [(y, n)]⟩ = false)
    (one : segs (ss == .glob) (d == .glob) 3 x.toNat y.toNat n = [(x.toNat, y.toNat, n)])
    (read : s.sideRead k ss x.toNat n = .ok bs t)
    (write : (if ss = .glob then t.countFills k s.lines else t).sideWrite k d y.toNat bs = .ok () u) :
    s.xcopyRuns k ⟨ss, [(x, n)]⟩ ⟨d, [(y, n)]⟩ f = f (u.copyEnd k) := by
  have elem' : (s.eng (.ch k)).elem = 0 := elem
  have alone : ∀ z, t.aliased k ss d [] z n = [] := fun z => by simp [State.aliased]
  simp only [State.xcopyRuns, src, dst, apart, List.zip_cons_cons, List.zip_nil_right, List.flatMap_cons, List.flatMap_nil,
    List.append_nil, one, elem', List.drop_zero, List.take_zero, State.xagain_of_none outs, readSegs, read, alone, State.segBytes,
    Bool.false_eq_true, if_false, List.isEmpty_nil, if_true, List.reverse_cons, List.reverse_nil, List.nil_append]
  exact State.xput_of_done (by simp only [sideWrites, write])

end

/-- Settles O30: the copy is its one read and its one write, and the end of the copy. -/
theorem globalCopyGoesThroughTheObserver : Obligations.GlobalCopyGoesThroughTheObserver := by
  unfold Obligations.GlobalCopyGoesThroughTheObserver
  intro s t u ch a ss ds bs k h l x y src dst first elem outs edge spaceS spaceD pos most sound sound' apart oneS oneD read write
  have one : segs (ss == .glob) (ds == .glob) 3 x.toNat y.toNat l = [(x.toNat, y.toNat, l)] :=
    segs_of_no_boundary pos (fun glob => oneS (by simpa using glob)) fun glob => oneD (by simpa using glob)
  rw [exec_xcopy_eq, State.xcopyWord_of_first first, State.xop_copy (x := h.xargs) edge spaceS spaceD pos most]
  exact State.xcopyRuns_single elem outs sound sound' apart one read write

end Sys2Proof.Machine

/-! SUPPORT. Copy-class words with both sides in the scratchpad (R188-R194): their reads, their writes one after another, and the
statement about them. -/

namespace Sys2Proof.Machine

/-! ## Reads of a copy -/

section
variable {s : State} {k : BitVec 3} (free : s.XFree k)
include free

/-- Without windows no byte of the scratchpad has a second name (R191). -/
theorem State.aliased_spad (b : XSpace) (prev : List (Nat × Nat × Nat)) (x n : Nat) : s.aliased k .spad b prev x n = [] := by
  simp [State.aliased, State.physOf, free.tiles]

/-- Segments of the scratchpad are read one after another, and the reads change nothing. -/
theorem readSegs_spad (b : XSpace) (whole : Bool) (l prev : List (Nat × Nat × Nat)) (acc : List (Nat × List Byte)) :
    readSegs k .spad b whole l prev acc s =
      .ok (acc.reverse ++ l.map fun p => (p.2.1, s.me.spad.rdBytes p.1 p.2.2), none) s := by
  induction l generalizing prev acc with
  | nil => simp [readSegs]
  | cons p l ih =>
    obtain ⟨x, y, n⟩ := p
    simp [readSegs, State.sideRead, State.rdA_ch free, State.aliased_spad free, State.segBytes, ih]

/-- Aligned elements inside the scratchpad are gathered one after another (R193). -/
theorem gatherRead_spad (d : XSpace) (whole : Bool) (sz : Nat) (dst : Int) (ix : List Nat) (prev : List (Nat × Nat × Nat))
    (acc : List (List Byte)) (sound : ∀ i, i ∈ ix → i % sz = 0 ∧ i + sz ≤ 2 ^ 21) :
    gatherRead k true d whole sz dst ix prev acc s = .ok (acc.reverse ++ ix.map fun i => s.me.spad.rdBytes i sz, none) s := by
  induction ix generalizing dst prev acc with
  | nil => simp [gatherRead]
  | cons i ix ih =>
    obtain ⟨⟨aligned, inside⟩, rest⟩ := List.forall_mem_cons.1 sound
    have inside' : ¬ 2097152 < i + sz := not_lt.2 inside
    simp [gatherRead, aligned, inside', State.rdA_ch free, State.aliased_spad free, State.segBytes, ih _ _ _ rest]

end

/-! ## Writes of a copy -/

/-- From `s` to `t` the scratchpad has become `m` and channel `k` `h`, and nothing else has changed. -/
def State.Fills (s t : State) (k : BitVec 3) (m : Memory) (h : Channel) : Prop :=
  s.Turns t ({ s.me with spad := m }.withCh k.toNat h)

section
variable {s t u : State} {k : BitVec 3} {m m' : Memory} {h g : Channel}

theorem State.Fills.refl (s : State) (k : BitVec 3) : s.Fills s k s.me.spad (s.xc k) := s.turns_withCh_self k

theorem State.Fills.spad (fills : s.Fills t k m h) : t.me.spad = m := congrArg Core.spad fills.me

theorem State.Fills.trans (first : s.Fills t k m h) (next : t.Fills u k m' g) : s.Fills u k m' g := by
  unfold State.Fills at next
  rw [first.me] at next
  have turn := Turns.trans first next
  have same : ({ ({ s.me with spad := m }.withCh k.toNat h) with spad := m' } : Core).withCh k.toNat g =
      ({ s.me with spad := m' }.withCh k.toNat h).withCh k.toNat g := rfl
  rw [same, Core.withCh_withCh] at turn
  exact turn

/-- Bytes written, or updated, and noted by the watermark. -/
theorem State.fills_wrote (s : State) (k : BitVec 3) (f : Memory → Memory) (a n : Nat) :
    s.Fills ((s.upd fun c => { c with spad := f c.spad }).updX k fun h => h.wrote a n) k (f s.me.spad) ((s.xc k).wrote a n) :=
  ((s.turns_withCh_self k).updSpad f).updX _

theorem State.XFree.of_fills (free : s.XFree k) (fills : s.Fills t k m h) (eng : h.eng = (s.xc k).eng) : t.XFree k :=
  free.of_turns fills rfl rfl (by rw [eng]) (by rw [eng]) (by rw [eng])

/-- A write of some bytes that nothing guards is made at once; a request that the channel waited for is over at the most. -/
theorem State.unitWr_fills (tiles : s.me.tiles = []) (fails : (s.xc k).eng.fails = []) (a : Nat) {bs : List Byte}
    (arms : s.me.guarded (8 + k.toNat) a bs.length = false) (some_ : bs ≠ []) : ∃ t q, s.unitWr (.ch k) true a bs = .ok none t
      ∧ s.Fills t k (s.me.spad.wrBytes a bs) { s.xc k with eng := { (s.xc k).eng with ask := q } } := by
  let u := s.upd fun c => { c with spad := c.spad.wrBytes a bs }
  have wrote : s.Fills u k (s.me.spad.wrBytes a bs) (s.xc k) := (s.turns_withCh_self k).updSpad fun m => m.wrBytes a bs
  obtain ⟨q, noted⟩ := u.turns_noteAsk_ch (k := k) true true a bs.length
  have ended : u.Fills (u.noteAsk u.cur (8 + k.toNat) true true a bs.length false) k u.me.spad _ := noted
  rw [wrote.spad, wrote.xc] at ended
  exact ⟨_, q, State.unitWr_ch tiles fails a arms some_, wrote.trans ended⟩

/-- A free channel writes some bytes at once. -/
theorem State.sideWrite_spad (free : s.XFree k) (a : Nat) {bs : List Byte} (some_ : bs ≠ []) : s.sideWrite k .spad a bs =
    .ok () ((s.upd fun c => { c with spad := c.spad.wrBytes a bs }).updX k fun h => h.wrote a bs.length) := by
  let u := s.upd fun c => { c with spad := c.spad.wrBytes a bs }
  have wrote := (s.turns_withCh_self k).updSpad fun m => m.wrBytes a bs
  have quiet : (u.xc k).eng.ask = none := (congrArg (fun h => h.eng.ask) wrote.xc).trans free.ask
  have noted : u.noteAsk s.cur (8 + k.toNat) true true a bs.length false = u := State.noteAsk_ch_of_none quiet ..
  simp [State.sideWrite, State.unitWr_ch free.tiles free.fails a (free.arms ..) some_, Try.bind, noted, u]

/-- Writes of some bytes each are made one after another into the scratchpad, and the watermark passes them (R196). -/
theorem sideWrites_spad (ws : List (Nat × List Byte)) (some_ : ∀ w, w ∈ ws → w.2 ≠ []) (j : Nat) {s : State} (free : s.XFree k) :
    ∃ t, sideWrites k .spad ws j s = .done t
      ∧ s.Fills t k (ws.foldl (fun m (w : Nat × List Byte) => m.wrBytes w.1 w.2) s.me.spad)
          ((s.xc k).filledBy (ws.map fun w => (w.1, w.2.length))) := by
  induction ws generalizing j s with
  | nil => exact ⟨s, rfl, by simpa using State.Fills.refl s k⟩
  | cons w ws ih =>
    obtain ⟨first, rest⟩ := List.forall_mem_cons.1 some_
    have fills := s.fills_wrote k (fun m => m.wrBytes w.1 w.2) w.1 w.2.length
    obtain ⟨t, run, more⟩ := ih rest (j + 1) (free.of_fills fills (Channel.eng_wrote ..))
    rw [fills.spad, fills.xc] at more
    refine ⟨t, by simpa only [sideWrites, State.sideWrite_spad free w.1 first] using run, ?_⟩
    rw [List.map_cons, Channel.filledBy_cons]
    exact fills.trans more

/-- Elements are combined one after another with those that stand in the scratchpad (R192). -/
theorem xredFrom_spad (t op sz : Nat) (dst : Int) (src : Nat → Nat) (n j : Nat) {s : State} (free : s.XFree k) :
    ∃ u, xredFrom k true t op sz dst ((List.range' j n).map src) j s = .done u
      ∧ s.Fills u k ((List.range' j n).foldl (fun m (i : Nat) => m.wrN (dst + i * sz).toNat sz
          (redElem t op (m.rdN (dst + i * sz).toNat sz) (src i))) s.me.spad)
          ((s.xc k).filledBy ((List.range' j n).map fun (i : Nat) => ((dst + i * sz).toNat, sz))) := by
  induction n generalizing j s with
  | zero => exact ⟨s, rfl, by simpa using State.Fills.refl s k⟩
  | succ n ih =>
    let a := (dst + j * sz).toNat
    have fills := s.fills_wrote k (fun m => m.wrN a sz (redElem t op (m.rdN a sz) (src j))) a sz
    obtain ⟨u, run, more⟩ := ih (j + 1) (free.of_fills fills (Channel.eng_wrote ..))
    rw [fills.spad, fills.xc] at more
    refine ⟨u, ?_, ?_⟩
    · rw [List.range'_succ, List.map_cons]
      simpa [xredFrom, State.unitRmw_ch free.tiles free.fails, free.arms, State.copyNote] using run
    · rw [List.range'_succ, List.map_cons, Channel.filledBy_cons, List.foldl_cons]
      exact fills.trans more

/-- The watermark does not ask what its channel's engine does. -/
theorem Channel.filledBy_withEng (h : Channel) (e : Engine) (fill : List (Nat × Nat)) :
    ({ h with eng := e } : Channel).filledBy fill = { h.filledBy fill with eng := e } := by
  have advance : ∀ h : Channel, ({ h with eng := e } : Channel).advance = { h.advance with eng := e } := fun h => by
    unfold Channel.advance
    dsimp only
    split <;> rfl
  induction fill generalizing h with
  | nil => simp
  | cons r fill ih =>
    have wrote : ({ h with eng := e } : Channel).wrote r.1 r.2 = { h.wrote r.1 r.2 with eng := e } := by
      unfold Channel.wrote
      dsimp only
      split
      · rfl
      · exact advance { h with filled := h.filled ++ [(r.1, r.2)] }
    rw [Channel.filledBy_cons, Channel.filledBy_cons, wrote, ih]

/-! ## The end of a copy (R189, R190) -/

/-- From `s` to `t` a copy of channel `k` has filled scratchpad ranges and has ended: the scratchpad is `m`. -/
def State.Copies (s t : State) (k : BitVec 3) (m : Memory) (fill : List (Nat × Nat)) : Prop :=
  s.Fills t k m { (s.xc k).filledBy fill with
    early := false, emitted := false, eng := { (s.xc k).eng with outs := none, parts := [] } }

/-- The writes of a copy are followed by its end. -/
theorem State.Fills.copies {fill : List (Nat × Nat)} (fills : s.Fills t k m ((s.xc k).filledBy fill))
    (none : (s.xc k).copyFail = none) : s.Copies (t.copyEnd k) k m fill := by
  have ended := Turns.copyEnd fills (by simpa using none)
  rw [Channel.eng_filledBy] at ended
  exact ended

/-- A copy-class word whose copy has ended is done. -/
theorem State.Copies.done {r : Res} {fill : List (Nat × Nat)} (copies : s.Copies t k m fill) (run : r = State.xdone k t) :
    ∃ u, r = .next u ∧ { u with cores := s.cores } = s ∧ u.me.spad = m ∧ XCopied s u k fill := by
  have done := (Turns.updX copies fun h => { h with copied := true }).unitDone_ch 0
  exact ⟨_, run, done.elsewhere.rest, by rw [done.me]; rfl, done.xc, done.xElse rfl rfl⟩

end

/-! ## Copies of rows (R189, R190) -/

section
variable {s : State} {k : BitVec 3}

/-- Runs inside the scratchpad pass their checks (R188). -/
theorem Side.fail_spad (c : Core) (m : Nat) {rs : List (Int × Nat)} (inside : ∀ r, r ∈ rs → 0 ≤ r.1 ∧ r.1 + r.2 ≤ 2 ^ 21) :
    (⟨.spad, rs⟩ : Side).fail c m = none := by
  have sound : rs.findSome? (fun r => (runFail c m .spad r).map fun x => (x, r.1)) = none := by
    rw [List.findSome?_eq_none_iff]
    intro r member
    have range := inside r member
    rw [runFail, if_neg (by omega)]
    rfl
  simp only [Side.fail, sound]
  cases rs <;> simp

/-- Rows of one length are read, and then written, one after another. -/
theorem State.xcopyRuns_rows (start : XStart s k) {n : Nat} (pos : 1 ≤ n) {ι : Type} (js : List ι) (x y : ι → Int)
    (inside : ∀ j, j ∈ js → (0 ≤ x j ∧ x j + n ≤ 2 ^ 21) ∧ 0 ≤ y j ∧ y j + n ≤ 2 ^ 21) (f : State → Res) :
    ∃ t, s.xcopyRuns k ⟨.spad, js.map fun j => (x j, n)⟩ ⟨.spad, js.map fun j => (y j, n)⟩ f = f t
      ∧ s.Copies t k (js.foldl (fun m j => m.wrBytes (y j).toNat (s.me.spad.rdBytes (x j).toNat n)) s.me.spad)
          (js.map fun j => ((y j).toNat, n)) := by
  have free := State.XFree.of_start start
  obtain ⟨⟨elem, outs, _⟩, unfailed⟩ := start.fresh
  have elem' : (s.eng (.ch k)).elem = 0 := elem
  have src := Side.fail_spad s.me s.cur (rs := js.map fun j => (x j, n)) (List.forall_mem_map.2 fun j hj => (inside j hj).1)
  have dst := Side.fail_spad s.me s.cur (rs := js.map fun j => (y j, n)) (List.forall_mem_map.2 fun j hj => (inside j hj).2)
  have rows : ((js.map fun j => (x j, n)).zip (js.map fun j => (y j, n))).flatMap (fun p =>
      segs false false 3 p.1.1.toNat p.2.1.toNat p.1.2) = js.map fun j => ((x j).toNat, (y j).toNat, n) := by
    rw [List.zip_map', List.flatMap_map]
    simp only [segs_spad pos]
    exact List.map_eq_flatMap.symm
  let ws := js.map fun j => ((y j).toNat, s.me.spad.rdBytes (x j).toNat n)
  obtain ⟨t, run, fills⟩ := sideWrites_spad ws (List.forall_mem_map.2 fun j _ =>
    List.ne_nil_of_length_pos (by rwa [Memory.length_rdBytes])) 0 free
  refine ⟨t.copyEnd k, ?_, ?_⟩
  · have glob : (XSpace.spad == XSpace.glob) = false := rfl
    have put : s.xput k .spad ((⟨.spad, js.map fun j => (x j, n)⟩ : Side).meets ⟨.spad, js.map fun j => (y j, n)⟩) ws none f
        = f (t.copyEnd k) := State.xput_of_done (elem' ▸ run)
    simp only [State.xcopyRuns, src, dst, glob, rows, elem', List.drop_zero, List.take_zero, State.xagain_of_none outs,
      readSegs_spad free, List.reverse_nil, List.nil_append, List.map_map, Function.comp_def, reduceCtorEq, if_false]
    exact put
  · have copies := fills.copies unfailed
    simpa only [ws, List.map_map, Function.comp_def, Memory.length_rdBytes, List.foldl_map] using copies

end

end Sys2Proof.Machine

/-! SUPPORT. The fills, gathers, reductions and sparsity entries of a transfer channel in the scratchpad (R192-R194), and the statement
about copy-class words there. -/

namespace Sys2Proof.Machine

section
variable {s : State} {k : BitVec 3}

/-- One run inside the scratchpad passes its check. -/
theorem Side.fail_run (c : Core) (m : Nat) {x : Int} {n : Nat} (inside : 0 ≤ x ∧ x + n ≤ 2 ^ 21) :
    (⟨.spad, [(x, n)]⟩ : Side).fail c m = none :=
  Side.fail_spad c m (List.forall_mem_singleton.2 inside)

/-! ## Fills (R194) -/

/-- A fill is one write of its pattern. -/
theorem State.xop_fill_spad (start : XStart s k) {x : XArgs} {l pat : Word} (f : State → Res) (dst : spaceOf x.dst = some .spad)
    (pos : 1 ≤ l.toNat) (most : l.toNat ≤ 4096) (inside : 0 ≤ x.dstA ∧ x.dstA + l.toNat ≤ 2 ^ 21) :
    ∃ t, s.xop k (.fill l pat) x f = f t ∧ s.Copies t k (s.me.spad.wrBytes x.dstA.toNat
      ((List.range l.toNat).map fun j => BitVec.ofNat 8 (fld pat (8 * (j % 8)) 8))) [(x.dstA.toNat, l.toNat)] := by
  obtain ⟨⟨elem, outs, _⟩, unfailed⟩ := start.fresh
  have elem' : (s.eng (.ch k)).elem = 0 := elem
  let bs := (List.range l.toNat).map fun j => BitVec.ofNat 8 (fld pat (8 * (j % 8)) 8)
  have length : bs.length = l.toNat := by simp [bs]
  obtain ⟨t, run, fills⟩ := sideWrites_spad [(x.dstA.toNat, bs)]
    (List.forall_mem_singleton.2 (List.ne_nil_of_length_pos (length ▸ pos))) 0 (.of_start start)
  refine ⟨t.copyEnd k, ?_, by simpa [length] using fills.copies unfailed⟩
  have put : s.xput k .spad false [(x.dstA.toNat, bs)] none f = f (t.copyEnd k) := State.xput_of_done (elem' ▸ run)
  have glob : (XSpace.spad == XSpace.glob) = false := rfl
  rw [State.xop_fill start.edges dst pos most (Side.fail_run _ _ inside), State.xagain_of_none outs, glob, segs_spad pos, elem']
  simpa only [List.map_cons, List.map_nil, List.drop_zero, List.take_of_length_le length.le, bs] using put

/-! ## Gathers (R193) -/

/-- A memory after elements of `l` bytes are written next to each other. -/
theorem Memory.rd_foldl_wrBytes_row (m : Memory) (y l : Nat) {b : Nat → List Byte} (length : ∀ j, (b j).length = l) (n o : Nat) :
    ((List.range n).foldl (fun m j => m.wrBytes (y + l * j) (b j)) m).rd o =
      if y ≤ o ∧ o < y + l * n then (b ((o - y) / l)).getD ((o - y) % l) 0 else m.rd o := by
  induction n with
  | zero => rw [if_neg (by omega)]; rfl
  | succ n ih =>
    rw [List.range_succ, List.foldl_append, List.foldl_cons, List.foldl_nil, Memory.rd_wrBytes, ih, length, Nat.mul_succ]
    by_cases last : y + l * n ≤ o ∧ o < y + l * n + l
    · have pos : 0 < l := by omega
      have split : o - y = l * n + (o - (y + l * n)) := by omega
      have inner : o - (y + l * n) < l := by omega
      rw [if_pos last, if_pos (by omega), split, Nat.mul_add_div pos, Nat.mul_add_mod, Nat.div_eq_of_lt inner,
        Nat.mod_eq_of_lt inner, Nat.add_zero]
    · rw [if_neg last]
      exact if_congr (by omega) rfl rfl

/-- Each of them reads as it was written. -/
theorem Memory.rdBytes_foldl_wrBytes_row (m : Memory) (y l : Nat) {b : Nat → List Byte} (length : ∀ j, (b j).length = l) {n j : Nat}
    (inside : j < n) : ((List.range n).foldl (fun m j => m.wrBytes (y + l * j) (b j)) m).rdBytes (y + l * j) l = b j := by
  have room : l * (j + 1) ≤ l * n := Nat.mul_le_mul_left l inside
  rw [Nat.mul_succ] at room
  refine List.ext_getElem (by simp [length]) fun i hi hb => ?_
  have small : i < l := by simpa using hi
  have offset : y + l * j + i - y = l * j + i := by omega
  simp only [Memory.rdBytes_eq, List.getElem_map, List.getElem_range]
  rw [Memory.rd_foldl_wrBytes_row m y l length, if_pos (by omega), offset, Nat.mul_add_div (by omega), Nat.mul_add_mod,
    Nat.div_eq_of_lt small, Nat.mod_eq_of_lt small, Nat.add_zero, List.getD_eq_getElem _ _ hb]

theorem toNat_add_natMul {y : Int} (nonneg : 0 ≤ y) (i z : Nat) : (y + (i : Int) * (z : Int)).toNat = y.toNat + i * z := by
  rw [← Nat.cast_mul]
  omega

/-- A gather reads its index list, then its elements, and writes them next to each other. -/
theorem State.xgather_spad (start : XStart s k) {x y : Int} {l n : Nat} (f : State → Res) (pos : 1 ≤ l) (some_ : 1 ≤ n)
    (list : 0 ≤ x ∧ x + (8 * n : Nat) ≤ 2 ^ 21) (inside : 0 ≤ y ∧ y + (l * n : Nat) ≤ 2 ^ 21)
    (sound : ∀ i, i < n → s.me.spad.rdN (x.toNat + 8 * i) 8 % l = 0 ∧ s.me.spad.rdN (x.toNat + 8 * i) 8 + l ≤ 2 ^ 21) :
    ∃ t fill, s.xgather k ⟨.spad, [(x, 8 * n)]⟩ ⟨.spad, [(y, l * n)]⟩ true l n y f = f t ∧ s.Copies t k
      ((List.range n).foldl (fun m j => m.wrBytes (y.toNat + l * j) (s.me.spad.rdBytes (s.me.spad.rdN (x.toNat + 8 * j) 8) l))
        s.me.spad) fill := by
  have free := State.XFree.of_start start
  obtain ⟨⟨elem, outs, parts, _⟩, unfailed⟩ := start.fresh
  have elem' : (s.eng (.ch k)).elem = 0 := elem
  have parts' : (s.eng (.ch k)).parts = [] := parts
  let ix := (List.range n).map fun i => s.me.spad.rdN (x.toNat + 8 * i) 8
  have indices : chunks 8 n (s.me.spad.rdBytes x.toNat (8 * n)) = ix := chunks_rdBytes ..
  let ws := (List.range n).map fun j => (y.toNat + l * j, s.me.spad.rdBytes (s.me.spad.rdN (x.toNat + 8 * j) 8) l)
  have places : ((ix.map fun i => s.me.spad.rdBytes i l).zipIdx.map fun b => ((y + ((0 + b.2 : Nat) : Int) * l).toNat, b.1)) = ws := by
    refine List.ext_getElem (by simp [ix, ws]) fun i _ _ => ?_
    simp [ix, ws, toNat_add_natMul inside.1, Nat.mul_comm]
  obtain ⟨t, run, fills⟩ := sideWrites_spad ws (List.forall_mem_map.2 fun j _ =>
    List.ne_nil_of_length_pos (by rwa [Memory.length_rdBytes])) 0 free
  have put : ∀ whole, s.xput k .spad whole ws none f = f (t.copyEnd k) := fun whole => State.xput_of_done (elem' ▸ run)
  refine ⟨t.copyEnd k, _, ?_, by simpa only [ws, List.foldl_map] using fills.copies unfailed⟩
  have glob : (XSpace.spad == XSpace.glob) = false := rfl
  have gathered := fun whole => gatherRead_spad free .spad whole l (y + 0 * l) ix [] [] (List.forall_mem_map.2 fun i hi =>
    sound i (List.mem_range.1 hi))
  simp only [State.xgather, Side.fail_run _ _ list, Side.fail_run _ _ inside, parts', List.isEmpty_nil, if_true, glob,
    List.headD_cons, segs_spad (Nat.mul_pos (by decide : 0 < 8) some_), readSegs_spad free, List.map_cons, List.map_nil,
    List.reverse_nil, List.nil_append, List.flatten_cons, List.flatten_nil, List.append_nil, indices, reduceCtorEq, if_false,
    State.xagain_of_none outs, elem', List.drop_zero, List.range_zero, gathered, Nat.cast_zero, places, put]

/-! ## Reductions (R192) -/

/-- The elements that a reduction has read are applied one after another. -/
theorem State.xredApply_spad (start : XStart s k) {n : Nat} {src : Nat → Nat} {u : State}
    (read : s.Fills u k s.me.spad { s.xc k with eng := { (s.xc k).eng with parts := (List.range n).map src } })
    {d : Side} (space : d.sp = .spad) (ty op z : Nat) {y : Int} (nonneg : 0 ≤ y) (f : State → Res) :
    ∃ t, u.xredApply k d ty op z n y f = f t
      ∧ s.Copies t k ((List.range n).foldl (fun m j => m.wrN (y.toNat + j * z) z
          (redElem ty op (m.rdN (y.toNat + j * z) z) (src j))) s.me.spad) ((List.range n).map fun j => (y.toNat + j * z, z)) := by
  obtain ⟨⟨elem, _⟩, unfailed⟩ := start.fresh
  have elem' : (u.eng (.ch k)).elem = 0 := (congrArg (fun h => h.eng.elem) read.xc).trans elem
  have parts' : (u.eng (.ch k)).parts = (List.range' 0 n).map src :=
    (congrArg (fun h => h.eng.parts) read.xc).trans (by rw [List.range_eq_range'])
  have free : u.XFree k := (XFree.of_start start).of_turns read rfl rfl rfl rfl rfl
  obtain ⟨v, run, fills⟩ := xredFrom_spad ty op z y src n 0 free
  rw [read.spad, read.xc, Channel.filledBy_withEng, ← List.range_eq_range'] at fills
  simp only [toNat_add_natMul nonneg] at fills
  refine ⟨v.copyEnd k, ?_, Turns.copyEnd (read.trans fills) (by simpa using unfailed)⟩
  simp [State.xredApply, elem', parts', space, run]

/-- A reduction reads its source, and applies its elements. -/
theorem State.xred_spad (start : XStart s k) (uc : s.me.uc = none) {x y : Int} {z n : Nat} (size : 1 ≤ z) (pos : 1 ≤ n)
    (source : 0 ≤ x ∧ x + (n * z : Nat) ≤ 2 ^ 21) (inside : 0 ≤ y ∧ y + (n * z : Nat) ≤ 2 ^ 21) (ty op : Nat) (f : State → Res) :
    ∃ t, s.xred k ⟨.spad, [(x, n * z)]⟩ ⟨.spad, [(y, n * z)]⟩ ty op z n x y f = f t
      ∧ s.Copies t k ((List.range n).foldl (fun m j => m.wrN (y.toNat + j * z) z
          (redElem ty op (m.rdN (y.toNat + j * z) z) (s.me.spad.rdN (x.toNat + j * z) z))) s.me.spad)
          ((List.range n).map fun j => (y.toNat + j * z, z)) := by
  have free := State.XFree.of_start start
  obtain ⟨⟨elem, _, parts, _⟩, _⟩ := start.fresh
  have elem' : (s.eng (.ch k)).elem = 0 := elem
  have parts' : (s.eng (.ch k)).parts = [] := parts
  have elems : chunks z (n * z / z) (s.me.spad.rdBytes x.toNat (n * z)) =
      (List.range n).map fun j => s.me.spad.rdN (x.toNat + j * z) z := by
    rw [Nat.mul_div_cancel _ size, Nat.mul_comm n z, chunks_rdBytes]
    simp only [Nat.mul_comm]
  have read := (s.turns_withCh_self k).updEng_ch fun e => { e with
    parts := e.parts ++ ((List.range n).map fun j => s.me.spad.rdN (x.toNat + j * z) z) }
  rw [parts, List.nil_append] at read
  obtain ⟨t, run, copies⟩ := State.xredApply_spad start read (d := ⟨.spad, [(y, n * z)]⟩) rfl ty op z inside.1 f
  refine ⟨t, run ▸ ?_, copies⟩
  have glob : (XSpace.spad == XSpace.glob) = false := rfl
  simp [State.xred, Side.fail_run _ _ source, Side.fail_run _ _ inside, State.xNotUc, uc, elem', parts', glob,
    segs_spad (Nat.mul_pos pos size), readSegs_spad free, elems]

/-! ## Sparsity entries (R194) -/

/-- XMETA appends the bytes of its source to the queue of an array. -/
theorem State.xmeta_spad (start : XStart s k) {x : Int} {l slot arr : Nat} (pos : 1 ≤ l) (inside : 0 ≤ x ∧ x + l ≤ 2 ^ 21)
    (held : s.me.slotArray s.cur slot = some arr) (room : (s.array arr).sparse.length < 32) (f : State → Res) :
    ∃ t, s.xmeta k ⟨.spad, [(x, l)]⟩ slot f = f t
      ∧ (s.setArray arr { s.array arr with sparse := (s.array arr).sparse ++ [s.me.spad.rdBytes x.toNat l] }).Copies t k
          s.me.spad [] := by
  have free := State.XFree.of_start start
  obtain ⟨_, unfailed⟩ := start.fresh
  let u := s.setArray arr { s.array arr with sparse := (s.array arr).sparse ++ [s.me.spad.rdBytes x.toNat l] }
  have fills : u.Fills u k u.me.spad ((u.xc k).filledBy []) := by simpa using State.Fills.refl u k
  refine ⟨u.copyEnd k, ?_, fills.copies unfailed⟩
  have glob : (XSpace.spad == XSpace.glob) = false := rfl
  simp [State.xmeta, held, Side.fail_run _ _ inside, not_le.2 room, glob, segs_spad pos, readSegs_spad free, u]

end

/-- Settles O29: each word is its reads of the scratchpad as it stood, its writes one after another, and the end of the copy. -/
theorem scratchpadCopySteps : Obligations.ScratchpadCopySteps := by
  unfold Obligations.ScratchpadCopySteps
  intro s ch a b k h l x y fits same row start src dst
  have word : ∀ o, s.xcopyWord ch o = s.xop k o h.xargs (State.xdone k) := State.xcopyWord_of_first start.first
  have src' : spaceOf h.xargs.src = some .spad := src
  have dst' : spaceOf h.xargs.dst = some .spad := dst
  refine ⟨fun pos most fitsX fitsY => ?_, ?_, fun pos most fitsY => ?_, ?_, ?_, fun arr size named held fitsX room => ?_⟩
  · obtain ⟨t, run, copies⟩ := State.xcopyRuns_rows start pos [()] (fun _ => x) (fun _ => y)
      (List.forall_mem_singleton.2 ⟨fitsX, fitsY⟩) (State.xdone k)
    refine copies.done ?_
    rw [exec_xcopy_eq, word, State.xop_copy start.edges src' dst' pos most]
    exact run
  · intro r pos some_ rows most inside ys
    obtain ⟨t, run, copies⟩ := State.xcopyRuns_rows start pos (List.range r) (row x 0) (row y 1)
      (fun j hj => inside j (List.mem_range.1 hj)) (State.xdone k)
    refine copies.done ?_
    rw [exec_xtile_eq, word, State.xop_tile start.edges src' dst' pos ⟨some_, rows⟩ most]
    exact run
  · obtain ⟨t, run, copies⟩ := State.xop_fill_spad start (State.xdone k) dst' pos most fitsY
    exact copies.done (run ▸ word _)
  · intro m n ix size some_ most sp rest aligned fitsX fitsY sound
    have pos : 1 ≤ l := by omega
    obtain ⟨t, fill, run, copies⟩ := State.xgather_spad start (State.xdone k) pos some_ fitsX fitsY fun i hi =>
      sound _ (List.mem_map_of_mem (List.mem_range.2 hi))
    have given : exec (.xgather ch a b) s = State.xdone k t := by
      rw [exec_xgather_eq, word, State.xop_gather start.edges src' dst' size some_ most rest aligned, sp]
      exact run
    obtain ⟨u, next, rest, spad, chan, others⟩ := copies.done given
    refine ⟨u, next, rest, fun j hj => ?_, fun o outside => ?_, congrArg Channel.eng chan, congrArg Channel.copied chan, others⟩
    · have index : ix.getD j 0 = s.me.spad.rdN (x.toNat + 8 * j) 8 := by simp [ix, List.getD, hj]
      rw [spad, index]
      exact Memory.rdBytes_foldl_wrBytes_row _ _ l (fun _ => Memory.length_rdBytes ..) hj
    · rw [spad, Memory.rd_foldl_wrBytes_row _ _ l fun _ => Memory.length_rdBytes .., if_neg (by omega)]
  · intro op ty z type five kind rest pos most whole alignS alignD fitsX fitsY uc
    have parts : l / z * z = l := Nat.div_mul_cancel (Nat.dvd_of_mod_eq_zero whole)
    have size : 1 ≤ z := Nat.pos_of_ne_zero fun zero => by rw [zero, Nat.mul_zero] at parts; omega
    obtain ⟨t, run, copies⟩ := State.xred_spad start uc size (n := l / z) (Nat.pos_of_ne_zero fun zero => by
      rw [zero, Nat.zero_mul] at parts; omega) (parts.symm ▸ fitsX) (parts.symm ▸ fitsY) ty (fld op 6 2) (State.xdone k)
    refine copies.done ?_
    rw [exec_xred_eq, word, State.xop_red start.edges src' dst' type five kind rest pos most whole nofun alignS alignD]
    rw [parts] at run
    exact run
  · have pos : 1 ≤ l := by omega
    obtain ⟨t, run, copies⟩ := State.xmeta_spad start pos fitsX held room (State.xdone k)
    have given : exec (.xmeta ch a b) s = State.xdone k t := by
      rw [exec_xmeta_eq, word, State.xop_sparse start.edges src' size named]
      exact run
    let v := s.setArray arr { s.array arr with sparse := (s.array arr).sparse ++ [s.me.spad.rdBytes x.toNat l] }
    obtain ⟨u, next, rest, _, copied⟩ := copies.done given
    have array : ∀ j, u.array j = v.array j := fun j => (congrArg (fun w => State.array w j) rest :)
    refine ⟨u, next, (array arr).trans (State.array_setArray_same ..), fun j other =>
      (array j).trans (State.array_setArray_ne _ _ other), ?_, copied⟩
    exact congrArg (fun w => { w with arrays := s.arrays }) rest

end Sys2Proof.Machine

/-! SUPPORT. The control steps of a transfer channel (R195, R202, R203): signals, byte posts to a stage barrier, circular origins, footprints,
the start of a walk over cards and the nest, and the statement about them. -/

namespace Sys2Proof.Machine

theorem exec_xsig_eq (ch : BitVec 3) (a b : Src) (sc : Scope) (s : State) : exec (.xsig ch a b sc) s = execXsig ch a b sc s := rfl
theorem exec_xbar_eq (ch : BitVec 3) (a b : Src) (sc : Scope) (s : State) : exec (.xbar ch a b sc) s = execXbar ch a b sc s := rfl
theorem exec_xwrap_eq (ch : BitVec 3) (a b : Src) (s : State) : exec (.xwrap ch a b) s = execXwrap ch a b s := rfl
theorem exec_xrcnt_eq (ch : BitVec 3) (a : Src) (s : State) : exec (.xrcnt ch a) s = execXrcnt ch a s := rfl
theorem exec_xfoot_eq (ch : BitVec 3) (a b : Src) (s : State) : exec (.xfoot ch a b) s = execXfoot ch a b s := rfl
theorem exec_xjob_eq (ch : BitVec 3) (a : Src) (s : State) : exec (.xjob ch a) s = execXjob ch a s := rfl
theorem exec_xchain_eq (ch : BitVec 3) (a b : Src) (sc : Scope) (s : State) :
    exec (.xchain ch a b sc) s = execXchain ch a b sc s := rfl
theorem exec_xrun_eq (ch : BitVec 3) (e : BitVec 12) (s : State) : exec (.xrun ch e) s = execXrun ch e s := rfl
theorem exec_xend_eq (s : State) : exec .xend s = execXend s := rfl

/-! ## Steps that change their channel alone -/

section
variable {s : State} {k : BitVec 3}

/-- The channel has taken `f`, and its step is done. -/
def State.stepCh (s : State) (k : BitVec 3) (f : Channel → Channel) : State := (s.updX k f).unitDone (.ch k)

theorem State.turns_stepCh (s : State) (k : BitVec 3) {f : Channel → Channel} (eng : ∀ h, (f h).eng = h.eng) :
    s.Turns (s.stepCh k f) (s.me.withCh k.toNat { f (s.xc k) with eng := (s.xc k).eng.stepped 0 }) := by
  have done := ((s.turns_withCh_self k).updX f).unitDone_ch 0
  rw [eng] at done
  exact done

/-- A step that has changed a channel alone. -/
theorem State.stepCh_spec (s : State) (k : BitVec 3) {f : Channel → Channel} (eng : ∀ h, (f h).eng = h.eng) :
    (s.stepCh k f).xc k = { f (s.xc k) with eng := (s.xc k).eng.stepped 0 } ∧ { s.stepCh k f with cores := s.cores } = s
      ∧ XElse s (s.stepCh k f) k id := by
  have turn := s.turns_stepCh k eng
  exact ⟨turn.xc, turn.elsewhere.rest, turn.xElse rfl rfl⟩

/-- A step that is done at once. -/
theorem State.unitDone_ch_spec (s : State) (k : BitVec 3) :
    (s.unitDone (.ch k)).xc k = { s.xc k with eng := (s.xc k).eng.stepped 0 } ∧ { s.unitDone (.ch k) with cores := s.cores } = s
      ∧ XElse s (s.unitDone (.ch k)) k id := by
  have turn := (s.turns_withCh_self k).unitDone_ch 0
  exact ⟨turn.xc, turn.elsewhere.rest, turn.xElse rfl rfl⟩

end

/-! ## Signals (R195, Table 9-6) -/

/-- The bit of FAIL in a signal's value. -/
theorem lor_two_pow_63 {v : Nat} (small : v < 2 ^ 64) : Nat.lor v (2 ^ 63) = v % 2 ^ 63 + 2 ^ 63 := by
  have low : v % 2 ^ 63 < 2 ^ 63 := Nat.mod_lt _ (by decide)
  have high := Nat.two_pow_add_eq_or_of_lt low 1
  rw [Nat.mul_one] at high
  rw [show Nat.lor v (2 ^ 63) = v ||| 2 ^ 63 from rfl, Nat.add_comm, high]
  rcases Nat.lt_or_ge v (2 ^ 63) with below | above
  · rw [Nat.mod_eq_of_lt below, Nat.or_comm]
  · have whole : v = 2 ^ 63 + v % 2 ^ 63 := by omega
    rw [high] at whole
    conv_lhs => rw [whole]
    rw [Nat.or_comm, ← Nat.or_assoc, Nat.or_self]

section
variable {s : State} {ch : BitVec 3} {a b : Src} {sc : Scope}

/-- A signal that nothing stands in the way of. -/
theorem execXsig_own {o : Nat} (sp : fld (s.xv ch a) 63 1 = 1) (off : o = fld (s.xv ch a) 0 21) (rest : fld (s.xv ch a) 21 42 = 0)
    (aligned : o % 8 = 0) (edge : s.me.edgeHeld (s.xch ch).toNat = false) (written : s.me.writtenAt sc = true)
    (fails : (s.xc (s.xch ch)).eng.fails = []) (tiles : s.me.tiles = [])
    (arms : s.me.guarded (8 + (s.xch ch).toNat) o 8 = false) : ∃ t, execXsig ch a b sc s = .next t
      ∧ s.Fills t (s.xch ch)
          (s.me.spad.wrN o 8 ((s.xc (s.xch ch)).withFail ((s.xv ch b).toNat + (s.xc (s.xch ch)).lin)))
          { s.xc (s.xch ch) with fail := false, eng := (s.xc (s.xch ch)).eng.stepped 0 } := by
  have inside : o < 2 ^ 21 := off ▸ Nat.mod_lt _ (by decide)
  have word : wordAddr (s.xv ch a) 8 = (true, o, none) := by
    simp [wordAddr, sp, ← off, rest, addrFault_aligned_spad aligned (by omega)]
  let bs := le8 ((s.xc (s.xch ch)).withFail ((s.xv ch b).toNat + (s.xc (s.xch ch)).lin))
  have length : bs.length = 8 := length_leBytes ..
  obtain ⟨t, q, run, fills⟩ := State.unitWr_fills (bs := bs) tiles fails o (length ▸ arms)
    (List.ne_nil_of_length_pos (by rw [length]; decide))
  refine ⟨_, ?_, (State.Turns.updX fills fun h => { h with fail := false }).unitDone_ch 0⟩
  simp [execXsig, word, edge, State.signal, written, run, State.xRecord, bs]

end

/-! ## Byte posts to a stage barrier (R144, R195) -/

section
variable {s t : State} {n obs va : Nat} {wr : Bool}

@[simp] theorem State.prefetch_cur (s : State) (n obs : Nat) (e : TlbEnt) : (s.prefetch n obs e).cur = s.cur := by
  unfold State.prefetch
  generalize (if e.down then e.va - 1 else e.va + 2 ^ e.lg) = next
  dsimp only
  split
  · rfl
  · split <;> rfl

/-- A translation leaves the state at the core whose word is executed. -/
theorem State.xlate_cur {pa : Nat} {r : Scope} (found : s.xlate n obs va wr = .ok (pa, r, t)) : t.cur = s.cur := by
  have walked : ∀ {x}, s.xlateWalk n obs va wr = .ok x → x.2.2.cur = s.cur := fun {x} found => by
    unfold State.xlateWalk at found
    dsimp only at found
    split at found
    · cases found
    · split at found
      · cases found
      · cases found
        exact State.prefetch_cur ..
  unfold State.xlate at found
  dsimp only at found
  split at found
  · split at found
    · cases found
      exact State.prefetch_cur ..
    · exact walked found
  · exact walked found

/-- So does finding a block. -/
theorem State.blockAt_cur {p : Nat × Nat} (found : s.blockAt n va wr obs = .ok p t) : t.cur = s.cur := by
  unfold State.blockAt State.tr at found
  cases walk : s.xlate n obs va wr with
  | error e => simp [walk, Try.bind] at found
  | ok x =>
    obtain ⟨pa, r, u⟩ := x
    simp only [walk, Try.bind] at found
    split at found <;> (cases found; exact State.xlate_cur walk)

section
variable (s : State) (m x pa dom : Nat) (op : HomeOp)

/-- A request on its way to a home leaves the page tables (R314). -/
theorem State.walkFrom_toHome (va : Nat) (l : List Nat) (tbl lvl : Nat) :
    (s.toHome m x pa dom op).walkFrom va l tbl lvl = s.walkFrom va l tbl lvl := by
  induction l generalizing tbl lvl with
  | nil => rfl
  | cons lo l ih =>
    have table : ∀ ea, (s.toHome m x pa dom op).tableNat ea = s.tableNat ea := fun _ => rfl
    simp only [State.walkFrom, table, ih]

theorem State.walk_toHome (region va : Nat) : (s.toHome m x pa dom op).walk region va = s.walk region va := by
  have found : (s.toHome m x pa dom op).region? region = s.region? region := rfl
  have root : ∀ r, (s.toHome m x pa dom op).rPtroot r = s.rPtroot r := fun _ => rfl
  simp only [State.walk, found, root, State.walkFrom_toHome]

/-- An address translates as before. -/
theorem State.xlate_toHome_fst (n obs va : Nat) (wr : Bool) :
    ((s.toHome m x pa dom op).xlate n obs va wr).map (·.1) = (s.xlate n obs va wr).map (·.1) := by
  have core : (s.toHome m x pa dom op).core n = s.core n := rfl
  have walked : ((s.toHome m x pa dom op).xlateWalk n obs va wr).map (·.1) = (s.xlateWalk n obs va wr).map (·.1) := by
    simp only [State.xlateWalk, core, State.walk_toHome]
    split
    · rfl
    · split <;> rfl
  simp only [State.xlate, core]
  split
  · split
    · rfl
    · exact walked
  · exact walked

theorem State.heldAt_toHome (n obs va len : Nat) :
    (s.toHome m x pa dom op).heldAt n obs false va len = s.heldAt n obs false va len := by
  simp only [State.heldAt, Bool.false_eq_true, if_false]
  refine List.any_congr rfl fun p => ?_
  have held : ∀ r : Except WalkErr (Nat × Scope × State), (match r with
      | .ok y => s.routePa n y.1 == .hold
      | .error _ => false) = (r.map (·.1)).toOption.any fun q => s.routePa n q == .hold := fun r => by cases r <;> rfl
  have same := congrArg (fun r => r.toOption.any fun q => s.routePa n q == .hold) (s.xlate_toHome_fst m x pa dom op n obs p.1 false)
  exact (held _).trans (same.trans (held _).symm)

end

/-- A request of a channel stands out from now on, unless it does already or is held at its source (R321). -/
theorem State.turns_noteAsk_waits (s : State) (k : BitVec 3) (sp wr : Bool) (a len : Nat) : ∃ q,
    s.Turns (s.noteAsk s.cur (8 + k.toNat) sp wr a len true)
      (s.me.withCh k.toNat { s.xc k with eng := { (s.xc k).eng with ask := q } })
    ∧ (s.heldAt s.cur (8 + k.toNat) sp a len = false → (s.xc k).eng.ask = none →
        q = some { sp := sp, addr := a, len := len, wr := wr, at_ := s.frameClk, lim := s.dev.rsplim.toNat }) := by
  have self := s.turns_withCh_self k
  simp only [State.noteAsk, unitOfObs_ch, Bool.not_true, Bool.false_eq_true, if_false]
  split
  · next already =>
    refine ⟨_, self, fun free none => ?_⟩
    have asks : ((s.core s.cur).eng (.ch k)).ask = Option.none := none
    simp [Engine.asking, asks, free] at already
  · exact ⟨_, self.updEng_ch fun _ => _, fun _ _ => rfl⟩

/-- An engine that has come to its first segment. -/
theorem Engine.goOn_one (e : Engine) (clk : Nat) : ∃ r, e.goOn 1 clk = { e with elem := 1, ready := r } := by
  unfold Engine.goOn
  split
  · next at_ => exact ⟨e.ready, by rw [← at_]⟩
  · exact ⟨_, rfl⟩

/-- A byte post goes to its home, and its channel waits for it. -/
def State.posted (u : State) (k : BitVec 3) (va pa dom n : Nat) : State :=
  ((u.toHome u.cur va pa dom (.bytes k.toNat n)).noteAsk u.cur (8 + k.toNat) false true va 32 true).atSeg k 1

theorem State.turns_posted (u : State) (k : BitVec 3) (va pa dom n : Nat) : ∃ r q,
    (u.toHome u.cur va pa dom (.bytes k.toNat n)).Turns (u.posted k va pa dom n)
      (u.me.withCh k.toNat { u.xc k with eng := { (u.xc k).eng with elem := 1, ready := r, ask := q } })
    ∧ (u.heldAt u.cur (8 + k.toNat) false va 32 = false → (u.xc k).eng.ask = none →
        q = some { sp := false, addr := va, len := 32, wr := true, at_ := u.frameClk, lim := u.dev.rsplim.toNat }) := by
  let v := u.toHome u.cur va pa dom (.bytes k.toNat n)
  obtain ⟨q, noted, asks⟩ := v.turns_noteAsk_waits k false true va 32
  have held : v.heldAt v.cur (8 + k.toNat) false va 32 = u.heldAt u.cur (8 + k.toNat) false va 32 := State.heldAt_toHome ..
  let w := v.noteAsk v.cur (8 + k.toNat) false true va 32 true
  obtain ⟨r, went⟩ := ({ (u.xc k).eng with ask := q } : Engine).goOn_one w.me.sched
  have turn := noted.updEng_ch fun e => e.goOn 1 w.me.sched
  exact ⟨r, q, went ▸ turn, fun free none => asks (held.trans free) none⟩

section
variable {s : State} {ch : BitVec 3} {a b : Src} {sc : Scope} (uc : s.me.uc = none) (aligned : (s.xv ch a).toNat % 32 = 0)
  (range : (s.xv ch a).toNat + 32 ≤ 2 ^ 56)
include uc aligned range

theorem execXbar_zero (start : (s.eng (.ch (s.xch ch))).elem ≠ 1) (zero : s.xv ch b = 0) :
    execXbar ch a b sc s = .next (s.unitDone (.ch (s.xch ch))) := by
  simp [execXbar, State.xNotUc, uc, addrFault_aligned_global aligned range, start, zero]

/-- A byte post that has been applied is over. -/
theorem execXbar_applied (sent : (s.eng (.ch (s.xch ch))).elem = 1) (fails : (s.eng (.ch (s.xch ch))).fails = [])
    (over_ : ∀ p n, p ∈ s.cp.posts → p.op = .bytes (s.xch ch).toNat n → p.core ≠ s.cur) :
    execXbar ch a b sc s = .next (s.unitDone (.ch (s.xch ch))) := by
  have none : (s.cp.posts.any fun p => p.from_ s.cur (s.xch ch)) = false := by
    rw [List.any_eq_false]
    intro p member mine
    simp only [BarPost.from_, Bool.and_eq_true, beq_iff_eq] at mine
    obtain ⟨⟨core, bytes⟩, channel⟩ := mine
    cases op : p.op with
    | bytes c n => exact over_ p n member (by rw [op, ← channel, op]; rfl) core
    | arrive _ | wait _ | fill _ | get => simp [op, HomeOp.byteCount] at bytes
  simp [execXbar, State.xNotUc, uc, addrFault_aligned_global aligned range, sent, Engine.failOf, fails, none]

/-- A byte post whose block can be reached is sent. -/
theorem execXbar_sent (start : (s.eng (.ch (s.xch ch))).elem ≠ 1) (some_ : s.xv ch b ≠ 0)
    (edge : s.me.edgeHeld (s.xch ch).toNat = false) (written : s.me.writtenAt sc = true) {pa dom : Nat} {u : State}
    (block : s.blockAt s.cur (s.xv ch a).toNat true (8 + (s.xch ch).toNat) = .ok (pa, dom) u)
    (notHeld : u.routePa u.cur pa ≠ .hold) (routed : u.routePa u.cur pa ≠ .none) (sound : u.isPoisoned pa 32 = false) :
    execXbar ch a b sc s = .next (u.posted (s.xch ch) (s.xv ch a).toNat pa dom (s.xv ch b).toNat) := by
  have count : (s.xv ch b).toNat ≠ 0 := fun zero => some_ (BitVec.eq_of_toNat_eq zero)
  simp only [execXbar, State.xNotUc, uc, addrFault_aligned_global aligned range, start, count, edge, written, block, sound,
    if_false, Bool.not_true, Bool.or_false, Bool.false_eq_true]
  cases route : u.routePa u.cur pa with
  | hold => exact absurd route notHeld
  | none => exact absurd route routed
  | here | go => rfl

end

end

end Sys2Proof.Machine

/-! SUPPORT. The circular origins of a channel (R188), the start of a walk over cards (R202), the nest of a micro-program (R25, R203),
and the statement about the control steps. -/

namespace Sys2Proof.Machine

/-! ## Fields of a word -/

section
variable {lo n : Nat} (w : Word) (v : Nat)

/-- A field of a word, bit by bit. -/
theorem testBit_fld (lo n k : Nat) : (fld w lo n).testBit k = (decide (k < n) && w.getLsbD (k + lo)) := by
  rw [fld, testBit_bitsOf, BitVec.getLsbD]

theorem getLsbD_setFld {k : Nat} (is : k < 64) : (setFld w lo n v).getLsbD k =
    if k < lo then w.getLsbD k else if k < lo + n then (v % 2 ^ n).testBit (k - lo) else w.getLsbD k := by
  rw [setFld, getLsbD_w64 _ _ is, testBit_replace_field _ _ _ _ _ (Nat.mod_lt _ (Nat.two_pow_pos _))]
  rfl

theorem fld_setFld_same (inside : lo + n ≤ 64) : fld (setFld w lo n v) lo n = v % 2 ^ n := by
  refine Nat.eq_of_testBit_eq fun k => ?_
  rw [testBit_fld]
  by_cases in_ : k < n
  · rw [getLsbD_setFld _ _ (by omega), if_neg (by omega), if_pos (by omega), decide_eq_true in_, Bool.true_and,
      Nat.add_sub_cancel]
  · simp [in_]

/-- The other fields stay. -/
theorem fld_setFld_disjoint {lo' n' : Nat} (inside : lo' + n' ≤ 64) (apart : lo' + n' ≤ lo ∨ lo + n ≤ lo') :
    fld (setFld w lo n v) lo' n' = fld w lo' n' := by
  refine Nat.eq_of_testBit_eq fun k => ?_
  rw [testBit_fld, testBit_fld]
  by_cases in_ : k < n'
  · rw [getLsbD_setFld _ _ (by omega)]
    rcases apart with below | above
    · rw [if_pos (by omega)]
    · rw [if_neg (by omega), if_neg (by omega)]
  · simp [in_]

end

/-! ## Circular origins (R188, R195) -/

/-- The coordinate of level `l` after a move by `d`, modulo the extent that the loop register gives. -/
def Channel.wrapped (h : Channel) (l : Nat) (d : Int) : Nat :=
  (((fld h.org (10 * l) 10 : Int) + d) % (fld (vget h.active.loops 0 l) 18 10 + 1)).toNat

/-- A coordinate fits its field. -/
theorem Channel.wrapped_lt (h : Channel) (l : Nat) (d : Int) : h.wrapped l d < 2 ^ 10 := by
  have extent : fld (vget h.active.loops 0 l) 18 10 < 2 ^ 10 := Nat.mod_lt _ (by decide)
  have small := Int.emod_lt_of_pos ((fld h.org (10 * l) 10 : Int) + d)
    (show (0 : Int) < fld (vget h.active.loops 0 l) 18 10 + 1 by omega)
  unfold Channel.wrapped
  omega

section
variable {s : State} {ch : BitVec 3} {a b : Src}

theorem execXwrap_circular (level : (s.xv ch a).toNat ≤ 5)
    (circular : fld (vget (s.xc (s.xch ch)).active.loops 0 (s.xv ch a).toNat) 16 2 ≠ 0) :
    execXwrap ch a b s = .next (s.stepCh (s.xch ch) fun h =>
      { h with org := setFld h.org (10 * (s.xv ch a).toNat) 10
                        ((s.xc (s.xch ch)).wrapped (s.xv ch a).toNat (s.xv ch b).toInt) }) :=
  if_neg (not_or.2 ⟨not_lt.2 level, circular⟩)

/-! ## The read count and footprints (R191, R197) -/

theorem execXrcnt_inRange (small : (s.xv ch a).toNat ≤ 31) :
    execXrcnt ch a s = .next (s.stepCh (s.xch ch) fun h => { h with rcnt := (s.xv ch a).setWidth 5 }) := by
  have count : BitVec.ofNat 5 (s.xv ch a).toNat = (s.xv ch a).setWidth 5 := rfl
  rw [← count]
  exact if_neg (not_lt.2 small)

theorem execXfoot_room {f : Foot} (room : (s.xc (s.xch ch)).foots.length < 2) (foot : footOf (s.xv ch a) (s.xv ch b) = some f) :
    execXfoot ch a b s = .next (s.stepCh (s.xch ch) fun h => { h with foots := h.foots ++ [f] }) := by
  simp only [execXfoot, if_neg (not_le.2 room), foot]
  rfl

end

/-! ## The start of a walk (R197, R202) -/

/-- An entry's place in the tracker: before the entries of its cycle that are of higher channels. -/
theorem insTracked_eq (t : Tracked) (l : List Tracked) :
    insTracked t l = (l.takeWhile fun x => !(x.at_ == t.at_ && decide (t.ch < x.ch)))
      ++ t :: l.dropWhile fun x => !(x.at_ == t.at_ && decide (t.ch < x.ch)) := by
  induction l with
  | nil => rfl
  | cons x l ih =>
    by_cases here : x.at_ = t.at_ ∧ t.ch < x.ch
    · simp [insTracked, here]
    · have before : (!(x.at_ == t.at_ && decide (t.ch < x.ch))) = true := by simpa [-not_and, not_and_or] using here
      rw [insTracked, if_neg here, ih, List.takeWhile_cons, List.dropWhile_cons, if_pos before, if_pos before, List.cons_append]

/-- The walk that starts at a card. -/
def ChainSt.start (card : Nat) (q : Word) (sc : Scope) (chain : Bool) : ChainSt :=
  ⟨card, .read, q, sc, chain, 0, 0, []⟩

section
variable {s : State} {ch : BitVec 3} {a b : Src} {sc : Scope}

theorem State.turns_startChain (s : State) (k : BitVec 3) (card : Nat) (q : Word) (sc : Scope) (chain : Bool) :
    s.Turns (s.startChain k card q sc chain) (s.me.withCh k.toNat
      { s.xc k with chain := some (.start card q sc chain), doneCnt := if chain then 0 else (s.xc k).doneCnt, copied := true }) :=
  (s.turns_withCh_self k).updX _

variable (uc : s.me.uc = none) (aligned : (s.xv ch a).toNat % 128 = 0) (range : (s.xv ch a).toNat + 128 ≤ 2 ^ 56)
  (foots : (s.xc (s.xch ch)).foots = [])
include uc aligned range foots

theorem execXjob_starts (first : ¬ ((s.xc (s.xch ch)).copied = true ∧ (s.eng (.ch (s.xch ch))).inProg = true)) :
    execXjob ch a s = .next (if s.me.tracker.length < 32
      then (s.startChain (s.xch ch) (s.xv ch a).toNat 0 .pod false).upd fun c => c.register (s.xch ch).toNat [] true
      else s.startChain (s.xch ch) (s.xv ch a).toNat 0 .pod false) := by
  have tracker : (s.startChain (s.xch ch) (s.xv ch a).toNat 0 .pod false).me.tracker = s.me.tracker := by
    rw [(s.turns_startChain ..).me]; rfl
  simp only [execXjob, State.xNotUc, uc, first, foots, addrFault_aligned_global aligned range, if_false, List.isEmpty_nil,
    Bool.not_true, Bool.false_eq_true, tracker]

theorem execXchain_starts (outside : (s.eng (.ch (s.xch ch))).inProg = false)
    (seq : s.xv ch b = 0 ∨ (wordAddr (s.xv ch b) 8).2.2 = none) :
    execXchain ch a b sc s = .next (s.startChain (s.xch ch) (s.xv ch a).toNat (s.xv ch b) sc true) := by
  have word : (if s.xv ch b = 0 then none else (wordAddr (s.xv ch b) 8).2.2) = none := by
    split
    · rfl
    · next given => exact seq.resolve_left given
  simp only [execXchain, State.xNotUc, uc, outside, foots, addrFault_aligned_global aligned range, word, if_false,
    List.isEmpty_nil, Bool.not_true, Bool.false_eq_true, or_self]

end

/-! ## The nest of a micro-program (R25, R203) -/

section
variable (s : State) (k : BitVec 3)

/-- A channel starts a body. -/
def Engine.atBody (e : Engine) (entry : Nat) (idx : Vector Nat 6) : Engine :=
  { e with upc := entry, idx := idx, due := none, elem := 0 }

/-- A channel that starts a body has run no copy of it. -/
theorem State.turns_enterProg (entry : Nat) :
    s.Turns ((s.updX k fun h => { h with copied := false }).enterProg (.ch k) entry)
      (s.me.withCh k.toNat { s.xc k with copied := false, eng := (s.xc k).eng.atBody entry (Vector.replicate 6 0) }) :=
  ((s.turns_withCh_self k).updX fun h => { h with copied := false }).updEng_ch fun e => e.atBody entry (Vector.replicate 6 0)

variable {s k} {t : State} {c : Core} {h : Channel} {loops : Vector Word 6} (turn : s.Turns t (c.withCh k.toNat h))
include turn

theorem State.Turns.endBody_last (last : nextIdx (loops.toList.map tripOf) h.eng.idx.toList = none) :
    s.Turns (t.endBody (.ch k) loops) (c.withCh k.toNat { h with eng := h.eng.finish 0 }) := by
  have same : t.eng (.ch k) = h.eng := congrArg Channel.eng turn.xc
  simp only [State.endBody, same, last]
  exact turn.updEng_ch fun e => e.finish 0

theorem State.Turns.endBody_next {x : Entry} {l : List Nat} (taken : h.eng.cur = some x)
    (next : nextIdx (loops.toList.map tripOf) h.eng.idx.toList = some l) :
    s.Turns (t.endBody (.ch k) loops) (c.withCh k.toNat
      { h with eng := h.eng.atBody (bitsOf x.word 0 12) (Vector.ofFn fun j : Fin 6 => l.getD j.val 0) }) := by
  have same : t.eng (.ch k) = h.eng := congrArg Channel.eng turn.xc
  simp only [State.endBody, same, taken, next]
  exact turn.updEng_ch fun e => e.atBody (bitsOf x.word 0 12) (Vector.ofFn fun j : Fin 6 => l.getD j.val 0)

end

/-! ## The statement -/

section
variable {s : State} {k : BitVec 3}

/-- A walk that has started. -/
theorem State.startChain_spec (s : State) (k : BitVec 3) (card : Nat) (q : Word) (sc : Scope) (chain : Bool) :
    let t := s.startChain k card q sc chain
    (t.xc k = { s.xc k with chain := some (.start card q sc chain), doneCnt := if chain then 0 else (s.xc k).doneCnt
                            copied := true }
      ∧ { t with cores := s.cores } = s ∧ XElse s t k fun c => { c with tracker := s.me.tracker })
      ∧ t.me.tracker = s.me.tracker := by
  have turn := s.turns_startChain k card q sc chain
  refine ⟨⟨turn.xc, turn.elsewhere.rest, turn.xElse rfl rfl⟩, ?_⟩
  rw [turn.me]
  rfl

/-- A single card that has started, with its place in the tracker. -/
theorem State.startChain_register_spec (s : State) (k : BitVec 3) (card : Nat) (q : Word) (sc : Scope) :
    let t := (s.startChain k card q sc false).upd fun c => c.register k.toNat [] true
    (t.xc k = { s.xc k with chain := some (.start card q sc false), copied := true }
      ∧ { t with cores := s.cores } = s ∧ XElse s t k fun c => { c with tracker := s.me.tracker })
      ∧ t.me.tracker = insTracked { ch := k.toNat, foots := [], unread := true, at_ := s.me.sched } s.me.tracker := by
  have start := s.turns_startChain k card q sc false
  have next := State.Turns.upd (s.startChain k card q sc false) fun c => c.register k.toNat [] true
  rw [start.me] at next
  have turn : s.Turns _ ((s.me.register k.toNat [] true).withCh k.toNat
    { s.xc k with chain := some (.start card q sc false), copied := true }) := start.trans next
  refine ⟨⟨turn.xc, turn.elsewhere.rest, turn.xElse rfl rfl⟩, ?_⟩
  rw [turn.me]
  rfl

/-- A byte post that is under way: it stands among the posts of the network, and the request of its channel is out. -/
theorem State.posted_spec (u : State) (k : BitVec 3) (va pa dom n : Nat) :
    (u.posted k va pa dom n).cp.posts = u.cp.posts ++ [{ pa := pa, dom := dom, va := va, core := u.cur, op := .bytes k.toNat n }]
      ∧ (∃ r q, (u.posted k va pa dom n).xc k = { u.xc k with eng := { (u.xc k).eng with elem := 1, ready := r, ask := q } }
        ∧ (u.heldAt u.cur (8 + k.toNat) false va 32 = false → (u.xc k).eng.ask = none →
          q = some { sp := false, addr := va, len := 32, wr := true, at_ := u.frameClk, lim := u.dev.rsplim.toNat }))
      ∧ XElse u (u.posted k va pa dom n) k id
      ∧ { u.posted k va pa dom n with
          cores := u.cores, cp := { (u.posted k va pa dom n).cp with posts := u.cp.posts } } = u := by
  obtain ⟨r, q, turn, asks⟩ := u.turns_posted k va pa dom n
  have rest := turn.elsewhere.rest
  refine ⟨congrArg (fun t => t.cp.posts) rest, ⟨r, q, turn.xc, asks⟩, turn.xElse rfl rfl, ?_⟩
  exact congrArg (fun t : State => { t with cp := { t.cp with posts := u.cp.posts } }) rest

end

/-- Settles O31: each word's own step, and what it leaves of the rest. -/
theorem channelControlSteps : Obligations.ChannelControlSteps := by
  unfold Obligations.ChannelControlSteps
  refine ⟨fun s ch a b sc => ?_, fun s ch e => ?_⟩
  · intro k h av bv same done started
    refine ⟨?signal, ?bytePost, ?wrap, ?readCount, ?footprint, ?walk⟩
    case signal =>
      intro o sp off rest aligned edge written fails tiles arms
      obtain ⟨t, run, turn⟩ := execXsig_own (b := b) sp off rest aligned edge written fails tiles arms
      refine ⟨t, (exec_xsig_eq ch a b sc s).trans run, turn.elsewhere.rest, ?_, turn.xc, turn.xElse rfl rfl⟩
      have value : h.withFail (bv.toNat + h.lin) = let v := (bv.toNat + h.lin) % 2 ^ 64
          if h.fail then v % 2 ^ 63 + 2 ^ 63 else v := by
        simp only [Channel.withFail, lor_two_pow_63 (Nat.mod_lt _ (Nat.two_pow_pos 64))]
      rw [turn.me, ← value]
      rfl
    case bytePost =>
      intro uc aligned range
      rw [exec_xbar_eq]
      refine ⟨fun start zero => ⟨_, execXbar_zero uc aligned range start zero, s.unitDone_ch_spec k⟩,
        fun sent fails arrived => ⟨_, execXbar_applied uc aligned range sent fails arrived, s.unitDone_ch_spec k⟩, ?_⟩
      intro pa dom u start count edge written block notHeld routed sound
      refine ⟨_, execXbar_sent uc aligned range start count edge written block notHeld routed sound, ?_⟩
      rw [← State.blockAt_cur block]
      exact u.posted_spec k av.toNat pa dom bv.toNat
    case wrap =>
      intro w level isW circular
      subst isW
      let v := h.wrapped av.toNat bv.toInt
      have run := (exec_xwrap_eq ch a b s).trans <| execXwrap_circular (b := b) level circular
      refine ⟨_, { h with org := setFld h.org (10 * av.toNat) 10 v }, run, ?_, fun j levelJ other => ?_, rfl,
        s.stepCh_spec k fun _ => rfl⟩
      · rw [fld_setFld_same _ _ (by omega), Nat.mod_eq_of_lt (h.wrapped_lt _ _)]
        rfl
      · exact fld_setFld_disjoint _ _ (by omega) (by omega)
    case readCount => exact fun small => ⟨_, (exec_xrcnt_eq ch a s).trans (execXrcnt_inRange small), s.stepCh_spec k fun _ => rfl⟩
    case footprint =>
      exact fun f room foot => ⟨_, (exec_xfoot_eq ch a b s).trans (execXfoot_room room foot), s.stepCh_spec k fun _ => rfl⟩
    case walk =>
      intro uc aligned range foots
      refine ⟨fun first => ?_, fun outside seq => ?_⟩
      · have run := (exec_xjob_eq ch a s).trans <| execXjob_starts uc aligned range foots first
        by_cases room : s.me.tracker.length < 32
        · rw [if_pos room] at run
          obtain ⟨spec, tracker⟩ := s.startChain_register_spec k av.toNat 0 .pod
          exact ⟨_, run, spec, by rw [if_pos room, tracker, insTracked_eq]⟩
        · rw [if_neg room] at run
          obtain ⟨spec, tracker⟩ := s.startChain_spec k av.toNat 0 .pod false
          exact ⟨_, run, spec, by rw [if_neg room, tracker]⟩
      · obtain ⟨spec, tracker⟩ := s.startChain_spec k av.toNat bv sc true
        exact ⟨_, (exec_xchain_eq ch a b sc s).trans (execXchain_starts uc aligned range foots outside seq), spec, tracker⟩
  · intro trips
    have entered := s.turns_enterProg ch e.toNat
    refine ⟨⟨_, exec_xrun_eq ch e s, entered.elsewhere.rest, entered.xElse rfl rfl, entered.xc⟩, fun x taken => ?_⟩
    have turn := (s.turns_withCh_self s.chan).updX fun h => { h with copied := false }
    rw [exec_xend_eq, execXend]
    cases step : nextIdx (trips (s.xc s.chan)) (s.xc s.chan).eng.idx.toList with
    | none =>
      have ended := turn.endBody_last step
      refine ⟨_, rfl, ended.elsewhere.rest, ended.xElse rfl rfl, ?_⟩
      rw [ended.xc]
      exact ⟨rfl, rfl, fun _ => rfl, nofun⟩
    | some l =>
      have again := turn.endBody_next taken step
      have six : l.length = 6 := (length_of_nextIdx step).trans (by simp)
      refine ⟨_, rfl, again.elsewhere.rest, again.xElse rfl rfl, ?_⟩
      rw [again.xc]
      refine ⟨rfl, rfl, nofun, fun m is => ?_⟩
      cases is
      exact ⟨rfl, toList_ofFn_getD six⟩

end Sys2Proof.Machine

/-! SUPPORT. A counterexample to the statement about job cards (R199): the read of a card's wait that meets an error in the data
(R319). -/

namespace Sys2Proof.Machine

/-- A card that waits until the last doubleword of the scratchpad has reached 0. -/
def ChainSt.waiting : ChainSt :=
  { card := 0x1000, step := .wait, seqWord := 0, scope := .pod, chain := true, waitAt := 0, last := 0
    img := [0, 4 * 2 ^ 32, 0, 0, 0, 0, 0x80000000001FFFF8, 0, 0, 0, 0, 0, 0, 0, 0, 0] }

/-- A channel in the wait of that card, whose next read meets an error. -/
def Channel.hitWaiting : Channel := { Channel.zero with chain := some .waiting, eng := { Engine.empty with hit := true } }

/-- A machine whose core 0 runs, with channel 0 as given. -/
def State.walking (h : Channel) : State :=
  { State.reset with cores := [(0, { Core.reset with status := .running, ch := vset Core.reset.ch 0 h })] }

/-- The error is the domain's (R319): the walk stays where it is. -/
theorem jobCard_hitWaiting : ∃ t, exec (.jobCard 0 0) (.walking .hitWaiting) = .next t ∧ (t.xc 0).chain = some .waiting :=
  ⟨_, rfl, by decide⟩

/-- Refutes O32: a wait at a quiet scratchpad word whose value has reached the operand does not go on where the read of the word
meets an error in the data. -/
theorem not_jobCardSteps : ¬ Obligations.JobCardSteps := by
  unfold Obligations.JobCardSteps
  intro holds
  obtain ⟨_, _, wait, _⟩ := holds (.walking .hitWaiting) 0 0 .waiting (by decide) (by decide)
  have quiet : (State.walking .hitWaiting).me.guarded 8 0x1FFFF8 8 = false := by decide
  obtain ⟨t, run, goes, _⟩ := wait (by decide) (by decide) ⟨by decide, by decide, by decide, quiet⟩ (Nat.zero_le _)
  obtain ⟨u, stays, chain⟩ := jobCard_hitWaiting
  rw [stays] at run
  cases run
  have went := congrArg Channel.chain goes
  rw [chain] at went
  exact absurd went (by decide)

end Sys2Proof.Machine
